-- ==== Sys2Proof/Word.lean ====
section
/-!
DEFINITION. The word types of the Larac, register banks indexed by a bit-vector field, and a slot's guard.
-/
namespace Sys2Proof

/-- A scalar register's 64 bits (R22). -/
abbrev Word := BitVec 64

/-- One byte of memory. -/
abbrev Byte := BitVec 8

/-- One vector register's 256 bytes: byte `j` is bits `8j` to `8j + 7` (R26). -/
abbrev VBits := BitVec 2048

/-- A bank of `2 ^ k` registers, indexed by a `k`-bit field of an instruction. -/
abbrev Bank (k : Nat) (α : Type) := Vector α (2 ^ k)

/-- The register that the field `i` names. -/
def Bank.read {k : Nat} {α : Type} (b : Bank k α) (i : BitVec k) : α := b[i.toFin]

/-- The bank after `x` is written to the register that the field `i` names. -/
def Bank.write {k : Nat} {α : Type} (b : Bank k α) (i : BitVec k) (x : α) : Bank k α :=
  b.set i.toNat x i.isLt

/-- A bank with every register holding `x`. -/
def Bank.fill (k : Nat) {α : Type} (x : α) : Bank k α := Vector.replicate (2 ^ k) x

/-- A guard field pair of a slot word: the guard index GI and the inverting bit GN (R68, R69). -/
structure Guard where
  idx : BitVec 6
  neg : Bool
  deriving DecidableEq, Repr

/-- The guard of an unguarded slot, `p0` (R69). -/
def Guard.always : Guard := ⟨0, false⟩

end Sys2Proof
end

