-- ==== Sys2Proof/Syntax.lean ====
section
/-!
DEFINITION. The instructions and events of the machine: one constructor per row of the opcode table. A slot
instruction carries its guard and its operand fields as its word holds them, and a slot-0 instruction its stop bit. What
an event acts on (which tile, which request, what reaches the machine from outside) stands in the state (`State.ev`).
The constructors without fields come last: the compiler gives at most 245 constructors with fields a tag.
-/
namespace Sys2Proof

/-- One row of the opcode table. -/
inductive Instr where
  -- Slot 0 (R70, R78, R86)
  | nopb (stop : Bool) (g : Guard)
  | callr (stop : Bool) (g : Guard) (a : BitVec 6)
  | ret (stop : Bool) (g : Guard) (a : BitVec 6)
  | relc (stop : Bool) (g : Guard) (p : BitVec 6) (o : BitVec 9)
  | fjoin (stop : Bool) (g : Guard) (d : BitVec 6) (t : BitVec 9)
  | tend (stop : Bool) (g : Guard)
  | endMember (stop : Bool) (g : Guard)
  | loop (stop : Bool) (g : Guard) (k : BitVec 4) (i : BitVec 9)
  | loopx (stop : Bool) (g : Guard) (a : BitVec 6) (i : BitVec 9)
  | bsel (stop : Bool) (g : Guard) (a : BitVec 6) (i : BitVec 9)
  | chkpt (stop : Bool) (g : Guard)
  | yield (stop : Bool) (g : Guard) (i : BitVec 9)
  | trap (stop : Bool) (g : Guard) (c : BitVec 9)
  | brk (stop : Bool) (g : Guard) (c : BitVec 9)
  | br (stop : Bool) (g : Guard) (o : BitVec 21)
  | call (stop : Bool) (g : Guard) (o : BitVec 21)
  | tree (stop : Bool) (a : BitVec 7) (b : BitVec 7) (c : BitVec 7) (d : BitVec 7)
  -- Slot 1, S (R79, R87)
  | add (g : Guard) (d : BitVec 6) (a : BitVec 6) (b : BitVec 6)
  | sub (g : Guard) (d : BitVec 6) (a : BitVec 6) (b : BitVec 6)
  | mul (g : Guard) (d : BitVec 6) (a : BitVec 6) (b : BitVec 6)
  | mulh (g : Guard) (d : BitVec 6) (a : BitVec 6) (b : BitVec 6)
  | mulhz (g : Guard) (d : BitVec 6) (a : BitVec 6) (b : BitVec 6)
  | div (g : Guard) (d : BitVec 6) (a : BitVec 6) (b : BitVec 6)
  | divz (g : Guard) (d : BitVec 6) (a : BitVec 6) (b : BitVec 6)
  | rem (g : Guard) (d : BitVec 6) (a : BitVec 6) (b : BitVec 6)
  | remz (g : Guard) (d : BitVec 6) (a : BitVec 6) (b : BitVec 6)
  | and (g : Guard) (d : BitVec 6) (a : BitVec 6) (b : BitVec 6)
  | andn (g : Guard) (d : BitVec 6) (a : BitVec 6) (b : BitVec 6)
  | or (g : Guard) (d : BitVec 6) (a : BitVec 6) (b : BitVec 6)
  | xor (g : Guard) (d : BitVec 6) (a : BitVec 6) (b : BitVec 6)
  | shl (g : Guard) (d : BitVec 6) (a : BitVec 6) (b : BitVec 6)
  | shli (g : Guard) (d : BitVec 6) (a : BitVec 6) (c : BitVec 6)
  | shr (g : Guard) (d : BitVec 6) (a : BitVec 6) (b : BitVec 6)
  | shri (g : Guard) (d : BitVec 6) (a : BitVec 6) (c : BitVec 6)
  | sar (g : Guard) (d : BitVec 6) (a : BitVec 6) (b : BitVec 6)
  | sari (g : Guard) (d : BitVec 6) (a : BitVec 6) (c : BitVec 6)
  | rotr (g : Guard) (d : BitVec 6) (a : BitVec 6) (b : BitVec 6)
  | rotrImm (g : Guard) (d : BitVec 6) (a : BitVec 6) (c : BitVec 6)
  | min (g : Guard) (d : BitVec 6) (a : BitVec 6) (b : BitVec 6)
  | minz (g : Guard) (d : BitVec 6) (a : BitVec 6) (b : BitVec 6)
  | max (g : Guard) (d : BitVec 6) (a : BitVec 6) (b : BitVec 6)
  | maxz (g : Guard) (d : BitVec 6) (a : BitVec 6) (b : BitVec 6)
  | clz (g : Guard) (d : BitVec 6) (a : BitVec 6)
  | ctz (g : Guard) (d : BitVec 6) (a : BitVec 6)
  | popc (g : Guard) (d : BitVec 6) (a : BitVec 6)
  | bfx (g : Guard) (d : BitVec 6) (a : BitVec 6) (b : BitVec 6)
  | bfxz (g : Guard) (d : BitVec 6) (a : BitVec 6) (b : BitVec 6)
  | bfi (g : Guard) (d : BitVec 6) (a : BitVec 6) (b : BitVec 6)
  | sel (g : Guard) (d : BitVec 6) (a : BitVec 6) (b : BitVec 6)
  | addi (g : Guard) (d : BitVec 6) (a : BitVec 6) (i : BitVec 7)
  | andi (g : Guard) (d : BitVec 6) (a : BitVec 6) (i : BitVec 7)
  | ori (g : Guard) (d : BitVec 6) (a : BitVec 6) (i : BitVec 7)
  | xori (g : Guard) (d : BitVec 6) (a : BitVec 6) (i : BitVec 7)
  | lea (g : Guard) (d : BitVec 6) (a : BitVec 6) (i : BitVec 7)
  | movi (g : Guard) (d : BitVec 6) (i : BitVec 13)
  | movhi (g : Guard) (d : BitVec 6) (i : BitVec 13)
  | cmpEq (g : Guard) (k : BitVec 5) (x : BitVec 1) (a : BitVec 6) (b : BitVec 6)
  | cmpiEq (g : Guard) (k : BitVec 5) (x : BitVec 1) (a : BitVec 6) (i : BitVec 6)
  | cmpNe (g : Guard) (k : BitVec 5) (x : BitVec 1) (a : BitVec 6) (b : BitVec 6)
  | cmpiNe (g : Guard) (k : BitVec 5) (x : BitVec 1) (a : BitVec 6) (i : BitVec 6)
  | cmpLt (g : Guard) (k : BitVec 5) (x : BitVec 1) (a : BitVec 6) (b : BitVec 6)
  | cmpiLt (g : Guard) (k : BitVec 5) (x : BitVec 1) (a : BitVec 6) (i : BitVec 6)
  | cmpLe (g : Guard) (k : BitVec 5) (x : BitVec 1) (a : BitVec 6) (b : BitVec 6)
  | cmpiLe (g : Guard) (k : BitVec 5) (x : BitVec 1) (a : BitVec 6) (i : BitVec 6)
  | cmpGt (g : Guard) (k : BitVec 5) (x : BitVec 1) (a : BitVec 6) (b : BitVec 6)
  | cmpiGt (g : Guard) (k : BitVec 5) (x : BitVec 1) (a : BitVec 6) (i : BitVec 6)
  | cmpGe (g : Guard) (k : BitVec 5) (x : BitVec 1) (a : BitVec 6) (b : BitVec 6)
  | cmpiGe (g : Guard) (k : BitVec 5) (x : BitVec 1) (a : BitVec 6) (i : BitVec 6)
  | cmpLo (g : Guard) (k : BitVec 5) (x : BitVec 1) (a : BitVec 6) (b : BitVec 6)
  | cmpiLo (g : Guard) (k : BitVec 5) (x : BitVec 1) (a : BitVec 6) (i : BitVec 6)
  | cmpLs (g : Guard) (k : BitVec 5) (x : BitVec 1) (a : BitVec 6) (b : BitVec 6)
  | cmpiLs (g : Guard) (k : BitVec 5) (x : BitVec 1) (a : BitVec 6) (i : BitVec 6)
  | cmpHi (g : Guard) (k : BitVec 5) (x : BitVec 1) (a : BitVec 6) (b : BitVec 6)
  | cmpiHi (g : Guard) (k : BitVec 5) (x : BitVec 1) (a : BitVec 6) (i : BitVec 6)
  | cmpHs (g : Guard) (k : BitVec 5) (x : BitVec 1) (a : BitVec 6) (b : BitVec 6)
  | cmpiHs (g : Guard) (k : BitVec 5) (x : BitVec 1) (a : BitVec 6) (i : BitVec 6)
  | pand (g : Guard) (d : BitVec 6) (a : BitVec 6) (b : BitVec 6)
  | pandn (g : Guard) (d : BitVec 6) (a : BitVec 6) (b : BitVec 6)
  | por (g : Guard) (d : BitVec 6) (a : BitVec 6) (b : BitVec 6)
  | pxor (g : Guard) (d : BitVec 6) (a : BitVec 6) (b : BitVec 6)
  | setb (g : Guard) (k : BitVec 6) (i : BitVec 13)
  | ximm (t : BitVec 3) (p : BitVec 19)
  | setefImm (g : Guard) (v : BitVec 8)
  | setefReg (g : Guard) (a : BitVec 6)
  | mfs (g : Guard) (a : BitVec 6) (r : BitVec 8)
  | mts (g : Guard) (a : BitVec 6) (r : BitVec 8)
  | schk (g : Guard) (a : BitVec 6) (b : BitVec 6)
  | schkPred (g : Guard) (a : BitVec 6) (b : BitVec 6)
  | lds (g : Guard) (d : BitVec 6) (a : BitVec 6) (m : BitVec 1) (z : BitVec 2) (e : BitVec 1)
  | sts (g : Guard) (d : BitVec 6) (a : BitVec 6) (m : BitVec 1) (z : BitVec 2)
  | ldg (g : Guard) (d : BitVec 6) (a : BitVec 6) (q : BitVec 4) (z : BitVec 2) (e : BitVec 1)
  | stg (g : Guard) (d : BitVec 6) (a : BitVec 6) (q : BitVec 4) (z : BitVec 2)
  | faddH (g : Guard) (d : BitVec 6) (a : BitVec 6) (b : BitVec 6)
  | fsubH (g : Guard) (d : BitVec 6) (a : BitVec 6) (b : BitVec 6)
  | faddF (g : Guard) (d : BitVec 6) (a : BitVec 6) (b : BitVec 6)
  | fsubF (g : Guard) (d : BitVec 6) (a : BitVec 6) (b : BitVec 6)
  | faddD (g : Guard) (d : BitVec 6) (a : BitVec 6) (b : BitVec 6)
  | fsubD (g : Guard) (d : BitVec 6) (a : BitVec 6) (b : BitVec 6)
  | fmulH (g : Guard) (d : BitVec 6) (a : BitVec 6) (b : BitVec 6)
  | ffmaH (g : Guard) (d : BitVec 6) (a : BitVec 6) (b : BitVec 6)
  | fmulF (g : Guard) (d : BitVec 6) (a : BitVec 6) (b : BitVec 6)
  | ffmaF (g : Guard) (d : BitVec 6) (a : BitVec 6) (b : BitVec 6)
  | fmulD (g : Guard) (d : BitVec 6) (a : BitVec 6) (b : BitVec 6)
  | ffmaD (g : Guard) (d : BitVec 6) (a : BitVec 6) (b : BitVec 6)
  | fminH (g : Guard) (d : BitVec 6) (a : BitVec 6) (b : BitVec 6)
  | fmaxH (g : Guard) (d : BitVec 6) (a : BitVec 6) (b : BitVec 6)
  | fminF (g : Guard) (d : BitVec 6) (a : BitVec 6) (b : BitVec 6)
  | fmaxF (g : Guard) (d : BitVec 6) (a : BitVec 6) (b : BitVec 6)
  | fminD (g : Guard) (d : BitVec 6) (a : BitVec 6) (b : BitVec 6)
  | fmaxD (g : Guard) (d : BitVec 6) (a : BitVec 6) (b : BitVec 6)
  | fcmpH (g : Guard) (k : BitVec 5) (x : BitVec 1) (c : BitVec 2) (a : BitVec 5) (b : BitVec 5)
  | fcmpF (g : Guard) (k : BitVec 5) (x : BitVec 1) (c : BitVec 2) (a : BitVec 5) (b : BitVec 5)
  | fcmpD (g : Guard) (k : BitVec 5) (x : BitVec 1) (c : BitVec 2) (a : BitVec 5) (b : BitVec 5)
  | fcvt (g : Guard) (d : BitVec 6) (a : BitVec 6) (s : BitVec 3) (t : BitVec 3)
  -- Slot 2, D (R80, R88)
  | waitdc (g : Guard) (c : BitVec 3) (v : BitVec 12)
  | waitm (g : Guard) (k : BitVec 6)
  | waitany (g : Guard) (j : BitVec 4)
  | ffrm (g : Guard) (d : BitVec 6) (j : BitVec 4)
  | mclr (g : Guard) (k : BitVec 6)
  | mclrSet (g : Guard) (j : BitVec 4)
  | cfence (g : Guard) (m : BitVec 16) (s : BitVec 3)
  | atomAdd (g : Guard) (d : BitVec 6) (a : BitVec 6) (q : BitVec 4) (s : BitVec 3)
  | atomMin (g : Guard) (d : BitVec 6) (a : BitVec 6) (q : BitVec 4) (s : BitVec 3)
  | atomMax (g : Guard) (d : BitVec 6) (a : BitVec 6) (q : BitVec 4) (s : BitVec 3)
  | atomMinz (g : Guard) (d : BitVec 6) (a : BitVec 6) (q : BitVec 4) (s : BitVec 3)
  | atomMaxz (g : Guard) (d : BitVec 6) (a : BitVec 6) (q : BitVec 4) (s : BitVec 3)
  | atomAnd (g : Guard) (d : BitVec 6) (a : BitVec 6) (q : BitVec 4) (s : BitVec 3)
  | atomOr (g : Guard) (d : BitVec 6) (a : BitVec 6) (q : BitVec 4) (s : BitVec 3)
  | atomXor (g : Guard) (d : BitVec 6) (a : BitVec 6) (q : BitVec 4) (s : BitVec 3)
  | atomXchg (g : Guard) (d : BitVec 6) (a : BitVec 6) (q : BitVec 4) (s : BitVec 3)
  | atomCas (g : Guard) (d : BitVec 6) (a : BitVec 6) (q : BitVec 4) (s : BitVec 3)
  | propose (g : Guard) (d : BitVec 6) (a : BitVec 6) (q : BitVec 4) (s : BitVec 3)
  | ocread (g : Guard) (d : BitVec 6) (a : BitVec 6) (q : BitVec 4) (s : BitVec 3)
  | ocrecycle (g : Guard) (d : BitVec 6) (a : BitVec 6) (q : BitVec 4) (s : BitVec 3)
  | bara (g : Guard) (i : BitVec 4) (s : BitVec 3)
  | barw (g : Guard) (p : BitVec 6) (i : BitVec 4) (s : BitVec 3)
  | bar (g : Guard) (p : BitVec 6) (i : BitVec 4) (s : BitVec 3)
  | popw (g : Guard) (d : BitVec 6) (a : BitVec 6)
  | popwB (g : Guard) (d : BitVec 6) (a : BitVec 6)
  | pushw (g : Guard) (d : BitVec 6) (a : BitVec 6)
  | pushwC (g : Guard) (d : BitVec 6) (a : BitVec 6)
  | qpush (g : Guard) (d : BitVec 6) (a : BitVec 6) (q : BitVec 6)
  | trigger (g : Guard)
  | wstat (g : Guard) (d : BitVec 6) (a : BitVec 6)
  | digq (g : Guard) (d : BitVec 6) (a : BitVec 6) (c : BitVec 6)
  | digb (g : Guard) (t : BitVec 6) (a : BitVec 6) (k : BitVec 5)
  | digrs (g : Guard) (d : BitVec 6) (a : BitVec 6) (c : BitVec 6)
  | kvapp (g : Guard) (d : BitVec 6) (a : BitVec 6) (p : BitVec 6)
  -- Slots 3 and 4, V (R81, R89)
  | vadd (g : Guard) (d : BitVec 5) (a : BitVec 5) (b : BitVec 5) (l : BitVec 3)
  | vaddS (g : Guard) (d : BitVec 5) (a : BitVec 5) (b : BitVec 5) (l : BitVec 3)
  | vsub (g : Guard) (d : BitVec 5) (a : BitVec 5) (b : BitVec 5) (l : BitVec 3)
  | vsubS (g : Guard) (d : BitVec 5) (a : BitVec 5) (b : BitVec 5) (l : BitVec 3)
  | vmul (g : Guard) (d : BitVec 5) (a : BitVec 5) (b : BitVec 5) (l : BitVec 3)
  | vmulS (g : Guard) (d : BitVec 5) (a : BitVec 5) (b : BitVec 5) (l : BitVec 3)
  | vfma (g : Guard) (d : BitVec 5) (a : BitVec 5) (b : BitVec 5) (l : BitVec 3)
  | vfms (g : Guard) (d : BitVec 5) (a : BitVec 5) (b : BitVec 5) (l : BitVec 3)
  | vmin (g : Guard) (d : BitVec 5) (a : BitVec 5) (b : BitVec 5) (l : BitVec 3)
  | vmax (g : Guard) (d : BitVec 5) (a : BitVec 5) (b : BitVec 5) (l : BitVec 3)
  | vabs (g : Guard) (d : BitVec 5) (a : BitVec 5) (l : BitVec 3) (m : BitVec 1)
  | vneg (g : Guard) (d : BitVec 5) (a : BitVec 5) (l : BitVec 3) (m : BitVec 1)
  | vrcp (g : Guard) (d : BitVec 5) (a : BitVec 5) (l : BitVec 3)
  | vrsq (g : Guard) (d : BitVec 5) (a : BitVec 5) (l : BitVec 3)
  | vexp2 (g : Guard) (d : BitVec 5) (a : BitVec 5) (l : BitVec 3)
  | vlog2 (g : Guard) (d : BitVec 5) (a : BitVec 5) (l : BitVec 3)
  | vand (g : Guard) (d : BitVec 5) (a : BitVec 5) (b : BitVec 5) (l : BitVec 3)
  | vor (g : Guard) (d : BitVec 5) (a : BitVec 5) (b : BitVec 5) (l : BitVec 3)
  | vxor (g : Guard) (d : BitVec 5) (a : BitVec 5) (b : BitVec 5) (l : BitVec 3)
  | vshl (g : Guard) (d : BitVec 5) (a : BitVec 5) (b : BitVec 5) (l : BitVec 3)
  | vshr (g : Guard) (d : BitVec 5) (a : BitVec 5) (b : BitVec 5) (l : BitVec 3)
  | vsar (g : Guard) (d : BitVec 5) (a : BitVec 5) (b : BitVec 5) (l : BitVec 3)
  | vcmp (g : Guard) (c : BitVec 3) (d : BitVec 3) (a : BitVec 5) (b : BitVec 5) (l : BitVec 3)
  | vsel (g : Guard) (d : BitVec 5) (a : BitVec 5) (b : BitVec 5) (l : BitVec 3)
  | vcvt (g : Guard) (d : BitVec 5) (a : BitVec 5) (f : BitVec 4) (p : BitVec 3)
  | vcvtBits (g : Guard) (d : BitVec 5) (a : BitVec 5) (f : BitVec 4)
  | vqntT8 (g : Guard) (d : BitVec 5) (a : BitVec 5) (b : BitVec 5) (p : BitVec 3)
  | vqntT6 (g : Guard) (d : BitVec 5) (a : BitVec 5) (b : BitVec 5) (p : BitVec 3)
  | vsclT8 (g : Guard) (d : BitVec 5) (a : BitVec 5)
  | vsclT6 (g : Guard) (d : BitVec 5) (a : BitVec 5)
  | vredadd (g : Guard) (d : BitVec 5) (a : BitVec 5) (l : BitVec 3)
  | vredaddS (g : Guard) (d : BitVec 5) (a : BitVec 5) (l : BitVec 3)
  | vredmax (g : Guard) (d : BitVec 5) (a : BitVec 5) (l : BitVec 3)
  | vredmin (g : Guard) (d : BitVec 5) (a : BitVec 5) (l : BitVec 3)
  | vscan (g : Guard) (d : BitVec 5) (a : BitVec 5) (l : BitVec 3)
  | vscanX (g : Guard) (d : BitVec 5) (a : BitVec 5) (l : BitVec 3)
  | vbcast (g : Guard) (d : BitVec 5) (f : BitVec 5) (s : BitVec 6) (l : BitVec 3)
  | vext (g : Guard) (i : BitVec 8) (a : BitVec 5) (s : BitVec 6)
  | vins (g : Guard) (d : BitVec 5) (i : BitVec 8) (s : BitVec 6)
  | vperm (g : Guard) (d : BitVec 5) (a : BitVec 5) (b : BitVec 5) (l : BitVec 3)
  | vslide (g : Guard) (d : BitVec 5) (a : BitVec 5) (s : BitVec 6) (l : BitVec 3)
  | vhash (g : Guard) (d : BitVec 5) (a : BitVec 5) (b : BitVec 5) (l : BitVec 3)
  | viota (g : Guard) (d : BitVec 5) (f : BitVec 5) (s : BitVec 6) (l : BitVec 3)
  | lmand (g : Guard) (d : BitVec 3) (a : BitVec 3) (b : BitVec 3)
  | lmandn (g : Guard) (d : BitVec 3) (a : BitVec 3) (b : BitVec 3)
  | lmor (g : Guard) (d : BitVec 3) (a : BitVec 3) (b : BitVec 3)
  | lmxor (g : Guard) (d : BitVec 3) (a : BitVec 3) (b : BitVec 3)
  | lmnot (g : Guard) (d : BitVec 3) (a : BitVec 3)
  | lmcnt (g : Guard) (w : BitVec 2) (a : BitVec 3) (s : BitVec 6)
  | lmff (g : Guard) (w : BitVec 2) (a : BitVec 3) (s : BitVec 6)
  | twr (g : Guard) (v : BitVec 5) (t : BitVec 2) (i : BitVec 6)
  | trdc (g : Guard) (v : BitVec 5) (t : BitVec 2) (i : BitVec 6) (f : BitVec 4)
  | trdr (g : Guard) (v : BitVec 5) (t : BitVec 2) (i : BitVec 6) (f : BitVec 4)
  | tzero (g : Guard) (t : BitVec 2) (f : BitVec 4)
  | vchk (g : Guard) (a : BitVec 5) (b : BitVec 5) (l : BitVec 3)
  | vchkLm (g : Guard) (a : BitVec 3) (b : BitVec 3)
  | vskb (g : Guard) (d : BitVec 5) (a : BitVec 5) (b : BitVec 5)
  | vld (g : Guard) (v : BitVec 5) (a : BitVec 6) (f : BitVec 4) (m : BitVec 1) (l : BitVec 3)
  | vst (g : Guard) (v : BitVec 5) (a : BitVec 6) (k : BitVec 3) (m : BitVec 1) (l : BitVec 3)
  | vldg (g : Guard) (v : BitVec 5) (a : BitVec 6) (f : BitVec 4) (q : BitVec 4)
  | vstg (g : Guard) (v : BitVec 5) (a : BitVec 6) (k : BitVec 3) (q : BitVec 4)
  | vgath (g : Guard) (v : BitVec 5) (x : BitVec 5) (a : BitVec 6) (k : BitVec 2)
  | vgathG (g : Guard) (v : BitVec 5) (x : BitVec 5) (a : BitVec 6) (k : BitVec 2)
  | vscat (g : Guard) (v : BitVec 5) (x : BitVec 5) (a : BitVec 6) (k : BitVec 2)
  | vscatG (g : Guard) (v : BitVec 5) (x : BitVec 5) (a : BitVec 6) (k : BitVec 2)
  | vatom (g : Guard) (v : BitVec 5) (x : BitVec 5) (a : BitVec 6) (p : BitVec 3)
  -- Slot 5, M (R82, R90)
  | mma (g : Guard) (c : BitVec 2) (k : BitVec 9) (a : BitVec 3) (b : BitVec 3)
  | mmaZ (g : Guard) (c : BitVec 2) (k : BitVec 9) (a : BitVec 3) (b : BitVec 3)
  | mmas (g : Guard) (c : BitVec 2) (k : BitVec 9) (a : BitVec 3) (b : BitVec 3)
  | mmasZ (g : Guard) (c : BitVec 2) (k : BitVec 9) (a : BitVec 3) (b : BitVec 3)
  | mzero (g : Guard) (c : BitVec 2) (t : BitVec 1)
  | mpop (g : Guard) (c : BitVec 2) (v : BitVec 5) (r : BitVec 7) (s : BitVec 2) (w : BitVec 2)
  | mpush (g : Guard) (c : BitVec 2) (v : BitVec 5) (r : BitVec 7) (s : BitVec 2)
  | mret (g : Guard) (c : BitVec 2)
  | mfmt (g : Guard) (c : BitVec 2) (t : BitVec 1)
  | mflush (g : Guard) (b : BitVec 1) (a : BitVec 1)
  | mflushPc (g : Guard) (s : BitVec 6) (b : BitVec 1) (a : BitVec 1)
  | mstat (g : Guard) (d : BitVec 6)
  | mstatC (g : Guard) (d : BitVec 6)
  -- Slots 6 and 7, C (R83, R90)
  | dld (g : Guard) (d : BitVec 4) (a : BitVec 6)
  | dset (g : Guard) (d : BitVec 4) (a : BitVec 6) (f : BitVec 5)
  | dsetAdd (g : Guard) (d : BitVec 4) (a : BitVec 6) (f : BitVec 5)
  | msetw (g : Guard) (j : BitVec 4) (a : BitVec 6)
  | cpy (g : Guard) (d : BitVec 4) (m : BitVec 6) (s : BitVec 4) (e : BitVec 1) (f : BitVec 1) (l : BitVec 1)
  | cpym (g : Guard) (d : BitVec 4) (m : BitVec 6) (s : BitVec 4) (e : BitVec 1)
  | cpyq (g : Guard) (d : BitVec 4) (m : BitVec 6) (s : BitVec 4) (e : BitVec 1) (f : BitVec 1) (l : BitVec 1)
  | cpyx (g : Guard) (d : BitVec 4) (m : BitVec 6) (s : BitVec 4) (e : BitVec 1) (f : BitVec 1)
  | gath (g : Guard) (d : BitVec 4) (m : BitVec 6) (s : BitVec 4) (w : BitVec 3) (p : BitVec 2)
  | feed (g : Guard) (d : BitVec 4) (m : BitVec 6) (s : BitVec 4) (e : BitVec 1) (c : BitVec 3) (f : BitVec 1)
  | drain (g : Guard) (d : BitVec 4) (m : BitVec 6) (s : BitVec 4) (a : BitVec 2) (c : BitVec 3)
  | lsend (g : Guard) (a : BitVec 6) (m : BitVec 6) (s : BitVec 4)
  | lrecv (g : Guard) (a : BitVec 6) (m : BitVec 6) (s : BitVec 4)
  | lrxadd (g : Guard) (a : BitVec 6) (m : BitVec 6) (s : BitVec 4) (f : BitVec 3)
  -- NOP of slots 1 to 7: its guard index is checked and then has no use (R91)
  | nopS 
  | nopD 
  | nopV 
  | nopM 
  | nopC 
  -- Events: steps of agents other than a slot, which have no encoding
  | pickContext 
  | engineCommandStart 
  | engineCommandComplete 
  | deviceReplyArrival 
  | multicastArrival 
  | feedLineWrite 
  | matrixKStep 
  | accumulatorCommit 
  | mAccCommit 
  | mflushEffect 
  | checkpoint 
  | holdingEntryPerform 
  | rollbackEvent 
  | rollbackRestore 
  | translationWalk 
  | xresolve 
  | frcons 
  | xinv 
  | xinvComplete 
  | offer 
  | fitoffer 
  | returnHead 
  | skiphead 
  | ganggo 
  | memberCreation 
  | contextRestore 
  | killMember 
  | bindRecordWrite 
  | isflush 
  | kvreclaim 
  | kvtscfg 
  | kvtscfgComplete 
  | registerWrite 
  | headPresent 
  | headEligible 
  | absentHeadTimeout 
  | qpushHomeStep 
  | teamCompletion 
  | coreFree 
  | phaseOverrun 
  | yieldDeadline 
  | waitPreemption 
  | contextSave 
  | saveComplete 
  | kvappExecute 
  | atomHomeStep 
  | onceCellHomeStep 
  | workQueueHomeStep 
  | barrierPhaseComplete 
  | windowAccessArrival 
  | homeWriteStep 
  | linkPair 
  | linkPortDown 
  | flitRetransmit 
  | linkRetrain 
  | rdmaWrite 
  | rdmaRead 
  | rdmaFetchAdd 
  | regionActivate 
  | sieveBlockScan 
  | regionDestroy 
  | digestEntryEccError 
  | heartbeatSend 
  | heartbeatReceive 
  | periodEnd 
  | babbleClear 
  | accusationReceive 
  | accusationRenew 
  | accusationExpiry 
  | withdrawalReceive 
  | quorumCheck 
  | fenceNoticeReceive 
  | watchMapUpdate 
  | strikeLapse 
  | selfTestComplete 
  | admissionReceive 
  | readmissionNoticeReceive 
  | probationTimeout 
  | correctedError 
  | quiesceEnd 
  | thsConversion 
  | throttleStep 
  | powerPageUpdate 
  | packageReset 
  | attestationRequest 
  | postFatalDump 
  | linkPortUp 
  | uncorrectableError 
  deriving DecidableEq, Repr

end Sys2Proof
end

