-- ==== Sys2Proof/WellFormed.lean ====
section
/-!
DEFINITION. Which instructions are well formed: the checks that the bits of one slot word decide (R69, R77). A word that
breaks one of them takes ILLEGAL_ENC at issue whatever its guard (R91). Checks that need another word of the bundle (an
XIMM payload), register values or the issuing context are made at issue.
-/
namespace Sys2Proof

/-- A guard index from 0 to 52 (R69). -/
def Guard.ok (g : Guard) : Bool := g.idx.toNat < 53

/-- A predicate index from 0 to 47 (R114). -/
def predOk (p : BitVec 6) : Bool := p.toNat < 48

/-- A TREE test whose predicate index is from 0 to 47 (R71). -/
def testOk (t : BitVec 7) : Bool := (t.extractLsb' 1 6).toNat < 48

/-- A scope field other than `lane`, 6 and 7 (R77, R200, R201). -/
def wideScope (s : BitVec 3) : Bool := 1 ≤ s.toNat && s.toNat < 6

/-- A barrier's scope: `quad`, `die`, `pkg` or `pod` (R205). -/
def barrierScope (s : BitVec 3) : Bool := 2 ≤ s.toNat && s.toNat < 6

/-- A once-cell instruction's register: even, from 2 to 62 (R203). -/
def onceReg (d : BitVec 6) : Bool := d.toNat % 2 == 0 && d != 0

/-- A special-register number of R36. -/
def sprListed (r : BitVec 8) : Bool := r.toNat < 0x17 && r != 0x03 && r != 0x07

/-- A SETEF value that holds no reserved value in IW or SUBST (R35). -/
def efmtOk (v : BitVec 8) : Bool := v.extractLsb' 0 2 != 3 && v.extractLsb' 4 2 != 3

/-- MMA operand formats: both floating (T8, T6, BF16, FP16) or both integer (I8, I4) (R174). -/
def mmaFormats (a b : BitVec 3) : Bool :=
  a.toNat < 6 && b.toNat < 6 && ((a == 2 || a == 3) == (b == 2 || b == 3))

/-- A K9 field of MMAS: K is 4, 8, 16, 24 or 32 (R176). -/
def mmasLength (k : BitVec 9) : Bool := k == 3 || k == 7 || k == 15 || k == 23 || k == 31

/-- A segment of MPOP within the limit of its conversion's width (R180). -/
def segOk (cv s : BitVec 2) : Bool := cv == 0 || (cv != 3 && s.toNat < 2) || (cv == 3 && s == 0)

/-- Every field that the bits of the instruction's own word decide holds a value its description defines. -/
def Instr.wf : Instr → Bool
  | .nopb _ g => g.ok
  | .callr _ g _ => g.ok
  | .ret _ g _ => g.ok
  | .relc _ g p o => g.ok && p.toNat < 48 && o.toNat % 8 == 0
  | .fjoin _ g _ _ => g.ok
  | .tend _ g => g.ok
  | .endMember _ g => g.ok
  | .loop _ g _ _ => g.ok
  | .loopx _ g _ _ => g.ok
  | .bsel _ g _ _ => g.ok
  | .chkpt _ g => g.ok
  | .yield _ g _ => g.ok
  | .trap _ g _ => g.ok
  | .brk _ g _ => g.ok
  | .br _ g _ => g.ok
  | .call _ g _ => g.ok
  | .tree _ a b c d => testOk a && testOk b && testOk c && testOk d
  | .nopS  => true
  | .add g _ _ _ => g.ok
  | .sub g _ _ _ => g.ok
  | .mul g _ _ _ => g.ok
  | .mulh g _ _ _ => g.ok
  | .mulhz g _ _ _ => g.ok
  | .div g _ _ _ => g.ok
  | .divz g _ _ _ => g.ok
  | .rem g _ _ _ => g.ok
  | .remz g _ _ _ => g.ok
  | .and g _ _ _ => g.ok
  | .andn g _ _ _ => g.ok
  | .or g _ _ _ => g.ok
  | .xor g _ _ _ => g.ok
  | .shl g _ _ _ => g.ok
  | .shli g _ _ _ => g.ok
  | .shr g _ _ _ => g.ok
  | .shri g _ _ _ => g.ok
  | .sar g _ _ _ => g.ok
  | .sari g _ _ _ => g.ok
  | .rotr g _ _ _ => g.ok
  | .rotrImm g _ _ _ => g.ok
  | .min g _ _ _ => g.ok
  | .minz g _ _ _ => g.ok
  | .max g _ _ _ => g.ok
  | .maxz g _ _ _ => g.ok
  | .clz g _ _ => g.ok
  | .ctz g _ _ => g.ok
  | .popc g _ _ => g.ok
  | .bfx g _ _ _ => g.ok
  | .bfxz g _ _ _ => g.ok
  | .bfi g _ _ _ => g.ok
  | .sel g _ _ _ => g.ok
  | .addi g _ _ _ => g.ok
  | .andi g _ _ _ => g.ok
  | .ori g _ _ _ => g.ok
  | .xori g _ _ _ => g.ok
  | .lea g _ _ _ => g.ok
  | .movi g _ _ => g.ok
  | .movhi g _ _ => g.ok
  | .cmpEq g k _ _ _ => g.ok && k.toNat < 24
  | .cmpiEq g k _ _ _ => g.ok && k.toNat < 24
  | .cmpNe g k _ _ _ => g.ok && k.toNat < 24
  | .cmpiNe g k _ _ _ => g.ok && k.toNat < 24
  | .cmpLt g k _ _ _ => g.ok && k.toNat < 24
  | .cmpiLt g k _ _ _ => g.ok && k.toNat < 24
  | .cmpLe g k _ _ _ => g.ok && k.toNat < 24
  | .cmpiLe g k _ _ _ => g.ok && k.toNat < 24
  | .cmpGt g k _ _ _ => g.ok && k.toNat < 24
  | .cmpiGt g k _ _ _ => g.ok && k.toNat < 24
  | .cmpGe g k _ _ _ => g.ok && k.toNat < 24
  | .cmpiGe g k _ _ _ => g.ok && k.toNat < 24
  | .cmpLo g k _ _ _ => g.ok && k.toNat < 24
  | .cmpiLo g k _ _ _ => g.ok && k.toNat < 24
  | .cmpLs g k _ _ _ => g.ok && k.toNat < 24
  | .cmpiLs g k _ _ _ => g.ok && k.toNat < 24
  | .cmpHi g k _ _ _ => g.ok && k.toNat < 24
  | .cmpiHi g k _ _ _ => g.ok && k.toNat < 24
  | .cmpHs g k _ _ _ => g.ok && k.toNat < 24
  | .cmpiHs g k _ _ _ => g.ok && k.toNat < 24
  | .pand g d a b => g.ok && predOk d && predOk a && predOk b
  | .pandn g d a b => g.ok && predOk d && predOk a && predOk b
  | .por g d a b => g.ok && predOk d && predOk a && predOk b
  | .pxor g d a b => g.ok && predOk d && predOk a && predOk b
  | .setb g k _ => g.ok && k.toNat < 4
  | .ximm t _ => t != 1
  | .setefImm g v => g.ok && efmtOk v
  | .setefReg g a => g.ok && a != 0
  | .mfs g _ r => g.ok && sprListed r
  | .mts g _ r => g.ok && sprListed r
  | .schk g _ _ => g.ok
  | .schkPred g a b => g.ok && predOk a && predOk b
  | .lds g _ _ _ z e => g.ok && !(z == 3 && e == 1)
  | .sts g _ _ _ _ => g.ok
  | .ldg g _ _ _ z e => g.ok && !(z == 3 && e == 1)
  | .stg g _ _ _ _ => g.ok
  | .faddH g _ _ _ => g.ok
  | .fsubH g _ _ _ => g.ok
  | .faddF g _ _ _ => g.ok
  | .fsubF g _ _ _ => g.ok
  | .faddD g _ _ _ => g.ok
  | .fsubD g _ _ _ => g.ok
  | .fmulH g _ _ _ => g.ok
  | .ffmaH g _ _ _ => g.ok
  | .fmulF g _ _ _ => g.ok
  | .ffmaF g _ _ _ => g.ok
  | .fmulD g _ _ _ => g.ok
  | .ffmaD g _ _ _ => g.ok
  | .fminH g _ _ _ => g.ok
  | .fmaxH g _ _ _ => g.ok
  | .fminF g _ _ _ => g.ok
  | .fmaxF g _ _ _ => g.ok
  | .fminD g _ _ _ => g.ok
  | .fmaxD g _ _ _ => g.ok
  | .fcmpH g k _ _ _ _ => g.ok && k.toNat < 24
  | .fcmpF g k _ _ _ _ => g.ok && k.toNat < 24
  | .fcmpD g k _ _ _ _ => g.ok && k.toNat < 24
  | .fcvt g _ _ _ _ => g.ok
  | .nopD  => true
  | .waitdc g _ _ => g.ok
  | .waitm g _ => g.ok
  | .waitany g _ => g.ok
  | .ffrm g _ _ => g.ok
  | .mclr g _ => g.ok
  | .mclrSet g _ => g.ok
  | .cfence g m s => g.ok && m != 0 && wideScope s
  | .atomAdd g d _ _ s => g.ok && d.toNat != 0 && d.toNat != 63 && wideScope s
  | .atomMin g d _ _ s => g.ok && d.toNat != 0 && d.toNat != 63 && wideScope s
  | .atomMax g d _ _ s => g.ok && d.toNat != 0 && d.toNat != 63 && wideScope s
  | .atomMinz g d _ _ s => g.ok && d.toNat != 0 && d.toNat != 63 && wideScope s
  | .atomMaxz g d _ _ s => g.ok && d.toNat != 0 && d.toNat != 63 && wideScope s
  | .atomAnd g d _ _ s => g.ok && d.toNat != 0 && d.toNat != 63 && wideScope s
  | .atomOr g d _ _ s => g.ok && d.toNat != 0 && d.toNat != 63 && wideScope s
  | .atomXor g d _ _ s => g.ok && d.toNat != 0 && d.toNat != 63 && wideScope s
  | .atomXchg g d _ _ s => g.ok && d.toNat != 0 && d.toNat != 63 && wideScope s
  | .atomCas g d _ _ s => g.ok && d.toNat != 0 && d.toNat != 63 && wideScope s
  | .propose g d _ _ s => g.ok && onceReg d && wideScope s
  | .ocread g d _ _ s => g.ok && onceReg d && wideScope s
  | .ocrecycle g d _ _ s => g.ok && onceReg d && wideScope s
  | .bara g _ s => g.ok && barrierScope s
  | .barw g p _ s => g.ok && barrierScope s && predOk p && p != 0
  | .bar g p _ s => g.ok && barrierScope s && predOk p && p != 0
  | .popw g d _ => g.ok && d.toNat < 63
  | .popwB g d _ => g.ok && d.toNat < 63
  | .pushw g d _ => g.ok && d.toNat < 63
  | .pushwC g d _ => g.ok && d.toNat < 63
  | .qpush g _ _ _ => g.ok
  | .trigger g => g.ok
  | .wstat g d _ => g.ok && d != 0
  | .digq g _ _ _ => g.ok
  | .digb g _ _ k => g.ok && k.toNat < 24
  | .digrs g _ _ _ => g.ok
  | .kvapp g _ _ p => g.ok && predOk p
  | .nopV  => true
  | .vadd g _ _ _ _ => g.ok
  | .vaddS g _ _ _ _ => g.ok
  | .vsub g _ _ _ _ => g.ok
  | .vsubS g _ _ _ _ => g.ok
  | .vmul g _ _ _ _ => g.ok
  | .vmulS g _ _ _ _ => g.ok
  | .vfma g _ _ _ _ => g.ok
  | .vfms g _ _ _ _ => g.ok
  | .vmin g _ _ _ _ => g.ok
  | .vmax g _ _ _ _ => g.ok
  | .vabs g _ _ _ _ => g.ok
  | .vneg g _ _ _ _ => g.ok
  | .vrcp g _ _ _ => g.ok
  | .vrsq g _ _ _ => g.ok
  | .vexp2 g _ _ _ => g.ok
  | .vlog2 g _ _ _ => g.ok
  | .vand g _ _ _ _ => g.ok
  | .vor g _ _ _ _ => g.ok
  | .vxor g _ _ _ _ => g.ok
  | .vshl g _ _ _ _ => g.ok
  | .vshr g _ _ _ _ => g.ok
  | .vsar g _ _ _ _ => g.ok
  | .vcmp g c _ _ _ _ => g.ok && c != 7
  | .vsel g _ _ _ _ => g.ok
  | .vcvt g _ _ f _ => g.ok && f.toNat < 12 && f != 0
  | .vcvtBits g _ _ f => g.ok && f.toNat < 12
  | .vqntT8 g _ _ _ _ => g.ok
  | .vqntT6 g _ _ _ _ => g.ok
  | .vsclT8 g _ _ => g.ok
  | .vsclT6 g _ _ => g.ok
  | .vredadd g _ _ _ => g.ok
  | .vredaddS g _ _ _ => g.ok
  | .vredmax g _ _ _ => g.ok
  | .vredmin g _ _ _ => g.ok
  | .vscan g _ _ _ => g.ok
  | .vscanX g _ _ _ => g.ok
  | .vbcast g _ f _ _ => g.ok && f.toNat < 12
  | .vext g _ _ _ => g.ok
  | .vins g _ _ _ => g.ok
  | .vperm g _ _ _ _ => g.ok
  | .vslide g _ _ _ _ => g.ok
  | .vhash g _ _ _ _ => g.ok
  | .viota g _ f _ _ => g.ok && (f == 6 || f == 7 || f == 8 || f == 11)
  | .lmand g _ _ _ => g.ok
  | .lmandn g _ _ _ => g.ok
  | .lmor g _ _ _ => g.ok
  | .lmxor g _ _ _ => g.ok
  | .lmnot g _ _ => g.ok
  | .lmcnt g _ _ _ => g.ok
  | .lmff g _ _ _ => g.ok
  | .twr g _ _ _ => g.ok
  | .trdc g _ _ _ f => g.ok && f.toNat < 12
  | .trdr g _ _ _ f => g.ok && f.toNat < 12
  | .tzero g _ f => g.ok && f.toNat < 12
  | .vchk g _ _ _ => g.ok
  | .vchkLm g _ _ => g.ok
  | .vskb g _ _ _ => g.ok
  | .vld g _ _ f _ l => g.ok && f.toNat < 12 && l.toNat < 5
  | .vst g _ _ _ _ l => g.ok && l.toNat < 5
  | .vldg g _ _ f _ => g.ok && f.toNat < 12
  | .vstg g _ _ _ _ => g.ok
  | .vgath g _ _ _ _ => g.ok
  | .vgathG g _ _ _ _ => g.ok
  | .vscat g _ _ _ _ => g.ok
  | .vscatG g _ _ _ _ => g.ok
  | .vatom g _ _ _ _ => g.ok
  | .nopM  => true
  | .mma g _ _ a b => g.ok && mmaFormats a b
  | .mmaZ g _ _ a b => g.ok && mmaFormats a b
  | .mmas g _ k a b => g.ok && mmaFormats a b && a != 3 && mmasLength k
  | .mmasZ g _ k a b => g.ok && mmaFormats a b && a != 3 && mmasLength k
  | .mzero g _ _ => g.ok
  | .mpop g _ _ _ s w => g.ok && segOk w s
  | .mpush g _ _ _ _ => g.ok
  | .mret g _ => g.ok
  | .mfmt g _ _ => g.ok
  | .mflush g b a => g.ok && !(a == 0 && b == 0)
  | .mflushPc g _ _ _ => g.ok
  | .mstat g _ => g.ok
  | .mstatC g _ => g.ok
  | .nopC  => true
  | .dld g _ _ => g.ok
  | .dset g _ _ f => g.ok && f.toNat < 22
  | .dsetAdd g _ _ f => g.ok && f.toNat < 22 && f != 3
  | .msetw g _ _ => g.ok
  | .cpy g _ _ _ e f l => g.ok && (!(l == 1 && (e == 1 || f == 1)))
  | .cpym g _ _ _ _ => g.ok
  | .cpyq g d _ _ e f l => g.ok && (!(l == 1 && (e == 1 || f == 1)) && d.toNat % 2 == 0)
  | .cpyx g _ _ _ _ _ => g.ok
  | .gath g d _ _ w _ => g.ok && w != 7 && d.toNat % 2 == 0
  | .feed g _ _ _ _ c _ => g.ok && c.toNat < 5
  | .drain g _ _ _ _ c => g.ok && c.toNat < 4
  | .lsend g _ _ _ => g.ok
  | .lrecv g _ _ _ => g.ok
  | .lrxadd g _ _ _ f => g.ok && f.toNat < 4
  | .pickContext => true
  | .engineCommandStart => true
  | .engineCommandComplete => true
  | .deviceReplyArrival => true
  | .multicastArrival => true
  | .feedLineWrite => true
  | .matrixKStep => true
  | .accumulatorCommit => true
  | .mAccCommit => true
  | .mflushEffect => true
  | .checkpoint => true
  | .holdingEntryPerform => true
  | .rollbackEvent => true
  | .rollbackRestore => true
  | .translationWalk => true
  | .xresolve => true
  | .frcons => true
  | .xinv => true
  | .xinvComplete => true
  | .offer => true
  | .fitoffer => true
  | .returnHead => true
  | .skiphead => true
  | .ganggo => true
  | .memberCreation => true
  | .contextRestore => true
  | .killMember => true
  | .bindRecordWrite => true
  | .isflush => true
  | .kvreclaim => true
  | .kvtscfg => true
  | .kvtscfgComplete => true
  | .registerWrite => true
  | .headPresent => true
  | .headEligible => true
  | .absentHeadTimeout => true
  | .qpushHomeStep => true
  | .teamCompletion => true
  | .coreFree => true
  | .phaseOverrun => true
  | .yieldDeadline => true
  | .waitPreemption => true
  | .contextSave => true
  | .saveComplete => true
  | .kvappExecute => true
  | .atomHomeStep => true
  | .onceCellHomeStep => true
  | .workQueueHomeStep => true
  | .barrierPhaseComplete => true
  | .windowAccessArrival => true
  | .homeWriteStep => true
  | .linkPair => true
  | .linkPortDown => true
  | .flitRetransmit => true
  | .linkRetrain => true
  | .rdmaWrite => true
  | .rdmaRead => true
  | .rdmaFetchAdd => true
  | .regionActivate => true
  | .sieveBlockScan => true
  | .regionDestroy => true
  | .digestEntryEccError => true
  | .heartbeatSend => true
  | .heartbeatReceive => true
  | .periodEnd => true
  | .babbleClear => true
  | .accusationReceive => true
  | .accusationRenew => true
  | .accusationExpiry => true
  | .withdrawalReceive => true
  | .quorumCheck => true
  | .fenceNoticeReceive => true
  | .watchMapUpdate => true
  | .strikeLapse => true
  | .selfTestComplete => true
  | .admissionReceive => true
  | .readmissionNoticeReceive => true
  | .probationTimeout => true
  | .correctedError => true
  | .quiesceEnd => true
  | .thsConversion => true
  | .throttleStep => true
  | .powerPageUpdate => true
  | .packageReset => true
  | .attestationRequest => true
  | .postFatalDump => true
  | .linkPortUp => true
  | .uncorrectableError => true

end Sys2Proof
end

