-- ==== Sys2Proof/Decode.lean ====
section
/-!
DEFINITION. The decoder of the eight slot words of a bundle (R66 to R91), total on any bits and rejecting by name, and
after it the encoder.
-/
namespace Sys2Proof

/-- Why the bits of a slot word are no instruction. Each takes ILLEGAL_ENC (R91). -/
inductive DecodeError where
  /-- A slot-0 major code from 3 to 6 (R70). -/
  | reservedMajor
  /-- A B-CTL sub-operation from 14 to 63 (R86). -/
  | reservedSub
  /-- An opcode that the slot's map leaves reserved (R87 to R90). -/
  | reservedOpcode
  /-- A reserved field or modifier that is not zero (R77). -/
  | reservedField
  /-- A field value that the instruction's description does not define (R77), a guard index above 52 or a TREE test index above 47. -/
  | undefinedValue
  deriving DecidableEq, Repr

/-- The guard of slots 1 to 7 (R68). -/
def guardOf (w : BitVec 32) : Guard := ⟨w.extractLsb' 26 6, w.getLsbD 25⟩

/-- The guard of slot 0 (R70). -/
def guardB (w : BitVec 32) : Guard := ⟨w.extractLsb' 22 6, w.getLsbD 21⟩

/-- A slot-0 word (R70, R78, R86), before its field values are checked. -/
def parseB (w : BitVec 32) : Except DecodeError Instr :=
  match (w.extractLsb' 28 3).toNat with
  | 0 =>
    match (w.extractLsb' 15 6).toNat with
    | 0 => if w &&& 0x701FFFFF = 0x00000000 then .ok (.nopb (w.getLsbD 31) (guardB w)) else .error .reservedField
    | 1 => if w &&& 0x701F81FF = 0x00008000 then .ok (.callr (w.getLsbD 31) (guardB w) (w.extractLsb' 9 6)) else .error .reservedField
    | 2 => if w &&& 0x701F81FF = 0x00010000 then .ok (.ret (w.getLsbD 31) (guardB w) (w.extractLsb' 9 6)) else .error .reservedField
    | 3 => if w &&& 0x701F8000 = 0x00018000 then .ok (.relc (w.getLsbD 31) (guardB w) (w.extractLsb' 9 6) (w.extractLsb' 0 9)) else .error .reservedField
    | 4 => if w &&& 0x701F8000 = 0x00020000 then .ok (.fjoin (w.getLsbD 31) (guardB w) (w.extractLsb' 9 6) (w.extractLsb' 0 9)) else .error .reservedField
    | 5 => if w &&& 0x701FFFFF = 0x00028000 then .ok (.tend (w.getLsbD 31) (guardB w)) else .error .reservedField
    | 6 => if w &&& 0x701FFFFF = 0x00030000 then .ok (.endMember (w.getLsbD 31) (guardB w)) else .error .reservedField
    | 7 => if w &&& 0x701FE000 = 0x00038000 then .ok (.loop (w.getLsbD 31) (guardB w) (w.extractLsb' 9 4) (w.extractLsb' 0 9)) else .error .reservedField
    | 8 => if w &&& 0x701F8000 = 0x00040000 then .ok (.loopx (w.getLsbD 31) (guardB w) (w.extractLsb' 9 6) (w.extractLsb' 0 9)) else .error .reservedField
    | 9 => if w &&& 0x701F8000 = 0x00048000 then .ok (.bsel (w.getLsbD 31) (guardB w) (w.extractLsb' 9 6) (w.extractLsb' 0 9)) else .error .reservedField
    | 10 => if w &&& 0x701FFFFF = 0x00050000 then .ok (.chkpt (w.getLsbD 31) (guardB w)) else .error .reservedField
    | 11 => if w &&& 0x701FFE00 = 0x00058000 then .ok (.yield (w.getLsbD 31) (guardB w) (w.extractLsb' 0 9)) else .error .reservedField
    | 12 => if w &&& 0x701FFE00 = 0x00060000 then .ok (.trap (w.getLsbD 31) (guardB w) (w.extractLsb' 0 9)) else .error .reservedField
    | 13 => if w &&& 0x701FFE00 = 0x00068000 then .ok (.brk (w.getLsbD 31) (guardB w) (w.extractLsb' 0 9)) else .error .reservedField
    | _ => .error .reservedSub
  | 1 => .ok (.br (w.getLsbD 31) (guardB w) (w.extractLsb' 0 21))
  | 2 => .ok (.call (w.getLsbD 31) (guardB w) (w.extractLsb' 0 21))
  | 7 => .ok (.tree (w.getLsbD 31) (w.extractLsb' 21 7) (w.extractLsb' 14 7) (w.extractLsb' 7 7) (w.extractLsb' 0 7))
  | _ => .error .reservedMajor

/-- A slot-1 (S) word (R68, R77), before its field values are checked. -/
def parseS (w : BitVec 32) : Except DecodeError Instr :=
  match (w.extractLsb' 19 6).toNat with
  | 0 =>
    if w &&& 0x01FFFFFF = 0x00000000 then if (guardOf w).ok then .ok .nopS else .error .undefinedValue
    else .error .reservedField
  | 1 =>
    if w &&& 0x01F80001 = 0x00080000 then .ok (.add (guardOf w) (w.extractLsb' 13 6) (w.extractLsb' 7 6) (w.extractLsb' 1 6))
    else if w &&& 0x01F80001 = 0x00080001 then .ok (.sub (guardOf w) (w.extractLsb' 13 6) (w.extractLsb' 7 6) (w.extractLsb' 1 6))
    else .error .reservedField
  | 2 =>
    if w &&& 0x01F80001 = 0x00100000 then .ok (.mul (guardOf w) (w.extractLsb' 13 6) (w.extractLsb' 7 6) (w.extractLsb' 1 6))
    else .error .reservedField
  | 3 =>
    if w &&& 0x01F80001 = 0x00180000 then .ok (.mulh (guardOf w) (w.extractLsb' 13 6) (w.extractLsb' 7 6) (w.extractLsb' 1 6))
    else if w &&& 0x01F80001 = 0x00180001 then .ok (.mulhz (guardOf w) (w.extractLsb' 13 6) (w.extractLsb' 7 6) (w.extractLsb' 1 6))
    else .error .reservedField
  | 4 =>
    if w &&& 0x01F80001 = 0x00200000 then .ok (.div (guardOf w) (w.extractLsb' 13 6) (w.extractLsb' 7 6) (w.extractLsb' 1 6))
    else if w &&& 0x01F80001 = 0x00200001 then .ok (.divz (guardOf w) (w.extractLsb' 13 6) (w.extractLsb' 7 6) (w.extractLsb' 1 6))
    else .error .reservedField
  | 5 =>
    if w &&& 0x01F80001 = 0x00280000 then .ok (.rem (guardOf w) (w.extractLsb' 13 6) (w.extractLsb' 7 6) (w.extractLsb' 1 6))
    else if w &&& 0x01F80001 = 0x00280001 then .ok (.remz (guardOf w) (w.extractLsb' 13 6) (w.extractLsb' 7 6) (w.extractLsb' 1 6))
    else .error .reservedField
  | 6 =>
    if w &&& 0x01F80001 = 0x00300000 then .ok (.and (guardOf w) (w.extractLsb' 13 6) (w.extractLsb' 7 6) (w.extractLsb' 1 6))
    else if w &&& 0x01F80001 = 0x00300001 then .ok (.andn (guardOf w) (w.extractLsb' 13 6) (w.extractLsb' 7 6) (w.extractLsb' 1 6))
    else .error .reservedField
  | 7 =>
    if w &&& 0x01F80001 = 0x00380000 then .ok (.or (guardOf w) (w.extractLsb' 13 6) (w.extractLsb' 7 6) (w.extractLsb' 1 6))
    else .error .reservedField
  | 8 =>
    if w &&& 0x01F80001 = 0x00400000 then .ok (.xor (guardOf w) (w.extractLsb' 13 6) (w.extractLsb' 7 6) (w.extractLsb' 1 6))
    else .error .reservedField
  | 9 =>
    if w &&& 0x01F80001 = 0x00480000 then .ok (.shl (guardOf w) (w.extractLsb' 13 6) (w.extractLsb' 7 6) (w.extractLsb' 1 6))
    else if w &&& 0x01F80001 = 0x00480001 then .ok (.shli (guardOf w) (w.extractLsb' 13 6) (w.extractLsb' 7 6) (w.extractLsb' 1 6))
    else .error .reservedField
  | 10 =>
    if w &&& 0x01F80001 = 0x00500000 then .ok (.shr (guardOf w) (w.extractLsb' 13 6) (w.extractLsb' 7 6) (w.extractLsb' 1 6))
    else if w &&& 0x01F80001 = 0x00500001 then .ok (.shri (guardOf w) (w.extractLsb' 13 6) (w.extractLsb' 7 6) (w.extractLsb' 1 6))
    else .error .reservedField
  | 11 =>
    if w &&& 0x01F80001 = 0x00580000 then .ok (.sar (guardOf w) (w.extractLsb' 13 6) (w.extractLsb' 7 6) (w.extractLsb' 1 6))
    else if w &&& 0x01F80001 = 0x00580001 then .ok (.sari (guardOf w) (w.extractLsb' 13 6) (w.extractLsb' 7 6) (w.extractLsb' 1 6))
    else .error .reservedField
  | 12 =>
    if w &&& 0x01F80001 = 0x00600000 then .ok (.rotr (guardOf w) (w.extractLsb' 13 6) (w.extractLsb' 7 6) (w.extractLsb' 1 6))
    else if w &&& 0x01F80001 = 0x00600001 then .ok (.rotrImm (guardOf w) (w.extractLsb' 13 6) (w.extractLsb' 7 6) (w.extractLsb' 1 6))
    else .error .reservedField
  | 13 =>
    if w &&& 0x01F80001 = 0x00680000 then .ok (.min (guardOf w) (w.extractLsb' 13 6) (w.extractLsb' 7 6) (w.extractLsb' 1 6))
    else if w &&& 0x01F80001 = 0x00680001 then .ok (.minz (guardOf w) (w.extractLsb' 13 6) (w.extractLsb' 7 6) (w.extractLsb' 1 6))
    else .error .reservedField
  | 14 =>
    if w &&& 0x01F80001 = 0x00700000 then .ok (.max (guardOf w) (w.extractLsb' 13 6) (w.extractLsb' 7 6) (w.extractLsb' 1 6))
    else if w &&& 0x01F80001 = 0x00700001 then .ok (.maxz (guardOf w) (w.extractLsb' 13 6) (w.extractLsb' 7 6) (w.extractLsb' 1 6))
    else .error .reservedField
  | 15 =>
    if w &&& 0x01F8007F = 0x00780000 then .ok (.clz (guardOf w) (w.extractLsb' 13 6) (w.extractLsb' 7 6))
    else if w &&& 0x01F8007F = 0x00780001 then .ok (.ctz (guardOf w) (w.extractLsb' 13 6) (w.extractLsb' 7 6))
    else .error .reservedField
  | 16 =>
    if w &&& 0x01F8007F = 0x00800000 then .ok (.popc (guardOf w) (w.extractLsb' 13 6) (w.extractLsb' 7 6))
    else .error .reservedField
  | 17 =>
    if w &&& 0x01F80001 = 0x00880000 then .ok (.bfx (guardOf w) (w.extractLsb' 13 6) (w.extractLsb' 7 6) (w.extractLsb' 1 6))
    else if w &&& 0x01F80001 = 0x00880001 then .ok (.bfxz (guardOf w) (w.extractLsb' 13 6) (w.extractLsb' 7 6) (w.extractLsb' 1 6))
    else .error .reservedField
  | 18 =>
    if w &&& 0x01F80001 = 0x00900000 then .ok (.bfi (guardOf w) (w.extractLsb' 13 6) (w.extractLsb' 7 6) (w.extractLsb' 1 6))
    else .error .reservedField
  | 19 =>
    if w &&& 0x01F80001 = 0x00980000 then .ok (.sel (guardOf w) (w.extractLsb' 13 6) (w.extractLsb' 7 6) (w.extractLsb' 1 6))
    else .error .reservedField
  | 20 =>
    if w &&& 0x01F80000 = 0x00A00000 then .ok (.addi (guardOf w) (w.extractLsb' 13 6) (w.extractLsb' 7 6) (w.extractLsb' 0 7))
    else .error .reservedField
  | 21 =>
    if w &&& 0x01F80000 = 0x00A80000 then .ok (.andi (guardOf w) (w.extractLsb' 13 6) (w.extractLsb' 7 6) (w.extractLsb' 0 7))
    else .error .reservedField
  | 22 =>
    if w &&& 0x01F80000 = 0x00B00000 then .ok (.ori (guardOf w) (w.extractLsb' 13 6) (w.extractLsb' 7 6) (w.extractLsb' 0 7))
    else .error .reservedField
  | 23 =>
    if w &&& 0x01F80000 = 0x00B80000 then .ok (.xori (guardOf w) (w.extractLsb' 13 6) (w.extractLsb' 7 6) (w.extractLsb' 0 7))
    else .error .reservedField
  | 24 =>
    if w &&& 0x01F80000 = 0x00C00000 then .ok (.lea (guardOf w) (w.extractLsb' 13 6) (w.extractLsb' 7 6) (w.extractLsb' 0 7))
    else .error .reservedField
  | 25 =>
    if w &&& 0x01F80000 = 0x00C80000 then .ok (.movi (guardOf w) (w.extractLsb' 13 6) (w.extractLsb' 0 13))
    else .error .reservedField
  | 26 =>
    if w &&& 0x01F80000 = 0x00D00000 then .ok (.movhi (guardOf w) (w.extractLsb' 13 6) (w.extractLsb' 0 13))
    else .error .reservedField
  | 27 =>
    if w &&& 0x01F80001 = 0x00D80000 then .ok (.cmpEq (guardOf w) (w.extractLsb' 14 5) (w.extractLsb' 13 1) (w.extractLsb' 7 6) (w.extractLsb' 1 6))
    else if w &&& 0x01F80001 = 0x00D80001 then .ok (.cmpiEq (guardOf w) (w.extractLsb' 14 5) (w.extractLsb' 13 1) (w.extractLsb' 7 6) (w.extractLsb' 1 6))
    else .error .reservedField
  | 28 =>
    if w &&& 0x01F80001 = 0x00E00000 then .ok (.cmpNe (guardOf w) (w.extractLsb' 14 5) (w.extractLsb' 13 1) (w.extractLsb' 7 6) (w.extractLsb' 1 6))
    else if w &&& 0x01F80001 = 0x00E00001 then .ok (.cmpiNe (guardOf w) (w.extractLsb' 14 5) (w.extractLsb' 13 1) (w.extractLsb' 7 6) (w.extractLsb' 1 6))
    else .error .reservedField
  | 29 =>
    if w &&& 0x01F80001 = 0x00E80000 then .ok (.cmpLt (guardOf w) (w.extractLsb' 14 5) (w.extractLsb' 13 1) (w.extractLsb' 7 6) (w.extractLsb' 1 6))
    else if w &&& 0x01F80001 = 0x00E80001 then .ok (.cmpiLt (guardOf w) (w.extractLsb' 14 5) (w.extractLsb' 13 1) (w.extractLsb' 7 6) (w.extractLsb' 1 6))
    else .error .reservedField
  | 30 =>
    if w &&& 0x01F80001 = 0x00F00000 then .ok (.cmpLe (guardOf w) (w.extractLsb' 14 5) (w.extractLsb' 13 1) (w.extractLsb' 7 6) (w.extractLsb' 1 6))
    else if w &&& 0x01F80001 = 0x00F00001 then .ok (.cmpiLe (guardOf w) (w.extractLsb' 14 5) (w.extractLsb' 13 1) (w.extractLsb' 7 6) (w.extractLsb' 1 6))
    else .error .reservedField
  | 31 =>
    if w &&& 0x01F80001 = 0x00F80000 then .ok (.cmpGt (guardOf w) (w.extractLsb' 14 5) (w.extractLsb' 13 1) (w.extractLsb' 7 6) (w.extractLsb' 1 6))
    else if w &&& 0x01F80001 = 0x00F80001 then .ok (.cmpiGt (guardOf w) (w.extractLsb' 14 5) (w.extractLsb' 13 1) (w.extractLsb' 7 6) (w.extractLsb' 1 6))
    else .error .reservedField
  | 32 =>
    if w &&& 0x01F80001 = 0x01000000 then .ok (.cmpGe (guardOf w) (w.extractLsb' 14 5) (w.extractLsb' 13 1) (w.extractLsb' 7 6) (w.extractLsb' 1 6))
    else if w &&& 0x01F80001 = 0x01000001 then .ok (.cmpiGe (guardOf w) (w.extractLsb' 14 5) (w.extractLsb' 13 1) (w.extractLsb' 7 6) (w.extractLsb' 1 6))
    else .error .reservedField
  | 33 =>
    if w &&& 0x01F80001 = 0x01080000 then .ok (.cmpLo (guardOf w) (w.extractLsb' 14 5) (w.extractLsb' 13 1) (w.extractLsb' 7 6) (w.extractLsb' 1 6))
    else if w &&& 0x01F80001 = 0x01080001 then .ok (.cmpiLo (guardOf w) (w.extractLsb' 14 5) (w.extractLsb' 13 1) (w.extractLsb' 7 6) (w.extractLsb' 1 6))
    else .error .reservedField
  | 34 =>
    if w &&& 0x01F80001 = 0x01100000 then .ok (.cmpLs (guardOf w) (w.extractLsb' 14 5) (w.extractLsb' 13 1) (w.extractLsb' 7 6) (w.extractLsb' 1 6))
    else if w &&& 0x01F80001 = 0x01100001 then .ok (.cmpiLs (guardOf w) (w.extractLsb' 14 5) (w.extractLsb' 13 1) (w.extractLsb' 7 6) (w.extractLsb' 1 6))
    else .error .reservedField
  | 35 =>
    if w &&& 0x01F80001 = 0x01180000 then .ok (.cmpHi (guardOf w) (w.extractLsb' 14 5) (w.extractLsb' 13 1) (w.extractLsb' 7 6) (w.extractLsb' 1 6))
    else if w &&& 0x01F80001 = 0x01180001 then .ok (.cmpiHi (guardOf w) (w.extractLsb' 14 5) (w.extractLsb' 13 1) (w.extractLsb' 7 6) (w.extractLsb' 1 6))
    else .error .reservedField
  | 36 =>
    if w &&& 0x01F80001 = 0x01200000 then .ok (.cmpHs (guardOf w) (w.extractLsb' 14 5) (w.extractLsb' 13 1) (w.extractLsb' 7 6) (w.extractLsb' 1 6))
    else if w &&& 0x01F80001 = 0x01200001 then .ok (.cmpiHs (guardOf w) (w.extractLsb' 14 5) (w.extractLsb' 13 1) (w.extractLsb' 7 6) (w.extractLsb' 1 6))
    else .error .reservedField
  | 37 =>
    if w &&& 0x01F80001 = 0x01280000 then .ok (.pand (guardOf w) (w.extractLsb' 13 6) (w.extractLsb' 7 6) (w.extractLsb' 1 6))
    else if w &&& 0x01F80001 = 0x01280001 then .ok (.pandn (guardOf w) (w.extractLsb' 13 6) (w.extractLsb' 7 6) (w.extractLsb' 1 6))
    else .error .reservedField
  | 38 =>
    if w &&& 0x01F80001 = 0x01300000 then .ok (.por (guardOf w) (w.extractLsb' 13 6) (w.extractLsb' 7 6) (w.extractLsb' 1 6))
    else .error .reservedField
  | 39 =>
    if w &&& 0x01F80001 = 0x01380000 then .ok (.pxor (guardOf w) (w.extractLsb' 13 6) (w.extractLsb' 7 6) (w.extractLsb' 1 6))
    else .error .reservedField
  | 40 =>
    if w &&& 0x01F80000 = 0x01400000 then .ok (.setb (guardOf w) (w.extractLsb' 13 6) (w.extractLsb' 0 13))
    else .error .reservedField
  | 41 =>
    if w &&& 0x1FF80000 = 0x01480000 then .ok (.ximm (w.extractLsb' 29 3) (w.extractLsb' 0 19))
    else .error .reservedField
  | 42 =>
    if w &&& 0x01FFFF00 = 0x01500000 then .ok (.setefImm (guardOf w) (w.extractLsb' 0 8))
    else if w &&& 0x01F81FFF = 0x01500000 then .ok (.setefReg (guardOf w) (w.extractLsb' 13 6))
    else .error .reservedField
  | 43 =>
    if w &&& 0x01F81F00 = 0x01580000 then .ok (.mfs (guardOf w) (w.extractLsb' 13 6) (w.extractLsb' 0 8))
    else if w &&& 0x01F81F00 = 0x01581000 then .ok (.mts (guardOf w) (w.extractLsb' 13 6) (w.extractLsb' 0 8))
    else .error .reservedField
  | 44 =>
    if w &&& 0x01FFE001 = 0x01600000 then .ok (.schk (guardOf w) (w.extractLsb' 7 6) (w.extractLsb' 1 6))
    else if w &&& 0x01FFE001 = 0x01600001 then .ok (.schkPred (guardOf w) (w.extractLsb' 7 6) (w.extractLsb' 1 6))
    else .error .reservedField
  | 45 =>
    if w &&& 0x01F80038 = 0x01680000 then .ok (.lds (guardOf w) (w.extractLsb' 13 6) (w.extractLsb' 7 6) (w.extractLsb' 6 1) (w.extractLsb' 1 2) (w.extractLsb' 0 1))
    else .error .reservedField
  | 46 =>
    if w &&& 0x01F80039 = 0x01700000 then .ok (.sts (guardOf w) (w.extractLsb' 13 6) (w.extractLsb' 7 6) (w.extractLsb' 6 1) (w.extractLsb' 1 2))
    else .error .reservedField
  | 47 =>
    if w &&& 0x01F80000 = 0x01780000 then .ok (.ldg (guardOf w) (w.extractLsb' 13 6) (w.extractLsb' 7 6) (w.extractLsb' 3 4) (w.extractLsb' 1 2) (w.extractLsb' 0 1))
    else .error .reservedField
  | 48 =>
    if w &&& 0x01F80001 = 0x01800000 then .ok (.stg (guardOf w) (w.extractLsb' 13 6) (w.extractLsb' 7 6) (w.extractLsb' 3 4) (w.extractLsb' 1 2))
    else .error .reservedField
  | 49 =>
    if w &&& 0x01F80001 = 0x01880000 then .ok (.faddH (guardOf w) (w.extractLsb' 13 6) (w.extractLsb' 7 6) (w.extractLsb' 1 6))
    else if w &&& 0x01F80001 = 0x01880001 then .ok (.fsubH (guardOf w) (w.extractLsb' 13 6) (w.extractLsb' 7 6) (w.extractLsb' 1 6))
    else .error .reservedField
  | 50 =>
    if w &&& 0x01F80001 = 0x01900000 then .ok (.faddF (guardOf w) (w.extractLsb' 13 6) (w.extractLsb' 7 6) (w.extractLsb' 1 6))
    else if w &&& 0x01F80001 = 0x01900001 then .ok (.fsubF (guardOf w) (w.extractLsb' 13 6) (w.extractLsb' 7 6) (w.extractLsb' 1 6))
    else .error .reservedField
  | 51 =>
    if w &&& 0x01F80001 = 0x01980000 then .ok (.faddD (guardOf w) (w.extractLsb' 13 6) (w.extractLsb' 7 6) (w.extractLsb' 1 6))
    else if w &&& 0x01F80001 = 0x01980001 then .ok (.fsubD (guardOf w) (w.extractLsb' 13 6) (w.extractLsb' 7 6) (w.extractLsb' 1 6))
    else .error .reservedField
  | 52 =>
    if w &&& 0x01F80001 = 0x01A00000 then .ok (.fmulH (guardOf w) (w.extractLsb' 13 6) (w.extractLsb' 7 6) (w.extractLsb' 1 6))
    else if w &&& 0x01F80001 = 0x01A00001 then .ok (.ffmaH (guardOf w) (w.extractLsb' 13 6) (w.extractLsb' 7 6) (w.extractLsb' 1 6))
    else .error .reservedField
  | 53 =>
    if w &&& 0x01F80001 = 0x01A80000 then .ok (.fmulF (guardOf w) (w.extractLsb' 13 6) (w.extractLsb' 7 6) (w.extractLsb' 1 6))
    else if w &&& 0x01F80001 = 0x01A80001 then .ok (.ffmaF (guardOf w) (w.extractLsb' 13 6) (w.extractLsb' 7 6) (w.extractLsb' 1 6))
    else .error .reservedField
  | 54 =>
    if w &&& 0x01F80001 = 0x01B00000 then .ok (.fmulD (guardOf w) (w.extractLsb' 13 6) (w.extractLsb' 7 6) (w.extractLsb' 1 6))
    else if w &&& 0x01F80001 = 0x01B00001 then .ok (.ffmaD (guardOf w) (w.extractLsb' 13 6) (w.extractLsb' 7 6) (w.extractLsb' 1 6))
    else .error .reservedField
  | 55 =>
    if w &&& 0x01F80001 = 0x01B80000 then .ok (.fminH (guardOf w) (w.extractLsb' 13 6) (w.extractLsb' 7 6) (w.extractLsb' 1 6))
    else if w &&& 0x01F80001 = 0x01B80001 then .ok (.fmaxH (guardOf w) (w.extractLsb' 13 6) (w.extractLsb' 7 6) (w.extractLsb' 1 6))
    else .error .reservedField
  | 56 =>
    if w &&& 0x01F80001 = 0x01C00000 then .ok (.fminF (guardOf w) (w.extractLsb' 13 6) (w.extractLsb' 7 6) (w.extractLsb' 1 6))
    else if w &&& 0x01F80001 = 0x01C00001 then .ok (.fmaxF (guardOf w) (w.extractLsb' 13 6) (w.extractLsb' 7 6) (w.extractLsb' 1 6))
    else .error .reservedField
  | 57 =>
    if w &&& 0x01F80001 = 0x01C80000 then .ok (.fminD (guardOf w) (w.extractLsb' 13 6) (w.extractLsb' 7 6) (w.extractLsb' 1 6))
    else if w &&& 0x01F80001 = 0x01C80001 then .ok (.fmaxD (guardOf w) (w.extractLsb' 13 6) (w.extractLsb' 7 6) (w.extractLsb' 1 6))
    else .error .reservedField
  | 58 =>
    if w &&& 0x01F81000 = 0x01D00000 then .ok (.fcmpH (guardOf w) (w.extractLsb' 14 5) (w.extractLsb' 13 1) (w.extractLsb' 10 2) (w.extractLsb' 5 5) (w.extractLsb' 0 5))
    else if w &&& 0x01F81000 = 0x01D01000 then .ok (.fcmpF (guardOf w) (w.extractLsb' 14 5) (w.extractLsb' 13 1) (w.extractLsb' 10 2) (w.extractLsb' 5 5) (w.extractLsb' 0 5))
    else .error .reservedField
  | 59 =>
    if w &&& 0x01F81000 = 0x01D80000 then .ok (.fcmpD (guardOf w) (w.extractLsb' 14 5) (w.extractLsb' 13 1) (w.extractLsb' 10 2) (w.extractLsb' 5 5) (w.extractLsb' 0 5))
    else .error .reservedField
  | 60 =>
    if w &&& 0x01F80001 = 0x01E00000 then .ok (.fcvt (guardOf w) (w.extractLsb' 13 6) (w.extractLsb' 7 6) (w.extractLsb' 4 3) (w.extractLsb' 1 3))
    else .error .reservedField
  | _ => .error .reservedOpcode

/-- A slot-2 (D) word (R68, R77), before its field values are checked. -/
def parseD (w : BitVec 32) : Except DecodeError Instr :=
  match (w.extractLsb' 19 6).toNat with
  | 0 =>
    if w &&& 0x01FFFFFF = 0x00000000 then if (guardOf w).ok then .ok .nopD else .error .undefinedValue
    else .error .reservedField
  | 1 =>
    if w &&& 0x01FC0007 = 0x00080000 then .ok (.waitdc (guardOf w) (w.extractLsb' 15 3) (w.extractLsb' 3 12))
    else .error .reservedField
  | 2 =>
    if w &&& 0x01FFFE07 = 0x00100000 then .ok (.waitm (guardOf w) (w.extractLsb' 3 6))
    else .error .reservedField
  | 3 =>
    if w &&& 0x01FFFF87 = 0x00180000 then .ok (.waitany (guardOf w) (w.extractLsb' 3 4))
    else .error .reservedField
  | 4 =>
    if w &&& 0x01F81F87 = 0x00200000 then .ok (.ffrm (guardOf w) (w.extractLsb' 13 6) (w.extractLsb' 3 4))
    else .error .reservedField
  | 5 =>
    if w &&& 0x01FFFE07 = 0x00280000 then .ok (.mclr (guardOf w) (w.extractLsb' 3 6))
    else if w &&& 0x01FFFF87 = 0x002C0000 then .ok (.mclrSet (guardOf w) (w.extractLsb' 3 4))
    else .error .reservedField
  | 6 =>
    if w &&& 0x01F80000 = 0x00300000 then .ok (.cfence (guardOf w) (w.extractLsb' 3 16) (w.extractLsb' 0 3))
    else .error .reservedField
  | 7 =>
    if w &&& 0x01F80000 = 0x00380000 then .ok (.atomAdd (guardOf w) (w.extractLsb' 13 6) (w.extractLsb' 7 6) (w.extractLsb' 3 4) (w.extractLsb' 0 3))
    else .error .reservedField
  | 8 =>
    if w &&& 0x01F80000 = 0x00400000 then .ok (.atomMin (guardOf w) (w.extractLsb' 13 6) (w.extractLsb' 7 6) (w.extractLsb' 3 4) (w.extractLsb' 0 3))
    else .error .reservedField
  | 9 =>
    if w &&& 0x01F80000 = 0x00480000 then .ok (.atomMax (guardOf w) (w.extractLsb' 13 6) (w.extractLsb' 7 6) (w.extractLsb' 3 4) (w.extractLsb' 0 3))
    else .error .reservedField
  | 10 =>
    if w &&& 0x01F80000 = 0x00500000 then .ok (.atomMinz (guardOf w) (w.extractLsb' 13 6) (w.extractLsb' 7 6) (w.extractLsb' 3 4) (w.extractLsb' 0 3))
    else .error .reservedField
  | 11 =>
    if w &&& 0x01F80000 = 0x00580000 then .ok (.atomMaxz (guardOf w) (w.extractLsb' 13 6) (w.extractLsb' 7 6) (w.extractLsb' 3 4) (w.extractLsb' 0 3))
    else .error .reservedField
  | 12 =>
    if w &&& 0x01F80000 = 0x00600000 then .ok (.atomAnd (guardOf w) (w.extractLsb' 13 6) (w.extractLsb' 7 6) (w.extractLsb' 3 4) (w.extractLsb' 0 3))
    else .error .reservedField
  | 13 =>
    if w &&& 0x01F80000 = 0x00680000 then .ok (.atomOr (guardOf w) (w.extractLsb' 13 6) (w.extractLsb' 7 6) (w.extractLsb' 3 4) (w.extractLsb' 0 3))
    else .error .reservedField
  | 14 =>
    if w &&& 0x01F80000 = 0x00700000 then .ok (.atomXor (guardOf w) (w.extractLsb' 13 6) (w.extractLsb' 7 6) (w.extractLsb' 3 4) (w.extractLsb' 0 3))
    else .error .reservedField
  | 15 =>
    if w &&& 0x01F80000 = 0x00780000 then .ok (.atomXchg (guardOf w) (w.extractLsb' 13 6) (w.extractLsb' 7 6) (w.extractLsb' 3 4) (w.extractLsb' 0 3))
    else .error .reservedField
  | 16 =>
    if w &&& 0x01F80000 = 0x00800000 then .ok (.atomCas (guardOf w) (w.extractLsb' 13 6) (w.extractLsb' 7 6) (w.extractLsb' 3 4) (w.extractLsb' 0 3))
    else .error .reservedField
  | 17 =>
    if w &&& 0x01F80000 = 0x00880000 then .ok (.propose (guardOf w) (w.extractLsb' 13 6) (w.extractLsb' 7 6) (w.extractLsb' 3 4) (w.extractLsb' 0 3))
    else .error .reservedField
  | 18 =>
    if w &&& 0x01F80000 = 0x00900000 then .ok (.ocread (guardOf w) (w.extractLsb' 13 6) (w.extractLsb' 7 6) (w.extractLsb' 3 4) (w.extractLsb' 0 3))
    else .error .reservedField
  | 19 =>
    if w &&& 0x01F80000 = 0x00980000 then .ok (.ocrecycle (guardOf w) (w.extractLsb' 13 6) (w.extractLsb' 7 6) (w.extractLsb' 3 4) (w.extractLsb' 0 3))
    else .error .reservedField
  | 20 =>
    if w &&& 0x01FFFF80 = 0x00A00000 then .ok (.bara (guardOf w) (w.extractLsb' 3 4) (w.extractLsb' 0 3))
    else .error .reservedField
  | 21 =>
    if w &&& 0x01FFE000 = 0x00A80000 then .ok (.barw (guardOf w) (w.extractLsb' 7 6) (w.extractLsb' 3 4) (w.extractLsb' 0 3))
    else .error .reservedField
  | 22 =>
    if w &&& 0x01FFE000 = 0x00B00000 then .ok (.bar (guardOf w) (w.extractLsb' 7 6) (w.extractLsb' 3 4) (w.extractLsb' 0 3))
    else .error .reservedField
  | 23 =>
    if w &&& 0x01F8007F = 0x00B80000 then .ok (.popw (guardOf w) (w.extractLsb' 13 6) (w.extractLsb' 7 6))
    else if w &&& 0x01F8007F = 0x00B80001 then .ok (.popwB (guardOf w) (w.extractLsb' 13 6) (w.extractLsb' 7 6))
    else .error .reservedField
  | 24 =>
    if w &&& 0x01F8007F = 0x00C00000 then .ok (.pushw (guardOf w) (w.extractLsb' 13 6) (w.extractLsb' 7 6))
    else if w &&& 0x01F8007F = 0x00C00001 then .ok (.pushwC (guardOf w) (w.extractLsb' 13 6) (w.extractLsb' 7 6))
    else .error .reservedField
  | 25 =>
    if w &&& 0x01F80040 = 0x00C80000 then .ok (.qpush (guardOf w) (w.extractLsb' 13 6) (w.extractLsb' 7 6) (w.extractLsb' 0 6))
    else .error .reservedField
  | 26 =>
    if w &&& 0x01FFFFFF = 0x00D00000 then .ok (.trigger (guardOf w))
    else .error .reservedField
  | 27 =>
    if w &&& 0x01F8007F = 0x00D80000 then .ok (.wstat (guardOf w) (w.extractLsb' 13 6) (w.extractLsb' 7 6))
    else .error .reservedField
  | 28 =>
    if w &&& 0x01F80040 = 0x00E00000 then .ok (.digq (guardOf w) (w.extractLsb' 13 6) (w.extractLsb' 7 6) (w.extractLsb' 0 6))
    else .error .reservedField
  | 29 =>
    if w &&& 0x01F80060 = 0x00E80000 then .ok (.digb (guardOf w) (w.extractLsb' 13 6) (w.extractLsb' 7 6) (w.extractLsb' 0 5))
    else .error .reservedField
  | 30 =>
    if w &&& 0x01F80040 = 0x00F00000 then .ok (.digrs (guardOf w) (w.extractLsb' 13 6) (w.extractLsb' 7 6) (w.extractLsb' 0 6))
    else .error .reservedField
  | 31 =>
    if w &&& 0x01F80040 = 0x00F80000 then .ok (.kvapp (guardOf w) (w.extractLsb' 13 6) (w.extractLsb' 7 6) (w.extractLsb' 0 6))
    else .error .reservedField
  | _ => .error .reservedOpcode

/-- A slot-3 or slot-4 (V) word (R68, R77), before its field values are checked. -/
def parseV (w : BitVec 32) : Except DecodeError Instr :=
  match (w.extractLsb' 19 6).toNat with
  | 0 =>
    if w &&& 0x01FFFFFF = 0x00000000 then if (guardOf w).ok then .ok .nopV else .error .undefinedValue
    else .error .reservedField
  | 1 =>
    if w &&& 0x01F80001 = 0x00080000 then .ok (.vadd (guardOf w) (w.extractLsb' 14 5) (w.extractLsb' 9 5) (w.extractLsb' 4 5) (w.extractLsb' 1 3))
    else if w &&& 0x01F80001 = 0x00080001 then .ok (.vaddS (guardOf w) (w.extractLsb' 14 5) (w.extractLsb' 9 5) (w.extractLsb' 4 5) (w.extractLsb' 1 3))
    else .error .reservedField
  | 2 =>
    if w &&& 0x01F80001 = 0x00100000 then .ok (.vsub (guardOf w) (w.extractLsb' 14 5) (w.extractLsb' 9 5) (w.extractLsb' 4 5) (w.extractLsb' 1 3))
    else if w &&& 0x01F80001 = 0x00100001 then .ok (.vsubS (guardOf w) (w.extractLsb' 14 5) (w.extractLsb' 9 5) (w.extractLsb' 4 5) (w.extractLsb' 1 3))
    else .error .reservedField
  | 3 =>
    if w &&& 0x01F80001 = 0x00180000 then .ok (.vmul (guardOf w) (w.extractLsb' 14 5) (w.extractLsb' 9 5) (w.extractLsb' 4 5) (w.extractLsb' 1 3))
    else if w &&& 0x01F80001 = 0x00180001 then .ok (.vmulS (guardOf w) (w.extractLsb' 14 5) (w.extractLsb' 9 5) (w.extractLsb' 4 5) (w.extractLsb' 1 3))
    else .error .reservedField
  | 4 =>
    if w &&& 0x01F80001 = 0x00200000 then .ok (.vfma (guardOf w) (w.extractLsb' 14 5) (w.extractLsb' 9 5) (w.extractLsb' 4 5) (w.extractLsb' 1 3))
    else .error .reservedField
  | 5 =>
    if w &&& 0x01F80001 = 0x00280000 then .ok (.vfms (guardOf w) (w.extractLsb' 14 5) (w.extractLsb' 9 5) (w.extractLsb' 4 5) (w.extractLsb' 1 3))
    else .error .reservedField
  | 6 =>
    if w &&& 0x01F80001 = 0x00300000 then .ok (.vmin (guardOf w) (w.extractLsb' 14 5) (w.extractLsb' 9 5) (w.extractLsb' 4 5) (w.extractLsb' 1 3))
    else .error .reservedField
  | 7 =>
    if w &&& 0x01F80001 = 0x00380000 then .ok (.vmax (guardOf w) (w.extractLsb' 14 5) (w.extractLsb' 9 5) (w.extractLsb' 4 5) (w.extractLsb' 1 3))
    else .error .reservedField
  | 8 =>
    if w &&& 0x01F801F0 = 0x00400000 then .ok (.vabs (guardOf w) (w.extractLsb' 14 5) (w.extractLsb' 9 5) (w.extractLsb' 1 3) (w.extractLsb' 0 1))
    else .error .reservedField
  | 9 =>
    if w &&& 0x01F801F0 = 0x00480000 then .ok (.vneg (guardOf w) (w.extractLsb' 14 5) (w.extractLsb' 9 5) (w.extractLsb' 1 3) (w.extractLsb' 0 1))
    else .error .reservedField
  | 10 =>
    if w &&& 0x01F801F1 = 0x00500000 then .ok (.vrcp (guardOf w) (w.extractLsb' 14 5) (w.extractLsb' 9 5) (w.extractLsb' 1 3))
    else .error .reservedField
  | 11 =>
    if w &&& 0x01F801F1 = 0x00580000 then .ok (.vrsq (guardOf w) (w.extractLsb' 14 5) (w.extractLsb' 9 5) (w.extractLsb' 1 3))
    else .error .reservedField
  | 12 =>
    if w &&& 0x01F801F1 = 0x00600000 then .ok (.vexp2 (guardOf w) (w.extractLsb' 14 5) (w.extractLsb' 9 5) (w.extractLsb' 1 3))
    else .error .reservedField
  | 13 =>
    if w &&& 0x01F801F1 = 0x00680000 then .ok (.vlog2 (guardOf w) (w.extractLsb' 14 5) (w.extractLsb' 9 5) (w.extractLsb' 1 3))
    else .error .reservedField
  | 14 =>
    if w &&& 0x01F80001 = 0x00700000 then .ok (.vand (guardOf w) (w.extractLsb' 14 5) (w.extractLsb' 9 5) (w.extractLsb' 4 5) (w.extractLsb' 1 3))
    else .error .reservedField
  | 15 =>
    if w &&& 0x01F80001 = 0x00780000 then .ok (.vor (guardOf w) (w.extractLsb' 14 5) (w.extractLsb' 9 5) (w.extractLsb' 4 5) (w.extractLsb' 1 3))
    else .error .reservedField
  | 16 =>
    if w &&& 0x01F80001 = 0x00800000 then .ok (.vxor (guardOf w) (w.extractLsb' 14 5) (w.extractLsb' 9 5) (w.extractLsb' 4 5) (w.extractLsb' 1 3))
    else .error .reservedField
  | 17 =>
    if w &&& 0x01F80001 = 0x00880000 then .ok (.vshl (guardOf w) (w.extractLsb' 14 5) (w.extractLsb' 9 5) (w.extractLsb' 4 5) (w.extractLsb' 1 3))
    else .error .reservedField
  | 18 =>
    if w &&& 0x01F80001 = 0x00900000 then .ok (.vshr (guardOf w) (w.extractLsb' 14 5) (w.extractLsb' 9 5) (w.extractLsb' 4 5) (w.extractLsb' 1 3))
    else .error .reservedField
  | 19 =>
    if w &&& 0x01F80001 = 0x00980000 then .ok (.vsar (guardOf w) (w.extractLsb' 14 5) (w.extractLsb' 9 5) (w.extractLsb' 4 5) (w.extractLsb' 1 3))
    else .error .reservedField
  | 20 =>
    if w &&& 0x01F80000 = 0x00A00000 then .ok (.vcmp (guardOf w) (w.extractLsb' 17 2 ++ w.extractLsb' 0 1) (w.extractLsb' 14 3) (w.extractLsb' 9 5) (w.extractLsb' 4 5) (w.extractLsb' 1 3))
    else .error .reservedField
  | 21 =>
    if w &&& 0x01F80001 = 0x00A80000 then .ok (.vsel (guardOf w) (w.extractLsb' 14 5) (w.extractLsb' 9 5) (w.extractLsb' 4 5) (w.extractLsb' 1 3))
    else .error .reservedField
  | 22 =>
    if w &&& 0x01F80101 = 0x00B00000 then .ok (.vcvt (guardOf w) (w.extractLsb' 14 5) (w.extractLsb' 9 5) (w.extractLsb' 4 4) (w.extractLsb' 1 3))
    else if w &&& 0x01F8010F = 0x00B00001 then .ok (.vcvtBits (guardOf w) (w.extractLsb' 14 5) (w.extractLsb' 9 5) (w.extractLsb' 4 4))
    else .error .reservedField
  | 23 =>
    if w &&& 0x01F80001 = 0x00B80000 then .ok (.vqntT8 (guardOf w) (w.extractLsb' 14 5) (w.extractLsb' 9 5) (w.extractLsb' 4 5) (w.extractLsb' 1 3))
    else if w &&& 0x01F80001 = 0x00B80001 then .ok (.vqntT6 (guardOf w) (w.extractLsb' 14 5) (w.extractLsb' 9 5) (w.extractLsb' 4 5) (w.extractLsb' 1 3))
    else .error .reservedField
  | 24 =>
    if w &&& 0x01F801FF = 0x00C00000 then .ok (.vsclT8 (guardOf w) (w.extractLsb' 14 5) (w.extractLsb' 9 5))
    else if w &&& 0x01F801FF = 0x00C00001 then .ok (.vsclT6 (guardOf w) (w.extractLsb' 14 5) (w.extractLsb' 9 5))
    else .error .reservedField
  | 25 =>
    if w &&& 0x01F801F1 = 0x00C80000 then .ok (.vredadd (guardOf w) (w.extractLsb' 14 5) (w.extractLsb' 9 5) (w.extractLsb' 1 3))
    else if w &&& 0x01F801F1 = 0x00C80001 then .ok (.vredaddS (guardOf w) (w.extractLsb' 14 5) (w.extractLsb' 9 5) (w.extractLsb' 1 3))
    else .error .reservedField
  | 26 =>
    if w &&& 0x01F801F1 = 0x00D00000 then .ok (.vredmax (guardOf w) (w.extractLsb' 14 5) (w.extractLsb' 9 5) (w.extractLsb' 1 3))
    else .error .reservedField
  | 27 =>
    if w &&& 0x01F801F1 = 0x00D80000 then .ok (.vredmin (guardOf w) (w.extractLsb' 14 5) (w.extractLsb' 9 5) (w.extractLsb' 1 3))
    else .error .reservedField
  | 28 =>
    if w &&& 0x01F801F1 = 0x00E00000 then .ok (.vscan (guardOf w) (w.extractLsb' 14 5) (w.extractLsb' 9 5) (w.extractLsb' 1 3))
    else if w &&& 0x01F801F1 = 0x00E00001 then .ok (.vscanX (guardOf w) (w.extractLsb' 14 5) (w.extractLsb' 9 5) (w.extractLsb' 1 3))
    else .error .reservedField
  | 29 =>
    if w &&& 0x01F80000 = 0x00E80000 then .ok (.vbcast (guardOf w) (w.extractLsb' 14 5) (w.extractLsb' 9 5) (w.extractLsb' 3 6) (w.extractLsb' 0 3))
    else .error .reservedField
  | 30 =>
    if w &&& 0x01F80000 = 0x00F00000 then .ok (.vext (guardOf w) (w.extractLsb' 14 5 ++ w.extractLsb' 0 3) (w.extractLsb' 9 5) (w.extractLsb' 3 6))
    else .error .reservedField
  | 31 =>
    if w &&& 0x01F80000 = 0x00F80000 then .ok (.vins (guardOf w) (w.extractLsb' 14 5) (w.extractLsb' 9 5 ++ w.extractLsb' 0 3) (w.extractLsb' 3 6))
    else .error .reservedField
  | 32 =>
    if w &&& 0x01F80001 = 0x01000000 then .ok (.vperm (guardOf w) (w.extractLsb' 14 5) (w.extractLsb' 9 5) (w.extractLsb' 4 5) (w.extractLsb' 1 3))
    else .error .reservedField
  | 33 =>
    if w &&& 0x01F80000 = 0x01080000 then .ok (.vslide (guardOf w) (w.extractLsb' 14 5) (w.extractLsb' 9 5) (w.extractLsb' 3 6) (w.extractLsb' 0 3))
    else .error .reservedField
  | 34 =>
    if w &&& 0x01F80001 = 0x01100000 then .ok (.vhash (guardOf w) (w.extractLsb' 14 5) (w.extractLsb' 9 5) (w.extractLsb' 4 5) (w.extractLsb' 1 3))
    else .error .reservedField
  | 35 =>
    if w &&& 0x01F80000 = 0x01180000 then .ok (.viota (guardOf w) (w.extractLsb' 14 5) (w.extractLsb' 9 5) (w.extractLsb' 3 6) (w.extractLsb' 0 3))
    else .error .reservedField
  | 36 =>
    if w &&& 0x01FE318F = 0x01200000 then .ok (.lmand (guardOf w) (w.extractLsb' 14 3) (w.extractLsb' 9 3) (w.extractLsb' 4 3))
    else if w &&& 0x01FE318F = 0x01200001 then .ok (.lmandn (guardOf w) (w.extractLsb' 14 3) (w.extractLsb' 9 3) (w.extractLsb' 4 3))
    else .error .reservedField
  | 37 =>
    if w &&& 0x01FE318F = 0x01280000 then .ok (.lmor (guardOf w) (w.extractLsb' 14 3) (w.extractLsb' 9 3) (w.extractLsb' 4 3))
    else .error .reservedField
  | 38 =>
    if w &&& 0x01FE318F = 0x01300000 then .ok (.lmxor (guardOf w) (w.extractLsb' 14 3) (w.extractLsb' 9 3) (w.extractLsb' 4 3))
    else .error .reservedField
  | 39 =>
    if w &&& 0x01FE31FF = 0x01380000 then .ok (.lmnot (guardOf w) (w.extractLsb' 14 3) (w.extractLsb' 9 3))
    else .error .reservedField
  | 40 =>
    if w &&& 0x01FF3007 = 0x01400000 then .ok (.lmcnt (guardOf w) (w.extractLsb' 14 2) (w.extractLsb' 9 3) (w.extractLsb' 3 6))
    else .error .reservedField
  | 41 =>
    if w &&& 0x01FF3007 = 0x01480000 then .ok (.lmff (guardOf w) (w.extractLsb' 14 2) (w.extractLsb' 9 3) (w.extractLsb' 3 6))
    else .error .reservedField
  | 42 =>
    if w &&& 0x01F8003F = 0x01500000 then .ok (.twr (guardOf w) (w.extractLsb' 14 5) (w.extractLsb' 12 2) (w.extractLsb' 6 6))
    else .error .reservedField
  | 43 =>
    if w &&& 0x01F80003 = 0x01580000 then .ok (.trdc (guardOf w) (w.extractLsb' 14 5) (w.extractLsb' 12 2) (w.extractLsb' 6 6) (w.extractLsb' 2 4))
    else .error .reservedField
  | 44 =>
    if w &&& 0x01F80003 = 0x01600000 then .ok (.trdr (guardOf w) (w.extractLsb' 14 5) (w.extractLsb' 12 2) (w.extractLsb' 6 6) (w.extractLsb' 2 4))
    else .error .reservedField
  | 45 =>
    if w &&& 0x01FFCFC3 = 0x01680000 then .ok (.tzero (guardOf w) (w.extractLsb' 12 2) (w.extractLsb' 2 4))
    else .error .reservedField
  | 46 =>
    if w &&& 0x01FFC001 = 0x01700000 then .ok (.vchk (guardOf w) (w.extractLsb' 9 5) (w.extractLsb' 4 5) (w.extractLsb' 1 3))
    else if w &&& 0x01FFF18F = 0x01700001 then .ok (.vchkLm (guardOf w) (w.extractLsb' 9 3) (w.extractLsb' 4 3))
    else .error .reservedField
  | 47 =>
    if w &&& 0x01F8000F = 0x01780000 then .ok (.vskb (guardOf w) (w.extractLsb' 14 5) (w.extractLsb' 9 5) (w.extractLsb' 4 5))
    else .error .reservedField
  | 48 =>
    if w &&& 0x01F80000 = 0x01800000 then .ok (.vld (guardOf w) (w.extractLsb' 14 5) (w.extractLsb' 8 6) (w.extractLsb' 4 4) (w.extractLsb' 3 1) (w.extractLsb' 0 3))
    else .error .reservedField
  | 49 =>
    if w &&& 0x01F80010 = 0x01880000 then .ok (.vst (guardOf w) (w.extractLsb' 14 5) (w.extractLsb' 8 6) (w.extractLsb' 5 3) (w.extractLsb' 3 1) (w.extractLsb' 0 3))
    else .error .reservedField
  | 50 =>
    if w &&& 0x01F80000 = 0x01900000 then .ok (.vldg (guardOf w) (w.extractLsb' 14 5) (w.extractLsb' 8 6) (w.extractLsb' 4 4) (w.extractLsb' 0 4))
    else .error .reservedField
  | 51 =>
    if w &&& 0x01F80010 = 0x01980000 then .ok (.vstg (guardOf w) (w.extractLsb' 14 5) (w.extractLsb' 8 6) (w.extractLsb' 5 3) (w.extractLsb' 0 4))
    else .error .reservedField
  | 52 =>
    if w &&& 0x01F80004 = 0x01A00000 then .ok (.vgath (guardOf w) (w.extractLsb' 14 5) (w.extractLsb' 9 5) (w.extractLsb' 3 6) (w.extractLsb' 0 2))
    else if w &&& 0x01F80004 = 0x01A00004 then .ok (.vgathG (guardOf w) (w.extractLsb' 14 5) (w.extractLsb' 9 5) (w.extractLsb' 3 6) (w.extractLsb' 0 2))
    else .error .reservedField
  | 53 =>
    if w &&& 0x01F80004 = 0x01A80000 then .ok (.vscat (guardOf w) (w.extractLsb' 14 5) (w.extractLsb' 9 5) (w.extractLsb' 3 6) (w.extractLsb' 0 2))
    else if w &&& 0x01F80004 = 0x01A80004 then .ok (.vscatG (guardOf w) (w.extractLsb' 14 5) (w.extractLsb' 9 5) (w.extractLsb' 3 6) (w.extractLsb' 0 2))
    else .error .reservedField
  | 54 =>
    if w &&& 0x01F80000 = 0x01B00000 then .ok (.vatom (guardOf w) (w.extractLsb' 14 5) (w.extractLsb' 9 5) (w.extractLsb' 3 6) (w.extractLsb' 0 3))
    else .error .reservedField
  | _ => .error .reservedOpcode

/-- A slot-5 (M) word (R68, R77), before its field values are checked. -/
def parseM (w : BitVec 32) : Except DecodeError Instr :=
  match (w.extractLsb' 19 6).toNat with
  | 0 =>
    if w &&& 0x01FFFFFF = 0x00000000 then if (guardOf w).ok then .ok .nopM else .error .undefinedValue
    else .error .reservedField
  | 1 =>
    if w &&& 0x01F80003 = 0x00080000 then .ok (.mma (guardOf w) (w.extractLsb' 17 2) (w.extractLsb' 8 9) (w.extractLsb' 5 3) (w.extractLsb' 2 3))
    else if w &&& 0x01F80003 = 0x00080002 then .ok (.mmaZ (guardOf w) (w.extractLsb' 17 2) (w.extractLsb' 8 9) (w.extractLsb' 5 3) (w.extractLsb' 2 3))
    else .error .reservedField
  | 2 =>
    if w &&& 0x01F80003 = 0x00100000 then .ok (.mmas (guardOf w) (w.extractLsb' 17 2) (w.extractLsb' 8 9) (w.extractLsb' 5 3) (w.extractLsb' 2 3))
    else if w &&& 0x01F80003 = 0x00100002 then .ok (.mmasZ (guardOf w) (w.extractLsb' 17 2) (w.extractLsb' 8 9) (w.extractLsb' 5 3) (w.extractLsb' 2 3))
    else .error .reservedField
  | 3 =>
    if w &&& 0x01F9FFFE = 0x00180000 then .ok (.mzero (guardOf w) (w.extractLsb' 17 2) (w.extractLsb' 0 1))
    else .error .reservedField
  | 4 =>
    if w &&& 0x01F90000 = 0x00200000 then .ok (.mpop (guardOf w) (w.extractLsb' 17 2) (w.extractLsb' 11 5) (w.extractLsb' 4 7) (w.extractLsb' 2 2) (w.extractLsb' 0 2))
    else .error .reservedField
  | 5 =>
    if w &&& 0x01F90003 = 0x00280000 then .ok (.mpush (guardOf w) (w.extractLsb' 17 2) (w.extractLsb' 11 5) (w.extractLsb' 4 7) (w.extractLsb' 2 2))
    else .error .reservedField
  | 6 =>
    if w &&& 0x01F9FFFF = 0x00300000 then .ok (.mret (guardOf w) (w.extractLsb' 17 2))
    else .error .reservedField
  | 7 =>
    if w &&& 0x01F9FFFE = 0x00380000 then .ok (.mfmt (guardOf w) (w.extractLsb' 17 2) (w.extractLsb' 0 1))
    else .error .reservedField
  | 8 =>
    if w &&& 0x01FFFFFC = 0x00400000 then .ok (.mflush (guardOf w) (w.extractLsb' 1 1) (w.extractLsb' 0 1))
    else if w &&& 0x01FE07FC = 0x00400004 then .ok (.mflushPc (guardOf w) (w.extractLsb' 11 6) (w.extractLsb' 1 1) (w.extractLsb' 0 1))
    else .error .reservedField
  | 9 =>
    if w &&& 0x01FE07FF = 0x00480000 then .ok (.mstat (guardOf w) (w.extractLsb' 11 6))
    else if w &&& 0x01FE07FF = 0x00480001 then .ok (.mstatC (guardOf w) (w.extractLsb' 11 6))
    else .error .reservedField
  | _ => .error .reservedOpcode

/-- A slot-6 or slot-7 (C) word (R68, R77), before its field values are checked. -/
def parseC (w : BitVec 32) : Except DecodeError Instr :=
  match (w.extractLsb' 19 6).toNat with
  | 0 =>
    if w &&& 0x01FFFFFF = 0x00000000 then if (guardOf w).ok then .ok .nopC else .error .undefinedValue
    else .error .reservedField
  | 1 =>
    if w &&& 0x01F801FF = 0x00080000 then .ok (.dld (guardOf w) (w.extractLsb' 15 4) (w.extractLsb' 9 6))
    else .error .reservedField
  | 2 =>
    if w &&& 0x01F801E0 = 0x00100000 then .ok (.dset (guardOf w) (w.extractLsb' 15 4) (w.extractLsb' 9 6) (w.extractLsb' 0 5))
    else if w &&& 0x01F801E0 = 0x00100020 then .ok (.dsetAdd (guardOf w) (w.extractLsb' 15 4) (w.extractLsb' 9 6) (w.extractLsb' 0 5))
    else .error .reservedField
  | 3 =>
    if w &&& 0x01F801FF = 0x00180000 then .ok (.msetw (guardOf w) (w.extractLsb' 15 4) (w.extractLsb' 9 6))
    else .error .reservedField
  | 4 =>
    if w &&& 0x01F80003 = 0x00200000 then .ok (.cpy (guardOf w) (w.extractLsb' 15 4) (w.extractLsb' 9 6) (w.extractLsb' 5 4) (w.extractLsb' 4 1) (w.extractLsb' 3 1) (w.extractLsb' 2 1))
    else .error .reservedField
  | 5 =>
    if w &&& 0x01F8000F = 0x00280000 then .ok (.cpym (guardOf w) (w.extractLsb' 15 4) (w.extractLsb' 9 6) (w.extractLsb' 5 4) (w.extractLsb' 4 1))
    else .error .reservedField
  | 6 =>
    if w &&& 0x01F80003 = 0x00300000 then .ok (.cpyq (guardOf w) (w.extractLsb' 15 4) (w.extractLsb' 9 6) (w.extractLsb' 5 4) (w.extractLsb' 4 1) (w.extractLsb' 3 1) (w.extractLsb' 2 1))
    else .error .reservedField
  | 7 =>
    if w &&& 0x01F80007 = 0x00380000 then .ok (.cpyx (guardOf w) (w.extractLsb' 15 4) (w.extractLsb' 9 6) (w.extractLsb' 5 4) (w.extractLsb' 4 1) (w.extractLsb' 3 1))
    else .error .reservedField
  | 8 =>
    if w &&& 0x01F80000 = 0x00400000 then .ok (.gath (guardOf w) (w.extractLsb' 15 4) (w.extractLsb' 9 6) (w.extractLsb' 5 4) (w.extractLsb' 2 3) (w.extractLsb' 0 2))
    else .error .reservedField
  | 9 =>
    if w &&& 0x01F80000 = 0x00480000 then .ok (.feed (guardOf w) (w.extractLsb' 15 4) (w.extractLsb' 9 6) (w.extractLsb' 5 4) (w.extractLsb' 4 1) (w.extractLsb' 1 3) (w.extractLsb' 0 1))
    else .error .reservedField
  | 10 =>
    if w &&& 0x01F80000 = 0x00500000 then .ok (.drain (guardOf w) (w.extractLsb' 15 4) (w.extractLsb' 9 6) (w.extractLsb' 5 4) (w.extractLsb' 3 2) (w.extractLsb' 0 3))
    else .error .reservedField
  | 11 =>
    if w &&& 0x01F80007 = 0x00580000 then .ok (.lsend (guardOf w) (w.extractLsb' 13 6) (w.extractLsb' 7 6) (w.extractLsb' 3 4))
    else .error .reservedField
  | 12 =>
    if w &&& 0x01F80007 = 0x00600000 then .ok (.lrecv (guardOf w) (w.extractLsb' 13 6) (w.extractLsb' 7 6) (w.extractLsb' 3 4))
    else .error .reservedField
  | 13 =>
    if w &&& 0x01F80000 = 0x00680000 then .ok (.lrxadd (guardOf w) (w.extractLsb' 13 6) (w.extractLsb' 7 6) (w.extractLsb' 3 4) (w.extractLsb' 0 3))
    else .error .reservedField
  | _ => .error .reservedOpcode

/-- The slot's own parser (R67). -/
def parseSlot (slot : BitVec 3) (w : BitVec 32) : Except DecodeError Instr :=
  match slot.toNat with
  | 0 => parseB w
  | 1 => parseS w
  | 2 => parseD w
  | 3 => parseV w
  | 4 => parseV w
  | 5 => parseM w
  | _ => parseC w

/-- The instruction of the word `w` in the slot `slot`, or why there is none. -/
def decodeSlot (slot : BitVec 3) (w : BitVec 32) : Except DecodeError Instr :=
  match parseSlot slot w with
  | .error e => .error e
  | .ok i => if i.wf then .ok i else .error .undefinedValue

/-- The slot in which a word of this instruction stands; `none` for an event. V-slot words stand in slot 3 or 4 and
C-slot words in slot 6 or 7, and the lower one is named. -/
def Instr.homeSlot : Instr → Option (BitVec 3)
  | .nopb _ _ => some 0
  | .callr _ _ _ => some 0
  | .ret _ _ _ => some 0
  | .relc _ _ _ _ => some 0
  | .fjoin _ _ _ _ => some 0
  | .tend _ _ => some 0
  | .endMember _ _ => some 0
  | .loop _ _ _ _ => some 0
  | .loopx _ _ _ _ => some 0
  | .bsel _ _ _ _ => some 0
  | .chkpt _ _ => some 0
  | .yield _ _ _ => some 0
  | .trap _ _ _ => some 0
  | .brk _ _ _ => some 0
  | .br _ _ _ => some 0
  | .call _ _ _ => some 0
  | .tree _ _ _ _ _ => some 0
  | .nopS => some 1
  | .add _ _ _ _ => some 1
  | .sub _ _ _ _ => some 1
  | .mul _ _ _ _ => some 1
  | .mulh _ _ _ _ => some 1
  | .mulhz _ _ _ _ => some 1
  | .div _ _ _ _ => some 1
  | .divz _ _ _ _ => some 1
  | .rem _ _ _ _ => some 1
  | .remz _ _ _ _ => some 1
  | .and _ _ _ _ => some 1
  | .andn _ _ _ _ => some 1
  | .or _ _ _ _ => some 1
  | .xor _ _ _ _ => some 1
  | .shl _ _ _ _ => some 1
  | .shli _ _ _ _ => some 1
  | .shr _ _ _ _ => some 1
  | .shri _ _ _ _ => some 1
  | .sar _ _ _ _ => some 1
  | .sari _ _ _ _ => some 1
  | .rotr _ _ _ _ => some 1
  | .rotrImm _ _ _ _ => some 1
  | .min _ _ _ _ => some 1
  | .minz _ _ _ _ => some 1
  | .max _ _ _ _ => some 1
  | .maxz _ _ _ _ => some 1
  | .clz _ _ _ => some 1
  | .ctz _ _ _ => some 1
  | .popc _ _ _ => some 1
  | .bfx _ _ _ _ => some 1
  | .bfxz _ _ _ _ => some 1
  | .bfi _ _ _ _ => some 1
  | .sel _ _ _ _ => some 1
  | .addi _ _ _ _ => some 1
  | .andi _ _ _ _ => some 1
  | .ori _ _ _ _ => some 1
  | .xori _ _ _ _ => some 1
  | .lea _ _ _ _ => some 1
  | .movi _ _ _ => some 1
  | .movhi _ _ _ => some 1
  | .cmpEq _ _ _ _ _ => some 1
  | .cmpiEq _ _ _ _ _ => some 1
  | .cmpNe _ _ _ _ _ => some 1
  | .cmpiNe _ _ _ _ _ => some 1
  | .cmpLt _ _ _ _ _ => some 1
  | .cmpiLt _ _ _ _ _ => some 1
  | .cmpLe _ _ _ _ _ => some 1
  | .cmpiLe _ _ _ _ _ => some 1
  | .cmpGt _ _ _ _ _ => some 1
  | .cmpiGt _ _ _ _ _ => some 1
  | .cmpGe _ _ _ _ _ => some 1
  | .cmpiGe _ _ _ _ _ => some 1
  | .cmpLo _ _ _ _ _ => some 1
  | .cmpiLo _ _ _ _ _ => some 1
  | .cmpLs _ _ _ _ _ => some 1
  | .cmpiLs _ _ _ _ _ => some 1
  | .cmpHi _ _ _ _ _ => some 1
  | .cmpiHi _ _ _ _ _ => some 1
  | .cmpHs _ _ _ _ _ => some 1
  | .cmpiHs _ _ _ _ _ => some 1
  | .pand _ _ _ _ => some 1
  | .pandn _ _ _ _ => some 1
  | .por _ _ _ _ => some 1
  | .pxor _ _ _ _ => some 1
  | .setb _ _ _ => some 1
  | .ximm _ _ => some 1
  | .setefImm _ _ => some 1
  | .setefReg _ _ => some 1
  | .mfs _ _ _ => some 1
  | .mts _ _ _ => some 1
  | .schk _ _ _ => some 1
  | .schkPred _ _ _ => some 1
  | .lds _ _ _ _ _ _ => some 1
  | .sts _ _ _ _ _ => some 1
  | .ldg _ _ _ _ _ _ => some 1
  | .stg _ _ _ _ _ => some 1
  | .faddH _ _ _ _ => some 1
  | .fsubH _ _ _ _ => some 1
  | .faddF _ _ _ _ => some 1
  | .fsubF _ _ _ _ => some 1
  | .faddD _ _ _ _ => some 1
  | .fsubD _ _ _ _ => some 1
  | .fmulH _ _ _ _ => some 1
  | .ffmaH _ _ _ _ => some 1
  | .fmulF _ _ _ _ => some 1
  | .ffmaF _ _ _ _ => some 1
  | .fmulD _ _ _ _ => some 1
  | .ffmaD _ _ _ _ => some 1
  | .fminH _ _ _ _ => some 1
  | .fmaxH _ _ _ _ => some 1
  | .fminF _ _ _ _ => some 1
  | .fmaxF _ _ _ _ => some 1
  | .fminD _ _ _ _ => some 1
  | .fmaxD _ _ _ _ => some 1
  | .fcmpH _ _ _ _ _ _ => some 1
  | .fcmpF _ _ _ _ _ _ => some 1
  | .fcmpD _ _ _ _ _ _ => some 1
  | .fcvt _ _ _ _ _ => some 1
  | .nopD => some 2
  | .waitdc _ _ _ => some 2
  | .waitm _ _ => some 2
  | .waitany _ _ => some 2
  | .ffrm _ _ _ => some 2
  | .mclr _ _ => some 2
  | .mclrSet _ _ => some 2
  | .cfence _ _ _ => some 2
  | .atomAdd _ _ _ _ _ => some 2
  | .atomMin _ _ _ _ _ => some 2
  | .atomMax _ _ _ _ _ => some 2
  | .atomMinz _ _ _ _ _ => some 2
  | .atomMaxz _ _ _ _ _ => some 2
  | .atomAnd _ _ _ _ _ => some 2
  | .atomOr _ _ _ _ _ => some 2
  | .atomXor _ _ _ _ _ => some 2
  | .atomXchg _ _ _ _ _ => some 2
  | .atomCas _ _ _ _ _ => some 2
  | .propose _ _ _ _ _ => some 2
  | .ocread _ _ _ _ _ => some 2
  | .ocrecycle _ _ _ _ _ => some 2
  | .bara _ _ _ => some 2
  | .barw _ _ _ _ => some 2
  | .bar _ _ _ _ => some 2
  | .popw _ _ _ => some 2
  | .popwB _ _ _ => some 2
  | .pushw _ _ _ => some 2
  | .pushwC _ _ _ => some 2
  | .qpush _ _ _ _ => some 2
  | .trigger _ => some 2
  | .wstat _ _ _ => some 2
  | .digq _ _ _ _ => some 2
  | .digb _ _ _ _ => some 2
  | .digrs _ _ _ _ => some 2
  | .kvapp _ _ _ _ => some 2
  | .nopV => some 3
  | .vadd _ _ _ _ _ => some 3
  | .vaddS _ _ _ _ _ => some 3
  | .vsub _ _ _ _ _ => some 3
  | .vsubS _ _ _ _ _ => some 3
  | .vmul _ _ _ _ _ => some 3
  | .vmulS _ _ _ _ _ => some 3
  | .vfma _ _ _ _ _ => some 3
  | .vfms _ _ _ _ _ => some 3
  | .vmin _ _ _ _ _ => some 3
  | .vmax _ _ _ _ _ => some 3
  | .vabs _ _ _ _ _ => some 3
  | .vneg _ _ _ _ _ => some 3
  | .vrcp _ _ _ _ => some 3
  | .vrsq _ _ _ _ => some 3
  | .vexp2 _ _ _ _ => some 3
  | .vlog2 _ _ _ _ => some 3
  | .vand _ _ _ _ _ => some 3
  | .vor _ _ _ _ _ => some 3
  | .vxor _ _ _ _ _ => some 3
  | .vshl _ _ _ _ _ => some 3
  | .vshr _ _ _ _ _ => some 3
  | .vsar _ _ _ _ _ => some 3
  | .vcmp _ _ _ _ _ _ => some 3
  | .vsel _ _ _ _ _ => some 3
  | .vcvt _ _ _ _ _ => some 3
  | .vcvtBits _ _ _ _ => some 3
  | .vqntT8 _ _ _ _ _ => some 3
  | .vqntT6 _ _ _ _ _ => some 3
  | .vsclT8 _ _ _ => some 3
  | .vsclT6 _ _ _ => some 3
  | .vredadd _ _ _ _ => some 3
  | .vredaddS _ _ _ _ => some 3
  | .vredmax _ _ _ _ => some 3
  | .vredmin _ _ _ _ => some 3
  | .vscan _ _ _ _ => some 3
  | .vscanX _ _ _ _ => some 3
  | .vbcast _ _ _ _ _ => some 3
  | .vext _ _ _ _ => some 3
  | .vins _ _ _ _ => some 3
  | .vperm _ _ _ _ _ => some 3
  | .vslide _ _ _ _ _ => some 3
  | .vhash _ _ _ _ _ => some 3
  | .viota _ _ _ _ _ => some 3
  | .lmand _ _ _ _ => some 3
  | .lmandn _ _ _ _ => some 3
  | .lmor _ _ _ _ => some 3
  | .lmxor _ _ _ _ => some 3
  | .lmnot _ _ _ => some 3
  | .lmcnt _ _ _ _ => some 3
  | .lmff _ _ _ _ => some 3
  | .twr _ _ _ _ => some 3
  | .trdc _ _ _ _ _ => some 3
  | .trdr _ _ _ _ _ => some 3
  | .tzero _ _ _ => some 3
  | .vchk _ _ _ _ => some 3
  | .vchkLm _ _ _ => some 3
  | .vskb _ _ _ _ => some 3
  | .vld _ _ _ _ _ _ => some 3
  | .vst _ _ _ _ _ _ => some 3
  | .vldg _ _ _ _ _ => some 3
  | .vstg _ _ _ _ _ => some 3
  | .vgath _ _ _ _ _ => some 3
  | .vgathG _ _ _ _ _ => some 3
  | .vscat _ _ _ _ _ => some 3
  | .vscatG _ _ _ _ _ => some 3
  | .vatom _ _ _ _ _ => some 3
  | .nopM => some 5
  | .mma _ _ _ _ _ => some 5
  | .mmaZ _ _ _ _ _ => some 5
  | .mmas _ _ _ _ _ => some 5
  | .mmasZ _ _ _ _ _ => some 5
  | .mzero _ _ _ => some 5
  | .mpop _ _ _ _ _ _ => some 5
  | .mpush _ _ _ _ _ => some 5
  | .mret _ _ => some 5
  | .mfmt _ _ _ => some 5
  | .mflush _ _ _ => some 5
  | .mflushPc _ _ _ _ => some 5
  | .mstat _ _ => some 5
  | .mstatC _ _ => some 5
  | .nopC => some 6
  | .dld _ _ _ => some 6
  | .dset _ _ _ _ => some 6
  | .dsetAdd _ _ _ _ => some 6
  | .msetw _ _ _ => some 6
  | .cpy _ _ _ _ _ _ _ => some 6
  | .cpym _ _ _ _ _ => some 6
  | .cpyq _ _ _ _ _ _ _ => some 6
  | .cpyx _ _ _ _ _ _ => some 6
  | .gath _ _ _ _ _ _ => some 6
  | .feed _ _ _ _ _ _ _ => some 6
  | .drain _ _ _ _ _ _ => some 6
  | .lsend _ _ _ _ => some 6
  | .lrecv _ _ _ _ => some 6
  | .lrxadd _ _ _ _ _ => some 6
  | .pickContext => none
  | .engineCommandStart => none
  | .engineCommandComplete => none
  | .deviceReplyArrival => none
  | .multicastArrival => none
  | .feedLineWrite => none
  | .matrixKStep => none
  | .accumulatorCommit => none
  | .mAccCommit => none
  | .mflushEffect => none
  | .checkpoint => none
  | .holdingEntryPerform => none
  | .rollbackEvent => none
  | .rollbackRestore => none
  | .translationWalk => none
  | .xresolve => none
  | .frcons => none
  | .xinv => none
  | .xinvComplete => none
  | .offer => none
  | .fitoffer => none
  | .returnHead => none
  | .skiphead => none
  | .ganggo => none
  | .memberCreation => none
  | .contextRestore => none
  | .killMember => none
  | .bindRecordWrite => none
  | .isflush => none
  | .kvreclaim => none
  | .kvtscfg => none
  | .kvtscfgComplete => none
  | .registerWrite => none
  | .headPresent => none
  | .headEligible => none
  | .absentHeadTimeout => none
  | .qpushHomeStep => none
  | .teamCompletion => none
  | .coreFree => none
  | .phaseOverrun => none
  | .yieldDeadline => none
  | .waitPreemption => none
  | .contextSave => none
  | .saveComplete => none
  | .kvappExecute => none
  | .atomHomeStep => none
  | .onceCellHomeStep => none
  | .workQueueHomeStep => none
  | .barrierPhaseComplete => none
  | .windowAccessArrival => none
  | .homeWriteStep => none
  | .linkPair => none
  | .linkPortDown => none
  | .flitRetransmit => none
  | .linkRetrain => none
  | .rdmaWrite => none
  | .rdmaRead => none
  | .rdmaFetchAdd => none
  | .regionActivate => none
  | .sieveBlockScan => none
  | .regionDestroy => none
  | .digestEntryEccError => none
  | .heartbeatSend => none
  | .heartbeatReceive => none
  | .periodEnd => none
  | .babbleClear => none
  | .accusationReceive => none
  | .accusationRenew => none
  | .accusationExpiry => none
  | .withdrawalReceive => none
  | .quorumCheck => none
  | .fenceNoticeReceive => none
  | .watchMapUpdate => none
  | .strikeLapse => none
  | .selfTestComplete => none
  | .admissionReceive => none
  | .readmissionNoticeReceive => none
  | .probationTimeout => none
  | .correctedError => none
  | .quiesceEnd => none
  | .thsConversion => none
  | .throttleStep => none
  | .powerPageUpdate => none
  | .packageReset => none
  | .attestationRequest => none
  | .postFatalDump => none
  | .linkPortUp => none
  | .uncorrectableError => none

/-- A bundle's 32 bytes as its eight slot words, each little-endian, slot 0 first (R66). -/
def slotWords : List Byte → List (BitVec 32)
  | a :: b :: c :: d :: rest => (d ++ c ++ b ++ a) :: slotWords rest
  | _ => []

/-- The eight slots of a bundle, decoded. -/
def decodeBundle (bytes : List Byte) : List (Except DecodeError Instr) :=
  (slotWords bytes).zipIdx.map fun (w, n) => decodeSlot (BitVec.ofNat 3 n) w

/-- The word of a slot instruction, laid out from the same tables as the decoder reads (R68, R70, R78 to R90); `none`
for an event. -/
def encode : Instr → Option (BitVec 32)
  | .nopb stop g => some (BitVec.ofBool stop ++ 0#3 ++ g.idx ++ BitVec.ofBool g.neg ++ 0#21)
  | .callr stop g a => some (BitVec.ofBool stop ++ 0#3 ++ g.idx ++ BitVec.ofBool g.neg ++ 1#6 ++ a ++ 0#9)
  | .ret stop g a => some (BitVec.ofBool stop ++ 0#3 ++ g.idx ++ BitVec.ofBool g.neg ++ 2#6 ++ a ++ 0#9)
  | .relc stop g p o => some (BitVec.ofBool stop ++ 0#3 ++ g.idx ++ BitVec.ofBool g.neg ++ 3#6 ++ p ++ o)
  | .fjoin stop g d t => some (BitVec.ofBool stop ++ 0#3 ++ g.idx ++ BitVec.ofBool g.neg ++ 4#6 ++ d ++ t)
  | .tend stop g => some (BitVec.ofBool stop ++ 0#3 ++ g.idx ++ BitVec.ofBool g.neg ++ 163840#21)
  | .endMember stop g => some (BitVec.ofBool stop ++ 0#3 ++ g.idx ++ BitVec.ofBool g.neg ++ 196608#21)
  | .loop stop g k i => some (BitVec.ofBool stop ++ 0#3 ++ g.idx ++ BitVec.ofBool g.neg ++ 28#8 ++ k ++ i)
  | .loopx stop g a i => some (BitVec.ofBool stop ++ 0#3 ++ g.idx ++ BitVec.ofBool g.neg ++ 8#6 ++ a ++ i)
  | .bsel stop g a i => some (BitVec.ofBool stop ++ 0#3 ++ g.idx ++ BitVec.ofBool g.neg ++ 9#6 ++ a ++ i)
  | .chkpt stop g => some (BitVec.ofBool stop ++ 0#3 ++ g.idx ++ BitVec.ofBool g.neg ++ 327680#21)
  | .yield stop g i => some (BitVec.ofBool stop ++ 0#3 ++ g.idx ++ BitVec.ofBool g.neg ++ 704#12 ++ i)
  | .trap stop g c => some (BitVec.ofBool stop ++ 0#3 ++ g.idx ++ BitVec.ofBool g.neg ++ 768#12 ++ c)
  | .brk stop g c => some (BitVec.ofBool stop ++ 0#3 ++ g.idx ++ BitVec.ofBool g.neg ++ 832#12 ++ c)
  | .br stop g o => some (BitVec.ofBool stop ++ 1#3 ++ g.idx ++ BitVec.ofBool g.neg ++ o)
  | .call stop g o => some (BitVec.ofBool stop ++ 2#3 ++ g.idx ++ BitVec.ofBool g.neg ++ o)
  | .tree stop a b c d => some (BitVec.ofBool stop ++ 7#3 ++ a ++ b ++ c ++ d)
  | .nopS  => some (0#32)
  | .add g d a b => some (g.idx ++ BitVec.ofBool g.neg ++ 1#6 ++ d ++ a ++ b ++ 0#1)
  | .sub g d a b => some (g.idx ++ BitVec.ofBool g.neg ++ 1#6 ++ d ++ a ++ b ++ 1#1)
  | .mul g d a b => some (g.idx ++ BitVec.ofBool g.neg ++ 2#6 ++ d ++ a ++ b ++ 0#1)
  | .mulh g d a b => some (g.idx ++ BitVec.ofBool g.neg ++ 3#6 ++ d ++ a ++ b ++ 0#1)
  | .mulhz g d a b => some (g.idx ++ BitVec.ofBool g.neg ++ 3#6 ++ d ++ a ++ b ++ 1#1)
  | .div g d a b => some (g.idx ++ BitVec.ofBool g.neg ++ 4#6 ++ d ++ a ++ b ++ 0#1)
  | .divz g d a b => some (g.idx ++ BitVec.ofBool g.neg ++ 4#6 ++ d ++ a ++ b ++ 1#1)
  | .rem g d a b => some (g.idx ++ BitVec.ofBool g.neg ++ 5#6 ++ d ++ a ++ b ++ 0#1)
  | .remz g d a b => some (g.idx ++ BitVec.ofBool g.neg ++ 5#6 ++ d ++ a ++ b ++ 1#1)
  | .and g d a b => some (g.idx ++ BitVec.ofBool g.neg ++ 6#6 ++ d ++ a ++ b ++ 0#1)
  | .andn g d a b => some (g.idx ++ BitVec.ofBool g.neg ++ 6#6 ++ d ++ a ++ b ++ 1#1)
  | .or g d a b => some (g.idx ++ BitVec.ofBool g.neg ++ 7#6 ++ d ++ a ++ b ++ 0#1)
  | .xor g d a b => some (g.idx ++ BitVec.ofBool g.neg ++ 8#6 ++ d ++ a ++ b ++ 0#1)
  | .shl g d a b => some (g.idx ++ BitVec.ofBool g.neg ++ 9#6 ++ d ++ a ++ b ++ 0#1)
  | .shli g d a c => some (g.idx ++ BitVec.ofBool g.neg ++ 9#6 ++ d ++ a ++ c ++ 1#1)
  | .shr g d a b => some (g.idx ++ BitVec.ofBool g.neg ++ 10#6 ++ d ++ a ++ b ++ 0#1)
  | .shri g d a c => some (g.idx ++ BitVec.ofBool g.neg ++ 10#6 ++ d ++ a ++ c ++ 1#1)
  | .sar g d a b => some (g.idx ++ BitVec.ofBool g.neg ++ 11#6 ++ d ++ a ++ b ++ 0#1)
  | .sari g d a c => some (g.idx ++ BitVec.ofBool g.neg ++ 11#6 ++ d ++ a ++ c ++ 1#1)
  | .rotr g d a b => some (g.idx ++ BitVec.ofBool g.neg ++ 12#6 ++ d ++ a ++ b ++ 0#1)
  | .rotrImm g d a c => some (g.idx ++ BitVec.ofBool g.neg ++ 12#6 ++ d ++ a ++ c ++ 1#1)
  | .min g d a b => some (g.idx ++ BitVec.ofBool g.neg ++ 13#6 ++ d ++ a ++ b ++ 0#1)
  | .minz g d a b => some (g.idx ++ BitVec.ofBool g.neg ++ 13#6 ++ d ++ a ++ b ++ 1#1)
  | .max g d a b => some (g.idx ++ BitVec.ofBool g.neg ++ 14#6 ++ d ++ a ++ b ++ 0#1)
  | .maxz g d a b => some (g.idx ++ BitVec.ofBool g.neg ++ 14#6 ++ d ++ a ++ b ++ 1#1)
  | .clz g d a => some (g.idx ++ BitVec.ofBool g.neg ++ 15#6 ++ d ++ a ++ 0#7)
  | .ctz g d a => some (g.idx ++ BitVec.ofBool g.neg ++ 15#6 ++ d ++ a ++ 1#7)
  | .popc g d a => some (g.idx ++ BitVec.ofBool g.neg ++ 16#6 ++ d ++ a ++ 0#7)
  | .bfx g d a b => some (g.idx ++ BitVec.ofBool g.neg ++ 17#6 ++ d ++ a ++ b ++ 0#1)
  | .bfxz g d a b => some (g.idx ++ BitVec.ofBool g.neg ++ 17#6 ++ d ++ a ++ b ++ 1#1)
  | .bfi g d a b => some (g.idx ++ BitVec.ofBool g.neg ++ 18#6 ++ d ++ a ++ b ++ 0#1)
  | .sel g d a b => some (g.idx ++ BitVec.ofBool g.neg ++ 19#6 ++ d ++ a ++ b ++ 0#1)
  | .addi g d a i => some (g.idx ++ BitVec.ofBool g.neg ++ 20#6 ++ d ++ a ++ i)
  | .andi g d a i => some (g.idx ++ BitVec.ofBool g.neg ++ 21#6 ++ d ++ a ++ i)
  | .ori g d a i => some (g.idx ++ BitVec.ofBool g.neg ++ 22#6 ++ d ++ a ++ i)
  | .xori g d a i => some (g.idx ++ BitVec.ofBool g.neg ++ 23#6 ++ d ++ a ++ i)
  | .lea g d a i => some (g.idx ++ BitVec.ofBool g.neg ++ 24#6 ++ d ++ a ++ i)
  | .movi g d i => some (g.idx ++ BitVec.ofBool g.neg ++ 25#6 ++ d ++ i)
  | .movhi g d i => some (g.idx ++ BitVec.ofBool g.neg ++ 26#6 ++ d ++ i)
  | .cmpEq g k x a b => some (g.idx ++ BitVec.ofBool g.neg ++ 27#6 ++ k ++ x ++ a ++ b ++ 0#1)
  | .cmpiEq g k x a i => some (g.idx ++ BitVec.ofBool g.neg ++ 27#6 ++ k ++ x ++ a ++ i ++ 1#1)
  | .cmpNe g k x a b => some (g.idx ++ BitVec.ofBool g.neg ++ 28#6 ++ k ++ x ++ a ++ b ++ 0#1)
  | .cmpiNe g k x a i => some (g.idx ++ BitVec.ofBool g.neg ++ 28#6 ++ k ++ x ++ a ++ i ++ 1#1)
  | .cmpLt g k x a b => some (g.idx ++ BitVec.ofBool g.neg ++ 29#6 ++ k ++ x ++ a ++ b ++ 0#1)
  | .cmpiLt g k x a i => some (g.idx ++ BitVec.ofBool g.neg ++ 29#6 ++ k ++ x ++ a ++ i ++ 1#1)
  | .cmpLe g k x a b => some (g.idx ++ BitVec.ofBool g.neg ++ 30#6 ++ k ++ x ++ a ++ b ++ 0#1)
  | .cmpiLe g k x a i => some (g.idx ++ BitVec.ofBool g.neg ++ 30#6 ++ k ++ x ++ a ++ i ++ 1#1)
  | .cmpGt g k x a b => some (g.idx ++ BitVec.ofBool g.neg ++ 31#6 ++ k ++ x ++ a ++ b ++ 0#1)
  | .cmpiGt g k x a i => some (g.idx ++ BitVec.ofBool g.neg ++ 31#6 ++ k ++ x ++ a ++ i ++ 1#1)
  | .cmpGe g k x a b => some (g.idx ++ BitVec.ofBool g.neg ++ 32#6 ++ k ++ x ++ a ++ b ++ 0#1)
  | .cmpiGe g k x a i => some (g.idx ++ BitVec.ofBool g.neg ++ 32#6 ++ k ++ x ++ a ++ i ++ 1#1)
  | .cmpLo g k x a b => some (g.idx ++ BitVec.ofBool g.neg ++ 33#6 ++ k ++ x ++ a ++ b ++ 0#1)
  | .cmpiLo g k x a i => some (g.idx ++ BitVec.ofBool g.neg ++ 33#6 ++ k ++ x ++ a ++ i ++ 1#1)
  | .cmpLs g k x a b => some (g.idx ++ BitVec.ofBool g.neg ++ 34#6 ++ k ++ x ++ a ++ b ++ 0#1)
  | .cmpiLs g k x a i => some (g.idx ++ BitVec.ofBool g.neg ++ 34#6 ++ k ++ x ++ a ++ i ++ 1#1)
  | .cmpHi g k x a b => some (g.idx ++ BitVec.ofBool g.neg ++ 35#6 ++ k ++ x ++ a ++ b ++ 0#1)
  | .cmpiHi g k x a i => some (g.idx ++ BitVec.ofBool g.neg ++ 35#6 ++ k ++ x ++ a ++ i ++ 1#1)
  | .cmpHs g k x a b => some (g.idx ++ BitVec.ofBool g.neg ++ 36#6 ++ k ++ x ++ a ++ b ++ 0#1)
  | .cmpiHs g k x a i => some (g.idx ++ BitVec.ofBool g.neg ++ 36#6 ++ k ++ x ++ a ++ i ++ 1#1)
  | .pand g d a b => some (g.idx ++ BitVec.ofBool g.neg ++ 37#6 ++ d ++ a ++ b ++ 0#1)
  | .pandn g d a b => some (g.idx ++ BitVec.ofBool g.neg ++ 37#6 ++ d ++ a ++ b ++ 1#1)
  | .por g d a b => some (g.idx ++ BitVec.ofBool g.neg ++ 38#6 ++ d ++ a ++ b ++ 0#1)
  | .pxor g d a b => some (g.idx ++ BitVec.ofBool g.neg ++ 39#6 ++ d ++ a ++ b ++ 0#1)
  | .setb g k i => some (g.idx ++ BitVec.ofBool g.neg ++ 40#6 ++ k ++ i)
  | .ximm t p => some (t ++ 41#10 ++ p)
  | .setefImm g v => some (g.idx ++ BitVec.ofBool g.neg ++ 86016#17 ++ v)
  | .setefReg g a => some (g.idx ++ BitVec.ofBool g.neg ++ 42#6 ++ a ++ 0#13)
  | .mfs g a r => some (g.idx ++ BitVec.ofBool g.neg ++ 43#6 ++ a ++ 0#5 ++ r)
  | .mts g a r => some (g.idx ++ BitVec.ofBool g.neg ++ 43#6 ++ a ++ 16#5 ++ r)
  | .schk g a b => some (g.idx ++ BitVec.ofBool g.neg ++ 2816#12 ++ a ++ b ++ 0#1)
  | .schkPred g a b => some (g.idx ++ BitVec.ofBool g.neg ++ 2816#12 ++ a ++ b ++ 1#1)
  | .lds g d a m z e => some (g.idx ++ BitVec.ofBool g.neg ++ 45#6 ++ d ++ a ++ m ++ 0#3 ++ z ++ e)
  | .sts g d a m z => some (g.idx ++ BitVec.ofBool g.neg ++ 46#6 ++ d ++ a ++ m ++ 0#3 ++ z ++ 0#1)
  | .ldg g d a q z e => some (g.idx ++ BitVec.ofBool g.neg ++ 47#6 ++ d ++ a ++ q ++ z ++ e)
  | .stg g d a q z => some (g.idx ++ BitVec.ofBool g.neg ++ 48#6 ++ d ++ a ++ q ++ z ++ 0#1)
  | .faddH g d a b => some (g.idx ++ BitVec.ofBool g.neg ++ 49#6 ++ d ++ a ++ b ++ 0#1)
  | .fsubH g d a b => some (g.idx ++ BitVec.ofBool g.neg ++ 49#6 ++ d ++ a ++ b ++ 1#1)
  | .faddF g d a b => some (g.idx ++ BitVec.ofBool g.neg ++ 50#6 ++ d ++ a ++ b ++ 0#1)
  | .fsubF g d a b => some (g.idx ++ BitVec.ofBool g.neg ++ 50#6 ++ d ++ a ++ b ++ 1#1)
  | .faddD g d a b => some (g.idx ++ BitVec.ofBool g.neg ++ 51#6 ++ d ++ a ++ b ++ 0#1)
  | .fsubD g d a b => some (g.idx ++ BitVec.ofBool g.neg ++ 51#6 ++ d ++ a ++ b ++ 1#1)
  | .fmulH g d a b => some (g.idx ++ BitVec.ofBool g.neg ++ 52#6 ++ d ++ a ++ b ++ 0#1)
  | .ffmaH g d a b => some (g.idx ++ BitVec.ofBool g.neg ++ 52#6 ++ d ++ a ++ b ++ 1#1)
  | .fmulF g d a b => some (g.idx ++ BitVec.ofBool g.neg ++ 53#6 ++ d ++ a ++ b ++ 0#1)
  | .ffmaF g d a b => some (g.idx ++ BitVec.ofBool g.neg ++ 53#6 ++ d ++ a ++ b ++ 1#1)
  | .fmulD g d a b => some (g.idx ++ BitVec.ofBool g.neg ++ 54#6 ++ d ++ a ++ b ++ 0#1)
  | .ffmaD g d a b => some (g.idx ++ BitVec.ofBool g.neg ++ 54#6 ++ d ++ a ++ b ++ 1#1)
  | .fminH g d a b => some (g.idx ++ BitVec.ofBool g.neg ++ 55#6 ++ d ++ a ++ b ++ 0#1)
  | .fmaxH g d a b => some (g.idx ++ BitVec.ofBool g.neg ++ 55#6 ++ d ++ a ++ b ++ 1#1)
  | .fminF g d a b => some (g.idx ++ BitVec.ofBool g.neg ++ 56#6 ++ d ++ a ++ b ++ 0#1)
  | .fmaxF g d a b => some (g.idx ++ BitVec.ofBool g.neg ++ 56#6 ++ d ++ a ++ b ++ 1#1)
  | .fminD g d a b => some (g.idx ++ BitVec.ofBool g.neg ++ 57#6 ++ d ++ a ++ b ++ 0#1)
  | .fmaxD g d a b => some (g.idx ++ BitVec.ofBool g.neg ++ 57#6 ++ d ++ a ++ b ++ 1#1)
  | .fcmpH g k x c a b => some (g.idx ++ BitVec.ofBool g.neg ++ 58#6 ++ k ++ x ++ 0#1 ++ c ++ a ++ b)
  | .fcmpF g k x c a b => some (g.idx ++ BitVec.ofBool g.neg ++ 58#6 ++ k ++ x ++ 1#1 ++ c ++ a ++ b)
  | .fcmpD g k x c a b => some (g.idx ++ BitVec.ofBool g.neg ++ 59#6 ++ k ++ x ++ 0#1 ++ c ++ a ++ b)
  | .fcvt g d a s t => some (g.idx ++ BitVec.ofBool g.neg ++ 60#6 ++ d ++ a ++ s ++ t ++ 0#1)
  | .nopD  => some (0#32)
  | .waitdc g c v => some (g.idx ++ BitVec.ofBool g.neg ++ 2#7 ++ c ++ v ++ 0#3)
  | .waitm g k => some (g.idx ++ BitVec.ofBool g.neg ++ 2048#16 ++ k ++ 0#3)
  | .waitany g j => some (g.idx ++ BitVec.ofBool g.neg ++ 12288#18 ++ j ++ 0#3)
  | .ffrm g d j => some (g.idx ++ BitVec.ofBool g.neg ++ 4#6 ++ d ++ 0#6 ++ j ++ 0#3)
  | .mclr g k => some (g.idx ++ BitVec.ofBool g.neg ++ 5120#16 ++ k ++ 0#3)
  | .mclrSet g j => some (g.idx ++ BitVec.ofBool g.neg ++ 22528#18 ++ j ++ 0#3)
  | .cfence g m s => some (g.idx ++ BitVec.ofBool g.neg ++ 6#6 ++ m ++ s)
  | .atomAdd g d a q s => some (g.idx ++ BitVec.ofBool g.neg ++ 7#6 ++ d ++ a ++ q ++ s)
  | .atomMin g d a q s => some (g.idx ++ BitVec.ofBool g.neg ++ 8#6 ++ d ++ a ++ q ++ s)
  | .atomMax g d a q s => some (g.idx ++ BitVec.ofBool g.neg ++ 9#6 ++ d ++ a ++ q ++ s)
  | .atomMinz g d a q s => some (g.idx ++ BitVec.ofBool g.neg ++ 10#6 ++ d ++ a ++ q ++ s)
  | .atomMaxz g d a q s => some (g.idx ++ BitVec.ofBool g.neg ++ 11#6 ++ d ++ a ++ q ++ s)
  | .atomAnd g d a q s => some (g.idx ++ BitVec.ofBool g.neg ++ 12#6 ++ d ++ a ++ q ++ s)
  | .atomOr g d a q s => some (g.idx ++ BitVec.ofBool g.neg ++ 13#6 ++ d ++ a ++ q ++ s)
  | .atomXor g d a q s => some (g.idx ++ BitVec.ofBool g.neg ++ 14#6 ++ d ++ a ++ q ++ s)
  | .atomXchg g d a q s => some (g.idx ++ BitVec.ofBool g.neg ++ 15#6 ++ d ++ a ++ q ++ s)
  | .atomCas g d a q s => some (g.idx ++ BitVec.ofBool g.neg ++ 16#6 ++ d ++ a ++ q ++ s)
  | .propose g d a q s => some (g.idx ++ BitVec.ofBool g.neg ++ 17#6 ++ d ++ a ++ q ++ s)
  | .ocread g d a q s => some (g.idx ++ BitVec.ofBool g.neg ++ 18#6 ++ d ++ a ++ q ++ s)
  | .ocrecycle g d a q s => some (g.idx ++ BitVec.ofBool g.neg ++ 19#6 ++ d ++ a ++ q ++ s)
  | .bara g i s => some (g.idx ++ BitVec.ofBool g.neg ++ 81920#18 ++ i ++ s)
  | .barw g p i s => some (g.idx ++ BitVec.ofBool g.neg ++ 1344#12 ++ p ++ i ++ s)
  | .bar g p i s => some (g.idx ++ BitVec.ofBool g.neg ++ 1408#12 ++ p ++ i ++ s)
  | .popw g d a => some (g.idx ++ BitVec.ofBool g.neg ++ 23#6 ++ d ++ a ++ 0#7)
  | .popwB g d a => some (g.idx ++ BitVec.ofBool g.neg ++ 23#6 ++ d ++ a ++ 1#7)
  | .pushw g d a => some (g.idx ++ BitVec.ofBool g.neg ++ 24#6 ++ d ++ a ++ 0#7)
  | .pushwC g d a => some (g.idx ++ BitVec.ofBool g.neg ++ 24#6 ++ d ++ a ++ 1#7)
  | .qpush g d a q => some (g.idx ++ BitVec.ofBool g.neg ++ 25#6 ++ d ++ a ++ 0#1 ++ q)
  | .trigger g => some (g.idx ++ BitVec.ofBool g.neg ++ 13631488#25)
  | .wstat g d a => some (g.idx ++ BitVec.ofBool g.neg ++ 27#6 ++ d ++ a ++ 0#7)
  | .digq g d a c => some (g.idx ++ BitVec.ofBool g.neg ++ 28#6 ++ d ++ a ++ 0#1 ++ c)
  | .digb g t a k => some (g.idx ++ BitVec.ofBool g.neg ++ 29#6 ++ t ++ a ++ 0#2 ++ k)
  | .digrs g d a c => some (g.idx ++ BitVec.ofBool g.neg ++ 30#6 ++ d ++ a ++ 0#1 ++ c)
  | .kvapp g d a p => some (g.idx ++ BitVec.ofBool g.neg ++ 31#6 ++ d ++ a ++ 0#1 ++ p)
  | .nopV  => some (0#32)
  | .vadd g d a b l => some (g.idx ++ BitVec.ofBool g.neg ++ 1#6 ++ d ++ a ++ b ++ l ++ 0#1)
  | .vaddS g d a b l => some (g.idx ++ BitVec.ofBool g.neg ++ 1#6 ++ d ++ a ++ b ++ l ++ 1#1)
  | .vsub g d a b l => some (g.idx ++ BitVec.ofBool g.neg ++ 2#6 ++ d ++ a ++ b ++ l ++ 0#1)
  | .vsubS g d a b l => some (g.idx ++ BitVec.ofBool g.neg ++ 2#6 ++ d ++ a ++ b ++ l ++ 1#1)
  | .vmul g d a b l => some (g.idx ++ BitVec.ofBool g.neg ++ 3#6 ++ d ++ a ++ b ++ l ++ 0#1)
  | .vmulS g d a b l => some (g.idx ++ BitVec.ofBool g.neg ++ 3#6 ++ d ++ a ++ b ++ l ++ 1#1)
  | .vfma g d a b l => some (g.idx ++ BitVec.ofBool g.neg ++ 4#6 ++ d ++ a ++ b ++ l ++ 0#1)
  | .vfms g d a b l => some (g.idx ++ BitVec.ofBool g.neg ++ 5#6 ++ d ++ a ++ b ++ l ++ 0#1)
  | .vmin g d a b l => some (g.idx ++ BitVec.ofBool g.neg ++ 6#6 ++ d ++ a ++ b ++ l ++ 0#1)
  | .vmax g d a b l => some (g.idx ++ BitVec.ofBool g.neg ++ 7#6 ++ d ++ a ++ b ++ l ++ 0#1)
  | .vabs g d a l m => some (g.idx ++ BitVec.ofBool g.neg ++ 8#6 ++ d ++ a ++ 0#5 ++ l ++ m)
  | .vneg g d a l m => some (g.idx ++ BitVec.ofBool g.neg ++ 9#6 ++ d ++ a ++ 0#5 ++ l ++ m)
  | .vrcp g d a l => some (g.idx ++ BitVec.ofBool g.neg ++ 10#6 ++ d ++ a ++ 0#5 ++ l ++ 0#1)
  | .vrsq g d a l => some (g.idx ++ BitVec.ofBool g.neg ++ 11#6 ++ d ++ a ++ 0#5 ++ l ++ 0#1)
  | .vexp2 g d a l => some (g.idx ++ BitVec.ofBool g.neg ++ 12#6 ++ d ++ a ++ 0#5 ++ l ++ 0#1)
  | .vlog2 g d a l => some (g.idx ++ BitVec.ofBool g.neg ++ 13#6 ++ d ++ a ++ 0#5 ++ l ++ 0#1)
  | .vand g d a b l => some (g.idx ++ BitVec.ofBool g.neg ++ 14#6 ++ d ++ a ++ b ++ l ++ 0#1)
  | .vor g d a b l => some (g.idx ++ BitVec.ofBool g.neg ++ 15#6 ++ d ++ a ++ b ++ l ++ 0#1)
  | .vxor g d a b l => some (g.idx ++ BitVec.ofBool g.neg ++ 16#6 ++ d ++ a ++ b ++ l ++ 0#1)
  | .vshl g d a b l => some (g.idx ++ BitVec.ofBool g.neg ++ 17#6 ++ d ++ a ++ b ++ l ++ 0#1)
  | .vshr g d a b l => some (g.idx ++ BitVec.ofBool g.neg ++ 18#6 ++ d ++ a ++ b ++ l ++ 0#1)
  | .vsar g d a b l => some (g.idx ++ BitVec.ofBool g.neg ++ 19#6 ++ d ++ a ++ b ++ l ++ 0#1)
  | .vcmp g c d a b l => some (g.idx ++ BitVec.ofBool g.neg ++ 20#6 ++ c.extractLsb' 1 2 ++ d ++ a ++ b ++ l ++ c.extractLsb' 0 1)
  | .vsel g d a b l => some (g.idx ++ BitVec.ofBool g.neg ++ 21#6 ++ d ++ a ++ b ++ l ++ 0#1)
  | .vcvt g d a f p => some (g.idx ++ BitVec.ofBool g.neg ++ 22#6 ++ d ++ a ++ 0#1 ++ f ++ p ++ 0#1)
  | .vcvtBits g d a f => some (g.idx ++ BitVec.ofBool g.neg ++ 22#6 ++ d ++ a ++ 0#1 ++ f ++ 1#4)
  | .vqntT8 g d a b p => some (g.idx ++ BitVec.ofBool g.neg ++ 23#6 ++ d ++ a ++ b ++ p ++ 0#1)
  | .vqntT6 g d a b p => some (g.idx ++ BitVec.ofBool g.neg ++ 23#6 ++ d ++ a ++ b ++ p ++ 1#1)
  | .vsclT8 g d a => some (g.idx ++ BitVec.ofBool g.neg ++ 24#6 ++ d ++ a ++ 0#9)
  | .vsclT6 g d a => some (g.idx ++ BitVec.ofBool g.neg ++ 24#6 ++ d ++ a ++ 1#9)
  | .vredadd g d a l => some (g.idx ++ BitVec.ofBool g.neg ++ 25#6 ++ d ++ a ++ 0#5 ++ l ++ 0#1)
  | .vredaddS g d a l => some (g.idx ++ BitVec.ofBool g.neg ++ 25#6 ++ d ++ a ++ 0#5 ++ l ++ 1#1)
  | .vredmax g d a l => some (g.idx ++ BitVec.ofBool g.neg ++ 26#6 ++ d ++ a ++ 0#5 ++ l ++ 0#1)
  | .vredmin g d a l => some (g.idx ++ BitVec.ofBool g.neg ++ 27#6 ++ d ++ a ++ 0#5 ++ l ++ 0#1)
  | .vscan g d a l => some (g.idx ++ BitVec.ofBool g.neg ++ 28#6 ++ d ++ a ++ 0#5 ++ l ++ 0#1)
  | .vscanX g d a l => some (g.idx ++ BitVec.ofBool g.neg ++ 28#6 ++ d ++ a ++ 0#5 ++ l ++ 1#1)
  | .vbcast g d f s l => some (g.idx ++ BitVec.ofBool g.neg ++ 29#6 ++ d ++ f ++ s ++ l)
  | .vext g i a s => some (g.idx ++ BitVec.ofBool g.neg ++ 30#6 ++ i.extractLsb' 3 5 ++ a ++ s ++ i.extractLsb' 0 3)
  | .vins g d i s => some (g.idx ++ BitVec.ofBool g.neg ++ 31#6 ++ d ++ i.extractLsb' 3 5 ++ s ++ i.extractLsb' 0 3)
  | .vperm g d a b l => some (g.idx ++ BitVec.ofBool g.neg ++ 32#6 ++ d ++ a ++ b ++ l ++ 0#1)
  | .vslide g d a s l => some (g.idx ++ BitVec.ofBool g.neg ++ 33#6 ++ d ++ a ++ s ++ l)
  | .vhash g d a b l => some (g.idx ++ BitVec.ofBool g.neg ++ 34#6 ++ d ++ a ++ b ++ l ++ 0#1)
  | .viota g d f s l => some (g.idx ++ BitVec.ofBool g.neg ++ 35#6 ++ d ++ f ++ s ++ l)
  | .lmand g d a b => some (g.idx ++ BitVec.ofBool g.neg ++ 144#8 ++ d ++ 0#2 ++ a ++ 0#2 ++ b ++ 0#4)
  | .lmandn g d a b => some (g.idx ++ BitVec.ofBool g.neg ++ 144#8 ++ d ++ 0#2 ++ a ++ 0#2 ++ b ++ 1#4)
  | .lmor g d a b => some (g.idx ++ BitVec.ofBool g.neg ++ 148#8 ++ d ++ 0#2 ++ a ++ 0#2 ++ b ++ 0#4)
  | .lmxor g d a b => some (g.idx ++ BitVec.ofBool g.neg ++ 152#8 ++ d ++ 0#2 ++ a ++ 0#2 ++ b ++ 0#4)
  | .lmnot g d a => some (g.idx ++ BitVec.ofBool g.neg ++ 156#8 ++ d ++ 0#2 ++ a ++ 0#9)
  | .lmcnt g w a s => some (g.idx ++ BitVec.ofBool g.neg ++ 320#9 ++ w ++ 0#2 ++ a ++ s ++ 0#3)
  | .lmff g w a s => some (g.idx ++ BitVec.ofBool g.neg ++ 328#9 ++ w ++ 0#2 ++ a ++ s ++ 0#3)
  | .twr g v t i => some (g.idx ++ BitVec.ofBool g.neg ++ 42#6 ++ v ++ t ++ i ++ 0#6)
  | .trdc g v t i f => some (g.idx ++ BitVec.ofBool g.neg ++ 43#6 ++ v ++ t ++ i ++ f ++ 0#2)
  | .trdr g v t i f => some (g.idx ++ BitVec.ofBool g.neg ++ 44#6 ++ v ++ t ++ i ++ f ++ 0#2)
  | .tzero g t f => some (g.idx ++ BitVec.ofBool g.neg ++ 1440#11 ++ t ++ 0#6 ++ f ++ 0#2)
  | .vchk g a b l => some (g.idx ++ BitVec.ofBool g.neg ++ 1472#11 ++ a ++ b ++ l ++ 0#1)
  | .vchkLm g a b => some (g.idx ++ BitVec.ofBool g.neg ++ 5888#13 ++ a ++ 0#2 ++ b ++ 1#4)
  | .vskb g d a b => some (g.idx ++ BitVec.ofBool g.neg ++ 47#6 ++ d ++ a ++ b ++ 0#4)
  | .vld g v a f m l => some (g.idx ++ BitVec.ofBool g.neg ++ 48#6 ++ v ++ a ++ f ++ m ++ l)
  | .vst g v a k m l => some (g.idx ++ BitVec.ofBool g.neg ++ 49#6 ++ v ++ a ++ k ++ 0#1 ++ m ++ l)
  | .vldg g v a f q => some (g.idx ++ BitVec.ofBool g.neg ++ 50#6 ++ v ++ a ++ f ++ q)
  | .vstg g v a k q => some (g.idx ++ BitVec.ofBool g.neg ++ 51#6 ++ v ++ a ++ k ++ 0#1 ++ q)
  | .vgath g v x a k => some (g.idx ++ BitVec.ofBool g.neg ++ 52#6 ++ v ++ x ++ a ++ 0#1 ++ k)
  | .vgathG g v x a k => some (g.idx ++ BitVec.ofBool g.neg ++ 52#6 ++ v ++ x ++ a ++ 1#1 ++ k)
  | .vscat g v x a k => some (g.idx ++ BitVec.ofBool g.neg ++ 53#6 ++ v ++ x ++ a ++ 0#1 ++ k)
  | .vscatG g v x a k => some (g.idx ++ BitVec.ofBool g.neg ++ 53#6 ++ v ++ x ++ a ++ 1#1 ++ k)
  | .vatom g v x a p => some (g.idx ++ BitVec.ofBool g.neg ++ 54#6 ++ v ++ x ++ a ++ p)
  | .nopM  => some (0#32)
  | .mma g c k a b => some (g.idx ++ BitVec.ofBool g.neg ++ 1#6 ++ c ++ k ++ a ++ b ++ 0#2)
  | .mmaZ g c k a b => some (g.idx ++ BitVec.ofBool g.neg ++ 1#6 ++ c ++ k ++ a ++ b ++ 2#2)
  | .mmas g c k a b => some (g.idx ++ BitVec.ofBool g.neg ++ 2#6 ++ c ++ k ++ a ++ b ++ 0#2)
  | .mmasZ g c k a b => some (g.idx ++ BitVec.ofBool g.neg ++ 2#6 ++ c ++ k ++ a ++ b ++ 2#2)
  | .mzero g c t => some (g.idx ++ BitVec.ofBool g.neg ++ 3#6 ++ c ++ 0#16 ++ t)
  | .mpop g c v r s w => some (g.idx ++ BitVec.ofBool g.neg ++ 4#6 ++ c ++ 0#1 ++ v ++ r ++ s ++ w)
  | .mpush g c v r s => some (g.idx ++ BitVec.ofBool g.neg ++ 5#6 ++ c ++ 0#1 ++ v ++ r ++ s ++ 0#2)
  | .mret g c => some (g.idx ++ BitVec.ofBool g.neg ++ 6#6 ++ c ++ 0#17)
  | .mfmt g c t => some (g.idx ++ BitVec.ofBool g.neg ++ 7#6 ++ c ++ 0#16 ++ t)
  | .mflush g b a => some (g.idx ++ BitVec.ofBool g.neg ++ 1048576#23 ++ b ++ a)
  | .mflushPc g s b a => some (g.idx ++ BitVec.ofBool g.neg ++ 32#8 ++ s ++ 1#9 ++ b ++ a)
  | .mstat g d => some (g.idx ++ BitVec.ofBool g.neg ++ 36#8 ++ d ++ 0#11)
  | .mstatC g d => some (g.idx ++ BitVec.ofBool g.neg ++ 36#8 ++ d ++ 1#11)
  | .nopC  => some (0#32)
  | .dld g d a => some (g.idx ++ BitVec.ofBool g.neg ++ 1#6 ++ d ++ a ++ 0#9)
  | .dset g d a f => some (g.idx ++ BitVec.ofBool g.neg ++ 2#6 ++ d ++ a ++ 0#4 ++ f)
  | .dsetAdd g d a f => some (g.idx ++ BitVec.ofBool g.neg ++ 2#6 ++ d ++ a ++ 1#4 ++ f)
  | .msetw g j a => some (g.idx ++ BitVec.ofBool g.neg ++ 3#6 ++ j ++ a ++ 0#9)
  | .cpy g d m s e f l => some (g.idx ++ BitVec.ofBool g.neg ++ 4#6 ++ d ++ m ++ s ++ e ++ f ++ l ++ 0#2)
  | .cpym g d m s e => some (g.idx ++ BitVec.ofBool g.neg ++ 5#6 ++ d ++ m ++ s ++ e ++ 0#4)
  | .cpyq g d m s e f l => some (g.idx ++ BitVec.ofBool g.neg ++ 6#6 ++ d ++ m ++ s ++ e ++ f ++ l ++ 0#2)
  | .cpyx g d m s e f => some (g.idx ++ BitVec.ofBool g.neg ++ 7#6 ++ d ++ m ++ s ++ e ++ f ++ 0#3)
  | .gath g d m s w p => some (g.idx ++ BitVec.ofBool g.neg ++ 8#6 ++ d ++ m ++ s ++ w ++ p)
  | .feed g d m s e c f => some (g.idx ++ BitVec.ofBool g.neg ++ 9#6 ++ d ++ m ++ s ++ e ++ c ++ f)
  | .drain g d m s a c => some (g.idx ++ BitVec.ofBool g.neg ++ 10#6 ++ d ++ m ++ s ++ a ++ c)
  | .lsend g a m s => some (g.idx ++ BitVec.ofBool g.neg ++ 11#6 ++ a ++ m ++ s ++ 0#3)
  | .lrecv g a m s => some (g.idx ++ BitVec.ofBool g.neg ++ 12#6 ++ a ++ m ++ s ++ 0#3)
  | .lrxadd g a m s f => some (g.idx ++ BitVec.ofBool g.neg ++ 13#6 ++ a ++ m ++ s ++ f)
  | .pickContext => none
  | .engineCommandStart => none
  | .engineCommandComplete => none
  | .deviceReplyArrival => none
  | .multicastArrival => none
  | .feedLineWrite => none
  | .matrixKStep => none
  | .accumulatorCommit => none
  | .mAccCommit => none
  | .mflushEffect => none
  | .checkpoint => none
  | .holdingEntryPerform => none
  | .rollbackEvent => none
  | .rollbackRestore => none
  | .translationWalk => none
  | .xresolve => none
  | .frcons => none
  | .xinv => none
  | .xinvComplete => none
  | .offer => none
  | .fitoffer => none
  | .returnHead => none
  | .skiphead => none
  | .ganggo => none
  | .memberCreation => none
  | .contextRestore => none
  | .killMember => none
  | .bindRecordWrite => none
  | .isflush => none
  | .kvreclaim => none
  | .kvtscfg => none
  | .kvtscfgComplete => none
  | .registerWrite => none
  | .headPresent => none
  | .headEligible => none
  | .absentHeadTimeout => none
  | .qpushHomeStep => none
  | .teamCompletion => none
  | .coreFree => none
  | .phaseOverrun => none
  | .yieldDeadline => none
  | .waitPreemption => none
  | .contextSave => none
  | .saveComplete => none
  | .kvappExecute => none
  | .atomHomeStep => none
  | .onceCellHomeStep => none
  | .workQueueHomeStep => none
  | .barrierPhaseComplete => none
  | .windowAccessArrival => none
  | .homeWriteStep => none
  | .linkPair => none
  | .linkPortDown => none
  | .flitRetransmit => none
  | .linkRetrain => none
  | .rdmaWrite => none
  | .rdmaRead => none
  | .rdmaFetchAdd => none
  | .regionActivate => none
  | .sieveBlockScan => none
  | .regionDestroy => none
  | .digestEntryEccError => none
  | .heartbeatSend => none
  | .heartbeatReceive => none
  | .periodEnd => none
  | .babbleClear => none
  | .accusationReceive => none
  | .accusationRenew => none
  | .accusationExpiry => none
  | .withdrawalReceive => none
  | .quorumCheck => none
  | .fenceNoticeReceive => none
  | .watchMapUpdate => none
  | .strikeLapse => none
  | .selfTestComplete => none
  | .admissionReceive => none
  | .readmissionNoticeReceive => none
  | .probationTimeout => none
  | .correctedError => none
  | .quiesceEnd => none
  | .thsConversion => none
  | .throttleStep => none
  | .powerPageUpdate => none
  | .packageReset => none
  | .attestationRequest => none
  | .postFatalDump => none
  | .linkPortUp => none
  | .uncorrectableError => none

/-- Whether the instruction is a slot's NOP (R91). -/
def Instr.isNop : Instr → Bool
  | .nopb _ _ | .nopS | .nopD | .nopV | .nopM | .nopC => true
  | _ => false

/-- The order in which the slots are tried for a word that does not name its slot. -/
def tableSlots : List (BitVec 3) := [1, 3, 2, 6, 5, 0]

/-- The slot whose instruction a bare word is taken for: a word names no slot, and one word may be an instruction of
several slots, so the first slot of `tableSlots` that reads an instruction other than NOP is taken, else the first that
reads a NOP. DESIGN CHOICE: log 10. -/
def tableSlot (w : BitVec 32) : Option (BitVec 3) :=
  match tableSlots.find? (fun s => match decodeSlot s w with | .ok i => !i.isNop | .error _ => false) with
  | some s => some s
  | none => tableSlots.find? (fun s => match decodeSlot s w with | .ok _ => true | .error _ => false)

/-- The instruction that the decoder reads from the word `w`, in the slot that `tableSlot` takes it for. -/
def decodeTableWord (nbits w : Nat) : Option Instr :=
  let word := BitVec.ofNat 32 (w % 2 ^ nbits)
  match tableSlot word with
  | none => none
  | some s => match decodeSlot s word with
    | .ok i => some i
    | .error _ => none

end Sys2Proof
end

