-- ==== Sys2Proof/Config.lean ====
section
/-!
DEFINITION. What an implementation, a configuration or an outside standard fixes, and the free values: constants with no
body that a proof can see (assumption log 3, 7, 8).
-/
namespace Sys2Proof

/-- A free choice among enabled actions, by a counter of the state. -/
opaque Config.choice : Nat → Nat

/-- A free 64-bit value, by a counter of the state. -/
opaque Config.freeWord : Nat → Word

/-- `PKGID` of this package, px + 4 py + 16 pz (R17). -/
opaque Config.pkgId : BitVec 6

/-- `PODID`, which firmware assigns at boot (R36). -/
opaque Config.podId : BitVec 16

/-- Whether the part is a PLX-L120, of which two quads are fused off (R1). -/
opaque Config.binned : Bool

/-- The two quads that a PLX-L120 lacks: the first, and how far beyond it, less one, the second lies (R1). -/
opaque Config.fusedFirst : BitVec 5
opaque Config.fusedStep : Fin 31

/-- Whether the quad is fused off: none of a PLX-L128 or PLX-M128, two of a PLX-L120 (R1, R2). -/
def Config.fusedQuad (q : BitVec 5) : Bool :=
  binned && (q.toNat = fusedFirst.toNat || q.toNat = (fusedFirst.toNat + fusedStep.val + 1) % 32)

/-- The extent of the pod's torus in dimension 0 X, 1 Y or 2 Z, as a power of two: 1, 2 or 4 packages (R17). -/
opaque Config.extent : BitVec 2 → Fin 3

/-- The bank of a row of HBM (R406). -/
opaque Config.rowBank : BitVec 45 → Nat

/-- Whether a stack exists: package and stack number within it (R335, R407). -/
opaque Config.stackPresent : BitVec 6 → BitVec 3 → Bool

/-- The 16-bit check of a heartbeat over its bits 63 to 16 (R391); the spec does not give the function. -/
opaque Config.heartbeatCheck : BitVec 48 → BitVec 16

/-- Whether a tile's Trellis fails to send its heartbeats of a period: faults of the hardware, by package tile number and period. -/
opaque Config.silent : BitVec 7 → Nat → Bool

/-- SHAKE256 with a 64-byte output (R413), an outside standard. -/
opaque Config.shake256 : List Byte → BitVec 512

/-- Falcon-1024 verification of a signature over a digest with a public key (R413), an outside standard. -/
opaque Config.falconVerify : List Byte → List Byte → BitVec 512 → Bool

/-- The device identity key's Falcon-1024 signature over a digest (R415). -/
opaque Config.falconSign : BitVec 512 → List Byte

/-- The boot flash, by byte address (R413). -/
opaque Config.flash : Nat → Byte

/-- The digest fused into the package and the fused anti-rollback counter (R413). -/
opaque Config.fusedKeyDigest : BitVec 512
opaque Config.fusedCounter : BitVec 32

/-- The boot ROM's identity string (R414). -/
opaque Config.romIdentity : List Byte

/-- The package serial of the attestation report (R415). -/
opaque Config.serial : BitVec 64

/-- Which of the four lane counts a pod-link port trains, 0 when it has no cable (R407, R418). -/
opaque Config.laneCode : BitVec 4 → Fin 4

/-- Lanes that a pod-link port trains: 0, 2, 4 or 8 (R418). -/
def Config.lanes (p : BitVec 4) : BitVec 4 := if laneCode p = 0 then 0 else BitVec.ofNat 4 (2 ^ (laneCode p).val)

end Sys2Proof
end

