-- ==== Sys2Proof/Machine/State.lean ====
section
/-!
DEFINITION. The state of a package: everything the spec gives the machine, as plain data, and the state after reset.
-/
namespace Sys2Proof.Machine

/-! ## Registers of a context and of a core -/

/-- A vector register: its 256 bytes and its format tag (R26). -/
structure VReg where
  bits : VBits
  tag : BitVec 4
  deriving DecidableEq, Repr

/-- A tile register: row `r` is bits `2048 r` to `2048 r + 2047`; one tag for all rows (R28). -/
structure TReg where
  bits : BitVec 131072
  tag : BitVec 4
  deriving DecidableEq, Repr

/-- The registers of which each context owns a copy (R22). -/
structure Priv where
  /-- `s0` to `s63`; `s0` reads as zero whatever is stored (R23). -/
  s : Bank 6 Word
  /-- `p0` to `p47`, `pj` in bit `j`; `p0` reads as true whatever is stored (R23). -/
  p : BitVec 48
  /-- `b0` to `b3`: signed bundle offsets (R122). -/
  b : Bank 2 (BitVec 32)
  /-- `dc0` to `dc7` (R25). -/
  dc : Bank 3 (BitVec 12)
  deriving DecidableEq, Repr

/-- One entry of the loop stack: iterations left, first and last bundle of the body (R126). -/
structure Loop where
  left : BitVec 32
  first : BitVec 13
  last : BitVec 13
  deriving DecidableEq, Repr

/-- The registers that all contexts of a member use and that a rollback of the main context restores (R22, R371). -/
structure Shared where
  v : Bank 5 VReg
  lm : Bank 3 (BitVec 256)
  t : Bank 2 TReg
  mready : BitVec 64
  mstale : BitVec 64
  merr : BitVec 64
  /-- For each mark, the commands in flight that produce it (R32). -/
  mpend : Bank 6 Nat
  /-- For each mark, bits that its next return to zero sets in `MSTALE` (bit 0) and `MERR` (bit 1) (R32). -/
  mbits : Bank 6 (BitVec 2)
  ms : Bank 4 (BitVec 21)
  d : Bank 4 (BitVec 512)
  efmt : BitVec 32
  /-- SETEF writes not yet in force: the SCHED count of the first bundle that sees each, oldest first (R35). -/
  efmtPend : List (Nat × BitVec 8)
  frm : BitVec 32
  seed : Word
  /-- The loop stack, innermost first, at most four deep (R126). -/
  loops : List Loop
  mpc : BitVec 24
  /-- SAT, NR, OV, NV of MSTAT in bits 3 to 0 (R184). -/
  mflags : BitVec 4
  deriving DecidableEq, Repr

/-- The state of an accumulator (R29). -/
inductive AccSt where
  | empty | live | liveRet | retired
  deriving DecidableEq, Repr

/-- An accumulator's type (R172). -/
inductive AccTy where
  | fp32 | i32
  deriving DecidableEq, Repr

/-- An accumulator: element (row, col) is bits `32 (256 row + col)` upward (R29). -/
structure Acc where
  st : AccSt
  ty : AccTy
  bits : BitVec 1048576
  deriving DecidableEq, Repr

/-- One line of an operand FIFO: its tag, its bytes and the phase of the FEED that wrote it (R31, R168). -/
structure FLine where
  tag : BitVec 4
  bits : VBits
  phase : Nat
  /-- Its ECC error is uncorrectable (R380). -/
  bad : Bool
  deriving DecidableEq, Repr

/-- An operand FIFO: the lines held, oldest first, and the lines retained since the last checkpoint, oldest first (R31). -/
structure Fifo where
  held : List FLine
  retained : List FLine
  deriving DecidableEq, Repr

/-- A register as the group rule and the interlock name it (R73). Predicates, masks, tiles and the others each under their own
number. -/
inductive RegId where
  | s (n : BitVec 6) | p (n : BitVec 6) | b (n : BitVec 2) | dc (n : BitVec 3)
  | v (n : BitVec 5) | lm (n : BitVec 3) | t (n : BitVec 2) | ms (n : BitVec 4) | d (n : BitVec 4)
  deriving DecidableEq, Repr

/-- A register whose pending write is ready at the core cycle `ready` (R74, R105, R140). Registers that wait for a reply are those
that the core's requests name. -/
structure Busy where
  ctx : BitVec 2
  reg : RegId
  ready : Nat
  deriving DecidableEq, Repr

/-! ## Traps -/

/-- The trap causes, in the order of their codes 1 to 15 (R369). -/
inductive Cause where
  | illegalEnc | illegalGroup | illegalSlot | tagMismatch | checkMismatch | dataUe | xlateFault | prot | align
  | spadRange | cmpAccess | holdOverflow | swTrap | brk | fenced
  deriving DecidableEq, Repr

/-- What a trap carries into its fault record (R385): the unit, the address, the DETAIL field. -/
structure Trap where
  cause : Cause
  unit : BitVec 8
  addr : BitVec 64
  detail : BitVec 64
  deriving DecidableEq, Repr

/-- Why a context issues no bundle (R75, R171). -/
inductive Hold where
  /-- An interlocked register (R74). -/
  | interlock
  /-- A wait instruction: WAITDC, WAITM, WAITANY, BARW, the wait of BAR, POPW.b, FJOIN or RELC (R75). `pre` says that R327 names it. -/
  | wait (pre : Bool)
  /-- A translation that a walk must supply (R339). -/
  | walk
  /-- A translation fault with its token (R341). -/
  | stall (token : Nat)
  /-- A full command queue (R211). -/
  | queueFull
  /-- A full matrix queue or a checkpoint's drain: a matrix wait (R171). -/
  | matrix
  /-- No room in the holding-buffer partition (R372). -/
  | room
  /-- A device request limit, an earlier irrevocable operation or a fence that has not completed (R191, R200, R254). -/
  | order
  /-- The matrix engine starves (R170). -/
  | starve
  /-- A pending checkpoint (R371). -/
  | checkpoint
  deriving DecidableEq, Repr

/-! ## Checkpoints and the holding buffer -/

/-- Why a checkpoint is taken, which fixes what follows it (R133, R134, R128, R129, R131, R132, R199, R214, R372). -/
inductive CkWhy where
  | chkpt
  | yield (n : BitVec 28)
  | relc
  | tendInline
  | tendTail
  | endMember
  /-- Before a bundle that carries an irrevocable operation (R199). -/
  | irrevBefore
  /-- Before the elements of a VGATH.g or VSCAT.g with an element on an SC page (R195). -/
  | scGather
  /-- After an irrevocable operation's result (R199). -/
  | irrevAfter
  /-- Before a bundle that carries TRIGGER, in every context of the member (R209). -/
  | trigger
  /-- Before a WAITM or WAITANY on gated commands (R214). -/
  | gatedWait
  /-- On overflow of the partition (R372). -/
  | overflow
  deriving DecidableEq, Repr

/-- A checkpoint that its context has reached and that its drain still holds back: the restart point it records. -/
structure Ckpt where
  why : CkWhy
  restart : BitVec 13
  /-- The restart bundle is a BAR that resumes as its BARW part alone (R199). -/
  barwOnly : Bool
  /-- SLICE as it stood before the bundle (R329). -/
  slice : BitVec 32
  deriving DecidableEq, Repr

/-- A holding-buffer entry: 64 bytes of one device block, which of them are held, and the class and number of the most
recent store that wrote it (R40, R252). -/
structure HEntry where
  /-- Physical address of the block. -/
  pa : BitVec 45
  mask : BitVec 64
  bytes : BitVec 512
  cls : BitVec 4
  /-- Store number, for the release order within a class. -/
  seq : Nat
  /-- The phase of the context in which it was stored. -/
  phase : Nat
  /-- Address space and virtual pages through which stores of the entry were translated (R340). -/
  asid : BitVec 8
  vpns : List (BitVec 36)
  /-- How many fences the phase had issued before this store (R252). -/
  fences : Nat
  deriving DecidableEq, Repr

/-- A CFENCE of scope `core` in force: its mask, the number of the first request or command issued after it, the phase of its context, and the
store counters of the three contexts, which tell the withheld stores after it (R200, R255). -/
structure CoreFence where
  mask : BitVec 16
  next : Nat
  phase : Nat
  seq0 : Nat
  seq1 : Nat
  seq2 : Nat
  deriving DecidableEq, Repr

/-- Why a phase is unprotected (R373). -/
inductive Unprot where
  | safe | overflow | liveAcc | irrev | fifo
  deriving DecidableEq, Repr

/-- How a context runs: the main context is `running` while a member is bound; a tail as TAILST codes it (R38, R279). -/
inductive CtxRun where
  | free | running | ended
  deriving DecidableEq, Repr

/-- A context of a core (R22, R280). -/
structure Ctx where
  run : CtxRun
  regs : Priv
  /-- Index of the next bundle to fetch. -/
  ix : BitVec 13
  /-- Registers written by the bundles of the open group (R73). -/
  group : List RegId
  /-- The duplicate set's copy of `regs`, the restart point and its BARW-only mark (R371). -/
  dup : Priv
  restart : BitVec 13
  restartBarw : Bool
  /-- The bundle at `ix` issues only its BARW part (R199). -/
  barwOnly : Bool
  hold : Option Hold
  /-- The core cycle at which the next bundle has been fetched (R105, R371). -/
  fetchAt : Nat
  /-- A tail issues only when the main context has entered this phase and the stores it released before have performed (R261). -/
  afterPhase : Nat
  /-- Found ready in this cycle (R282). -/
  ready : Bool
  /-- Cycles in which the tail was ready and did not issue (R282). -/
  w : Nat
  /-- A checkpoint that waits for its drain. -/
  ck : Option Ckpt
  /-- The implicit checkpoint before the bundle at `ix` has been taken (R199, R214, R372). -/
  ckDone : Bool
  /-- An irrevocable operation of this context is out and its second checkpoint not yet taken (R199). -/
  irrevOut : Bool
  /-- The bundle that follows a BAR whose BARW part is still to issue (R199). -/
  irrevNext : BitVec 13
  /-- The BARW part at `ix` belongs to a BAR that has issued in this phase: its bundle has been counted (R75). -/
  barWaiting : Bool
  /-- Entries of the current phase, oldest store first (R40). -/
  part : List HEntry
  /-- Released entries that have not performed (R372). -/
  released : List HEntry
  /-- Number of the current phase, counted from the context's creation. -/
  phase : Nat
  unprot : Unprot
  /-- Rollback events in this phase (R376). -/
  rolls : Nat
  /-- A rollback event detected and not yet acted on (R374). -/
  rollPend : Option Trap
  /-- It was detected in this cycle, whose issue-time freeze or fatal trap would outrank it (R370). -/
  rollFresh : Bool
  /-- A rollback event whose restore waits for loads (R374). -/
  rolling : Option Trap
  /-- Class masks of the CFENCEs of the phase, oldest first (R252). -/
  fences : List (BitVec 16)
  /-- The masks of the phase whose entries stand in `released` (R252). -/
  relFences : List (BitVec 16)
  /-- CFENCEs of scope `core` that later accesses of the core must not overtake (R200, R255). -/
  coreFences : List CoreFence
  /-- Store counter of the context. -/
  storeSeq : Nat
  /-- Cycles for which a wait that R327 names has held the context. -/
  waitCycles : Nat
  /-- CYC at the last checkpoint (R326). -/
  phaseStart : Nat
  /-- A wait that pre-emption cancelled issues again (R291, R348). -/
  cancelledWait : Bool
  /-- Bundles that have committed since the last checkpoint (R291). -/
  issued : Nat
  /-- The commands, by tile and number, that were queued in the quad when the bundle at `ix` first waited for one with may-alias (R190, R250). -/
  queued : Option (List (BitVec 7 × Nat))
  deriving DecidableEq, Repr

/-- A held frame of a tail: [base, top) (R284). -/
structure Frame where
  base : BitVec 24
  top : BitVec 24
  deriving DecidableEq, Repr

/-- The inline record of a RELC that found no free tail (R128). -/
structure Inline where
  a : BitVec 24
  ret : BitVec 64
  pm : BitVec 6
  s18 : List Word
  p14 : BitVec 4
  deriving DecidableEq, Repr

/-! ## Matrix engine -/

/-- What a matrix-queue entry does (R169). -/
inductive MKind where
  | mma | mmas | flush
  deriving DecidableEq, Repr

/-- A matrix-queue entry with the operand lines it has consumed (R169, R174, R176, R183). -/
structure MEntry where
  kind : MKind
  acc : BitVec 2
  k : Nat
  af : BitVec 3
  bf : BitVec 3
  efmt : BitVec 32
  /-- The accumulator as observed at issue, already zero when Z is set or it was empty. -/
  base : BitVec 1048576
  /-- The literal word of an MMAS. -/
  lit : BitVec 32
  start : Nat
  busy : Nat
  ready : Nat
  /-- k-steps consumed. -/
  steps : Nat
  aLines : List VBits
  bLines : List VBits
  aScales : List VBits
  bScales : List VBits
  flushA : Bool
  flushB : Bool
  mpc : Option (BitVec 24)
  phase : Nat
  deriving DecidableEq, Repr

/-- A pending write of an accumulator (R173, R177). -/
inductive AccWrite where
  | mma (e : MEntry)
  | zero (ty : AccTy)
  /-- `fresh` says that the accumulator was empty at issue (R173, R179). -/
  | push (row : BitVec 7) (seg : BitVec 2) (src : VReg) (fresh : Bool)
  | fmt (ty : AccTy) (observed : Acc)
  deriving DecidableEq, Repr

/-- A pending accumulator write with its ready tick. -/
structure AccPend where
  acc : BitVec 2
  ready : Nat
  write : AccWrite
  phase : Nat
  deriving DecidableEq, Repr

/-! ## Engine commands and device requests -/

/-- A block whose version a checked command has read (R243). -/
structure VerRead where
  region : BitVec 8
  block : Nat
  v1 : BitVec 32
  v2 : BitVec 32
  deriving DecidableEq, Repr

/-- An engine command (R211). -/
structure Cmd where
  id : Nat
  i : Instr
  ctx : BitVec 2
  phase : Nat
  /-- The main context's phase at issue (R32). -/
  mphase : Nat
  mark : BitVec 6
  ms : BitVec 21
  d0 : BitVec 512
  d1 : BitVec 512
  /-- The transfer word of a link command (R236). -/
  link : Word
  efmt : BitVec 32
  gated : Bool
  released : Bool
  started : Bool
  /-- Units, chunks or granules done (R213). -/
  progress : Nat
  /-- Bytes of a line being built by FEED. -/
  buf : List Byte
  /-- The pinned block of a GATH: slot-state word address (R233). -/
  pin : Option (BitVec 45)
  err : Bool
  /-- A CPYM has sent its arrivals (R223). -/
  sent : Bool
  done : Bool
  vers : List VerRead
  /-- Matrix flags that a DRAIN raises at completion (R235). -/
  flags : BitVec 4
  /-- The accumulator that a DRAIN observed at issue (R76). -/
  snap : Option Acc
  /-- Scratchpad bytes of the current unit that have still to perform: tile, place, byte (R248, R250). -/
  pend : List (BitVec 7 × Nat × Byte)
  deriving DecidableEq, Repr

/-- The kinds of device or window request of a context. -/
inductive ReqKind where
  | load (n : Nat) (sx : Bool)
  | vload (tag : BitVec 4)
  | gather (tag : BitVec 4)
  | scatter (tag : BitVec 4)
  | store
  | atom (op : BitVec 4)
  | vatom (op : BitVec 3) (tag : BitVec 4)
  | once (op : BitVec 2)
  | pop (block : Bool)
  | push (close : Bool)
  | qpush (q : BitVec 6)
  | wstat
  | digq (n : Nat) (mark : BitVec 6)
  | digb (k : BitVec 5)
  | digrs (n : Nat)
  | kvapp (pd : BitVec 6)
  | winLoad (n : Nat) (sx : Bool)
  | winVLoad (tag : BitVec 4) (layout : BitVec 3)
  | winStore
  | barrier
  | trigger
  deriving DecidableEq, Repr

/-- What the translation of an access gave of its page: RC, ONCE and the level of the leaf (R189, R339, R356). -/
structure PageUse where
  rc : Bool
  once : Bool
  level : BitVec 2
  deriving DecidableEq, Repr

/-- A request of a context that has issued and whose reply has not arrived (R191, R199). -/
structure Req where
  id : Nat
  ctx : BitVec 2
  slot : BitVec 3
  phase : Nat
  mphase : Nat
  kind : ReqKind
  cls : BitVec 4
  /-- The dependence counter it counts on (R84). -/
  dc : Option (BitVec 3)
  va : BitVec 64
  pa : BitVec 45
  /-- Destination register number, in the register file its kind names. -/
  dst : BitVec 6
  x : Word
  y : Word
  /-- Bytes to store, loaded bytes with a mask of those forwarded, or a vector operand, by kind. -/
  bits : VBits
  mask : BitVec 256
  /-- Element addresses of an indexed access (R195, R196). -/
  addrs : List (Nat × BitVec 64)
  /-- Translated element addresses, in element order. -/
  pas : List (Nat × BitVec 45)
  progress : Nat
  irrev : Bool
  sc : Bool
  /-- The page of each of `pas` (R189, R339). -/
  pages : List PageUse
  /-- The entries of the context's partition that a gather sees, as they stood before its bundle (R72, R191). -/
  fwd : List HEntry
  /-- The home step has performed: values for the destination (R201, R203, R208). -/
  result : Option (Word × Word)
  /-- Address space through which it was translated (R340). -/
  asid : BitVec 8
  /-- Waits at home (POPW.b on an empty queue, R332). -/
  waiting : Bool
  /-- Its data is discarded on arrival, after a rollback (R374). -/
  discard : Bool
  deriving DecidableEq, Repr

/-- A once-cache entry (R360). -/
structure OnceEntry where
  asid : BitVec 8
  cell : BitVec 47
  gen : BitVec 32
  value : Word
  wctx : BitVec 2
  wtile : BitVec 13
  deriving DecidableEq, Repr

/-- A block map cache entry, tagged with the level of its page (R232, R339). -/
structure BmcEntry where
  asid : BitVec 8
  va : BitVec 52
  level : BitVec 2
  entry : BitVec 32
  deriving DecidableEq, Repr

/-- A cached translation: page size as the level of its leaf (R336, R339). -/
structure TlbEntry where
  asid : BitVec 8
  /-- Virtual page base. -/
  va : BitVec 52
  level : BitVec 2
  leaf : BitVec 64
  deriving DecidableEq, Repr

/-- A line of the read-only cache, tagged with the level of its page (R189, R339). -/
structure RoLine where
  asid : BitVec 8
  va : BitVec 52
  level : BitVec 2
  bytes : BitVec 512
  deriving DecidableEq, Repr

/-- The resident overlay of a core (R351). -/
structure Overlay where
  imageId : BitVec 64
  tagged : Bool
  bundles : List (BitVec 256)
  lits : List (BitVec 32)
  deriving DecidableEq, Repr

/-- The bundle that is issuing, and what its slots have found (R72, R92). -/
structure Issue where
  ctx : BitVec 2
  slot : BitVec 3
  ix : BitVec 13
  /-- Private and shared registers as they stood before the bundle (R72). -/
  pre : Priv
  preSh : Shared
  /-- The context's withheld stores as they stood before the bundle, which its loads see (R40, R72). -/
  part : List HEntry
  /-- The leaf that the bundle's TREE makes true; 4 without a TREE (R71). -/
  leaf : BitVec 3
  /-- The XIMM of the bundle: target slot and payload (R85). -/
  ximm : Option (BitVec 3 × BitVec 19)
  /-- FRM flags raised by the bundle (R37). -/
  flags : BitVec 32
  /-- Target of a taken transfer (R104). -/
  target : Option (BitVec 13)
  /-- The transfer is a CALL or CALLR, which keeps the loop (R127). -/
  isCall : Bool
  /-- The last bundle of the body that a LOOP with count zero skips (R126). -/
  skip : Option Nat
  trap : Option Trap
  hold : Option Hold
  /-- A checkpoint that must come before the bundle (R199, R214, R372). -/
  ckBefore : Option CkWhy
  /-- Scratchpad banks that slots of the bundle have claimed, by tile and bank, and the cycles that claims of busy banks cost
  (R190, R350). -/
  claims : List Nat
  extra : Nat
  /-- The number of the first request that the bundle sends. -/
  firstId : Nat
  /-- The context that PICK_CONTEXT chose. -/
  picked : Option (BitVec 2)
  deriving DecidableEq, Repr

/-- What a freeze kept (R384). -/
structure Frozen where
  cause : Cause
  ctx : BitVec 2
  ix : BitVec 13
  deriving DecidableEq, Repr

/-- A line of a register file, an accumulator or the instruction store (R380). A register that the contexts share has `ctx` 0. -/
inductive PLine where
  | reg (ctx : BitVec 2) (r : RegId)
  | tile (t : BitVec 2) (row : BitVec 6)
  | acc (a : BitVec 2) (row : BitVec 7)
  | bundle (ix : BitVec 13)
  deriving DecidableEq, Repr

/-- Progress of a pre-emption (R327, R344). -/
inductive SaveSt where
  | none | wanted | reached | waiting | writing
  deriving DecidableEq, Repr

/-- What a call of RELC leaves beside the registers: `inline`, `latest` and `TAILST.INLINE` (R128, R129). -/
structure CallSt where
  inline : Option Inline
  latest : Option (Option Bool × BitVec 24)
  inlineBit : Bool
  deriving DecidableEq, Repr

/-- One tile's core with the member bound to it. -/
structure Core where
  main : Ctx
  tail0 : Ctx
  tail1 : Ctx
  sh : Shared
  dupSh : Shared
  /-- Marks, mark sets and descriptors that a tail has written since the main context's checkpoint (R288). -/
  tailMarks : BitVec 64
  tailMs : BitVec 16
  tailD : BitVec 16
  /-- `MREADY` bits that multicast arrivals set since the checkpoint (R374). -/
  mcast : BitVec 64
  acc : Bank 2 Acc
  fa : Fifo
  fb : Fifo
  spad : List Host.Cell
  /-- Lines of scratchpad (64 bytes) whose ECC error is uncorrectable, with the bytes that engine writes have covered since (R380,
  R381). -/
  spadPoison : List (Nat × BitVec 64)
  /-- Lines of registers, accumulators and the instruction store, and, for each context, whether one of its duplicate set, whose ECC
  error is uncorrectable (R380). -/
  linePoison : List PLine
  dupPoison : BitVec 3
  /-- Neighbours, by direction, that were suspect when the member was created and whose state has not changed since (R39). -/
  bornSuspect : BitVec 4
  sched : BitVec 64
  cyc : BitVec 64
  rank : BitVec 13
  team : BitVec 32
  asid : BitVec 8
  ckey : BitVec 32
  frame0 : Option Frame
  frame1 : Option Frame
  /-- The record `latest`: the tail (or none) and the frame top (R128). -/
  latest : Option (Option Bool × BitVec 24)
  inline : Option Inline
  /-- `TAILST.INLINE`. -/
  inlineBit : Bool
  /-- `inline`, `latest` and `TAILST.INLINE` at the main context's last checkpoint, which a rollback restores. DEDUCED: log 101. -/
  dupCall : CallSt
  mq : List MEntry
  apend : List AccPend
  /-- Start tick plus busy time of the last queued entry (R169). -/
  mEnd : Nat
  /-- Ticks by which matrix waits have run the pipeline ahead of SCHED (R171). -/
  mOff : Nat
  q0 : List Cmd
  q1 : List Cmd
  reqs : List Req
  nextId : Nat
  busy : List Busy
  divFree : Nat
  once : List OnceEntry
  ro : List RoLine
  bmc : List BmcEntry
  utlb : List TlbEntry
  ctlb : List TlbEntry
  overlay : Option Overlay
  cur : Issue
  frozen : Option Frozen
  save : SaveSt
  /-- END has halted fetch and the core waits to be freed (R132). -/
  ending : Bool
  /-- Yield deadline in CYC cycles, and whether its late record was posted (R328). -/
  deadline : Option Nat
  latePosted : Bool
  overPosted : Bool
  triggered : Bool
  /-- A member is bound and created. -/
  bound : Bool
  deriving DecidableEq, Repr

/-! ## The package -/

/-- Arguments of an event: what names the agent that acts and what reaches the machine from outside. Each event reads the
fields its docstring names. -/
structure EvArgs where
  tile : BitVec 7
  other : BitVec 7
  third : BitVec 7
  die : BitVec 2
  ctx : BitVec 2
  eng : BitVec 1
  dir : BitVec 2
  queue : BitVec 6
  port : BitVec 4
  id : Nat
  gang : BitVec 16
  addr : BitVec 64
  value : BitVec 512
  count : Nat
  flag : Bool
  data : List Byte
  /-- The arrival number of an access from outside that a home holds (R405); 0 before it has one. -/
  ticket : Nat
  deriving DecidableEq, Repr

/-- An event with its arguments. -/
structure Event where
  i : Instr
  args : EvArgs
  deriving DecidableEq, Repr

/-- An input from outside the machine, which lands after `after` further steps. -/
structure Input where
  after : Nat
  ev : Event
  deriving DecidableEq, Repr

/-- A miss that a page walk serves (R339): the tile, the unit (0 to 3 the S, D, V0, V1 slot of context `ctx`, 4 and 5 the copy
engines, 6 a request), the request or command number, the address. -/
structure Walk where
  id : Nat
  tile : BitVec 7
  ctx : BitVec 2
  unit : BitVec 3
  cmd : Nat
  asid : BitVec 8
  va : BitVec 64
  /-- 0 read, 1 write, 2 atomic or queue (R342). -/
  access : BitVec 2
  progress : Nat
  /-- Set while a fault with this token waits for XRESOLVE (R343). -/
  token : Option Nat
  deriving DecidableEq, Repr

/-- The fault ring registers of a die (R342). -/
structure Ring where
  base : BitVec 45
  cap : BitVec 32
  prod : BitVec 64
  cons : BitVec 64
  irq : Bool
  deriving DecidableEq, Repr

/-- A pool table record (R352). -/
structure Pool where
  valid : Bool
  asid : BitVec 8
  pool : BitVec 52
  nslot : BitVec 25
  stateBase : BitVec 45
  deriving DecidableEq, Repr

/-- A digest entry: region, block number, 64 bytes, the home whose Sieve holds it (package and die, R15) and the physical base of
its block (R264, R268). -/
structure DigEntry where
  region : BitVec 8
  block : Nat
  home : BitVec 8
  pa : BitVec 45
  bytes : BitVec 512
  deriving DecidableEq, Repr

/-- The launch bookkeeping of a bound gang (R324, R330). -/
structure Gang where
  gang : BitVec 16
  queue : BitVec 6
  seq : BitVec 64
  asid : BitVec 8
  tiles : List (BitVec 7)
  early : Bool
  triggered : List (BitVec 7)
  /-- Left the barriers by END, or gone (R207). -/
  left : List (BitVec 7)
  /-- Killed or fenced members, which poison barriers (R207). -/
  dead : List (BitVec 7)
  /-- Members whose bind record has left states 2, 3 and 4 (R324). -/
  gone : List (BitVec 7)
  /-- Members whose context-save has completed and that no gang has resumed: number within the team, and whether it has triggered. -/
  saved : List (BitVec 16 × Bool)
  /-- Tiles of members that were killed or fenced before the team was saved, which poison barriers (R207). -/
  lost : List (BitVec 7)
  teamno : BitVec 16
  /-- The rank that the QRANK of each member's bind record carries (R318). -/
  rank : BitVec 4
  /-- RUN of the launch record, for the first yield deadline (R328). -/
  run : Nat
  killed : Nat
  code : BitVec 8
  cause : BitVec 8
  refused : Bool
  status : BitVec 64
  deriving DecidableEq, Repr

/-- A barrier of a team at one scope instance (R205). -/
structure Barrier where
  gang : BitVec 16
  scope : BitVec 3
  inst : BitVec 7
  id : BitVec 4
  /-- Phases completed. -/
  phase : Nat
  /-- Arrivals of each member that has arrived: tile and count. -/
  arrived : List (BitVec 7 × Nat)
  /-- The first phase that completed poisoned, after which every phase is (R207). -/
  poisoned : Option Nat
  deriving DecidableEq, Repr

/-- A launch queue's flags in the distributor (R311, R315, R317). -/
structure QFlags where
  /-- The head that has passed the check of R312 and R313, by its SEQ. -/
  checked : Option (BitVec 64)
  /-- The head is eligible, with its resolved team size. -/
  eligible : Option (BitVec 64)
  /-- The head is on offer, at this rank. -/
  offered : Option (BitVec 4)
  /-- Reference clock at which the head was found absent. -/
  absentAt : Option Nat
  /-- Completed and triggered records at or above the watermarks. -/
  doneSet : List (BitVec 64)
  trigSet : List (BitVec 64)
  deriving DecidableEq, Repr

/-- What a Trellis knows of one neighbour (R392), with the link's fence. -/
structure Vote where
  state : BitVec 2
  kind : BitVec 2
  miss : BitVec 2
  lastSeq : Option (BitVec 16)
  viol : List Nat
  good : BitVec 5
  /-- Valid heartbeats and heartbeats of any sort in the current period. -/
  beatsValid : Nat
  beats : Nat
  badPeriod : Bool
  accusing : Bool
  renewed : Nat
  linkFenced : Bool
  deriving DecidableEq, Repr

/-- An accusation or admission that a Trellis holds: subject, sender, time of the latest renewal (R395, R402). -/
structure Held where
  subject : BitVec 7
  by_ : BitVec 7
  time : Nat
  deriving DecidableEq, Repr

/-- A tile's Trellis (R390 to R404). -/
structure Trellis where
  votes : Bank 2 Vote
  accs : List Held
  admits : List Held
  /-- Subjects for which a fence notice was sent or received (R397). -/
  notices : List (BitVec 7)
  beatSent : Nat
  periodsEnded : Bank 2 Nat
  /-- Probation: start of the appeal (R402). -/
  probation : Option Nat
  selfTest : Option Nat
  /-- Permanently fenced until package reset (R402). -/
  barred : Bool
  deriving DecidableEq, Repr

/-- The watch map's record of one tile (R396). -/
structure MapEntry where
  fused : Bool
  fenced : Bool
  isolated : Bool
  strikes : List Nat
  deriving DecidableEq, Repr

/-- A watch flit in flight on the heartbeat channel (R391, R395). -/
structure Flit where
  dest : BitVec 7
  dir : BitVec 2
  /-- 0 heartbeat, 1 accusation, 2 withdrawal, 3 fence notice, 4 admission, 5 readmission notice. -/
  kind : BitVec 3
  payload : BitVec 64
  subject : BitVec 7
  sender : BitVec 7
  /-- Reference clock at which it was sent on this link. -/
  sent : Nat
  deriving DecidableEq, Repr

/-- A notice on the management ring (R396, R401). -/
structure Notice where
  /-- 0 fence notice, 1 self-fence, 2 readmission, 3 isolation, 4 end of an isolation, 5 lapse of strikes. -/
  kind : BitVec 3
  subject : BitVec 7
  time : Nat
  /-- The tiles, by number, whose watch maps it has reached. -/
  seen : BitVec 128
  deriving DecidableEq, Repr

/-- A pod-link port (R418). -/
structure Port where
  state : BitVec 2
  lanes : BitVec 4
  retry : BitVec 16
  /-- Reference clocks of the retransmissions of the last 1 ms. -/
  recent : List Nat
  deriving DecidableEq, Repr

/-- A posted or sent link transfer waiting for its pair (R237). -/
structure LinkWait where
  tile : BitVec 7
  eng : BitVec 1
  cmd : Nat
  port : BitVec 4
  chan : BitVec 8
  send : Bool
  deriving DecidableEq, Repr

/-- A fault record that waits for room: the die of its ring, and the tile and context that its fault leaves as they are until it is
in the ring; none for a record that is about no context (R386). -/
structure PostWait where
  die : BitVec 2
  holder : Option (BitVec 7 × BitVec 2)
  bits : BitVec 512
  deriving DecidableEq, Repr

/-- An access that has arrived at a home and is held there (R405). An access of a requester is named by the requester and the point it
has come to. -/
inductive HeldAcc where
  /-- Bytes to write; `ctl` names the core that wrote them: the scheduling core of a die (0 to 3), the service core (4), or none for
  any other writer (R263). -/
  | write (ctl : Option (BitVec 3)) (pa : BitVec 45) (bytes : List Byte)
  | unpin (pa : BitVec 45)
  | req (tile : BitVec 7) (id progress : Nat)
  | entry (tile : BitVec 7) (ctx : BitVec 2) (seq : Nat)
  | cmd (tile : BitVec 7) (eng : BitVec 1) (id progress : Nat)
  | walk (id : Nat)
  /-- A read for a tile's creation or restore. -/
  | tile (t : BitVec 7)
  /-- An access from outside, by its arrival number: RDMA, an invalidation's or a reclaim's read, the power page. Number 0 is an access
  that never queues. -/
  | outside (ticket : Nat)
  deriving DecidableEq, Repr

/-- A quiesced channel with the accesses held at home in arrival order (R405). Once its time has passed they perform in that order. -/
structure Quiesce where
  /-- The stack and, above it, the package (R15). -/
  stack : BitVec 9
  channel : BitVec 5
  until_ : Nat
  row : BitVec 45
  held : List HeldAcc
  deriving DecidableEq, Repr

/-- Corrected errors of a row with their times (R405). -/
structure RowCount where
  row : BitVec 45
  times : List Nat
  deriving DecidableEq, Repr

/-- Why a stage of the boot is refused (R413). -/
inductive BootFault where
  | magic | entryCount | signatureLength | key | signature | counter | digest
  deriving DecidableEq, Repr

/-- How far the boot has come (R413). -/
inductive Boot where
  | inReset | done | halted (stage : Nat) (reason : BootFault)
  deriving DecidableEq, Repr

/-- The invalidation register, the invalidation in progress and the contexts whose next checkpoint it awaits (R340). -/
structure Xinv where
  reg : BitVec 64
  /-- ALL, ASID, VPN and NPG of the invalidation in progress, as the write that started it gave them. -/
  range : BitVec 64
  waits : List (BitVec 7 × BitVec 2 × Nat)
  /-- Requests that dropped translations have sent on their way and that have still to perform: tile and request. -/
  reqs : List (BitVec 7 × Nat)
  /-- The translations that the invalidation dropped. -/
  gone : List TlbEntry
  deriving DecidableEq, Repr

/-- A dump buffer (R416). -/
structure Dump where
  busy : Bool
  tile : BitVec 7
  bytes : List Byte
  /-- Bytes that the service core has written to the dump area. -/
  copied : Nat
  deriving DecidableEq, Repr

/-- What leaves the machine for the outside world. -/
inductive Out where
  | offer (die : BitVec 2) (sel : Option (BitVec 6 × BitVec 64 × BitVec 4 × BitVec 64))
  | rdma (ok : Bool) (data : List Byte)
  | link (port : BitVec 4) (chan : BitVec 8) (data : List Byte)
  | record (die : BitVec 2) (bytes : BitVec 512)
  | dump (die : BitVec 2) (bytes : List Byte)
  | report (bytes : List Byte) (signature : List Byte)
  /-- A halted boot: on Ethernet port 0, or on the management ring (R413). -/
  | bootHalt (ethernet : Bool) (stage : Nat) (reason : BootFault)
  | appeal (tile : BitVec 7)
  deriving DecidableEq, Repr

/-- The package. -/
structure State where
  /-- Inputs that have not landed, in order. -/
  inputs : List Input
  /-- Arguments of the event that the step runs. -/
  ev : EvArgs
  /-- The model's own counters of free choices and free values. -/
  choiceCtr : Nat
  freeCtr : Nat
  /-- The tile whose core stands in `core`; every other core stands in `parked`, strictly rising, and a tile that is absent there has the idle core. -/
  coreTile : BitVec 7
  core : Core
  parked : List (Nat × Core)
  /-- Device memory by physical address (R335). -/
  mem : List Host.Cell
  /-- Poisoned 64-byte granules (R381). -/
  poison : List Nat
  lltlb : Bank 2 (List TlbEntry)
  walks : List Walk
  nextWalk : Nat
  nextToken : Bank 2 Nat
  rings : Bank 2 Ring
  /-- Records that wait for room in a die's ring (R386). -/
  recWait : List PostWait
  astBase : BitVec 45
  qtBase : BitVec 45
  xinv : Xinv
  pools : Bank 4 Pool
  /-- KVRECLAIM's result of each die: 1 BUSY, 2 ALREADY, 3 OK, 0 none (R353). -/
  kvRes : Bank 2 (BitVec 2)
  kvts : Bank 2 (BitVec 64)
  /-- The tail stores that the reconfiguration in progress of each die replaces, newest first (R354). -/
  kvtsOld : Bank 2 (List (BitVec 64))
  /-- `last[r]` of R317. -/
  lastQ : Bank 4 (BitVec 6)
  queues : Bank 6 QFlags
  /-- GANGGO and SKIPHEAD read FAIL. -/
  gangFail : Bool
  skipFail : Bool
  /-- The slot tables, by package tile number (R319). -/
  binds : Bank 7 (BitVec 512)
  gangs : List Gang
  barriers : List Barrier
  /-- Tiles whose resident overlay was flushed while bound (R351). -/
  isflush : List (BitVec 7)
  /-- POPW.b requests that wait at home, in arrival order: header, tile, request (R332). -/
  waiters : List (BitVec 45 × BitVec 7 × Nat)
  /-- Multicast arrivals on their way: receiver and mark (R223). -/
  arrivals : List (BitVec 7 × BitVec 6)
  regions : Bank 8 (BitVec 128)
  /-- Regions whose STATE is 1 (R267). -/
  scanning : List (BitVec 8)
  digests : List DigEntry
  /-- The Trellises that are not as after reset, by tile. -/
  trellis : List (BitVec 7 × Trellis)
  map : Bank 7 MapEntry
  flits : List Flit
  mring : List Notice
  refClk : Nat
  clkAcc : Nat
  /-- Core clock of each die in MHz (R409). -/
  mhz : Bank 2 Nat
  ths : Bank 2 (List (BitVec 32))
  throttled : Bank 2 Bool
  /-- Conversions and throttle steps of each die, and updates of the power page, since reset (R408, R409, R412). -/
  convDone : Bank 2 Nat
  stepDone : Bank 2 Nat
  pageDone : Nat
  /-- Held in reset after a trip until every sensor is cool (R411). -/
  tripped : Bool
  boot : Boot
  chain : List (BitVec 512)
  powerTarget : BitVec 32
  rows : List RowCount
  /-- The repair list in flash; rows whose soft repair waits for its stack; and the hard repairs that the last boot applied (R405, R406). -/
  repairs : List (BitVec 45)
  repairQ : List (BitVec 45)
  hardDone : Nat
  /-- Rows that a soft repair has replaced since reset (R406). -/
  softDone : List (BitVec 45)
  quiesces : List Quiesce
  /-- Writes and unpins that a home does not take yet, because its tail store is being reconfigured or no route reaches it, oldest first
  (R354, R419). -/
  stalled : List HeldAcc
  /-- The next arrival number of an access from outside (R405). -/
  nextOutside : Nat
  dumps : Bank 2 Dump
  dumpArea : BitVec 45
  ports : Bank 4 Port
  linkWaits : List LinkWait
  /-- Registered RDMA memory regions: ASID, base, length (R417). -/
  rdma : List (BitVec 8 × BitVec 52 × Nat)
  /-- Open RDMA queue pairs: Ethernet port and number (R417). -/
  qps : List (BitVec 4 × BitVec 12)
  out : List Out
  deriving DecidableEq, Repr

/-- The model has no fault of its own: every stop of the machine is a state (a trap taken, a core held or frozen). -/
inductive Fault where
  /-- Raised by nothing; safe. -/
  | none
  deriving DecidableEq, Repr

/-- Why an instruction has no meaning. -/
inductive Refusal where
  /-- Raised by an arm of `exec` whose instruction is not modelled yet; safe. -/
  | notModelled (mnemonic : String)
  deriving DecidableEq, Repr

/-! ## Reset -/

/-- Private registers of an idle context (R22, R23). -/
def Priv.reset : Priv :=
  { s := (Bank.fill 6 0#64).write 62#6 0x200000#64, p := 1#48, b := Bank.fill 2 0, dc := Bank.fill 3 0 }

/-- Shared registers at member creation (R22, R35, R36). -/
def Shared.reset : Shared :=
  { v := Bank.fill 5 ⟨0, 0⟩, lm := Bank.fill 3 (BitVec.allOnes 256), t := Bank.fill 2 ⟨0, 0⟩, mready := 0, mstale := 0,
    merr := 0, mpend := Bank.fill 6 0, mbits := Bank.fill 6 0, ms := Bank.fill 4 0, d := Bank.fill 4 0, efmt := 0x29#32,
    efmtPend := [], frm := 0, seed := 1, loops := [], mpc := 0, mflags := 0 }

/-- A context that runs nothing. -/
def Ctx.idle : Ctx :=
  { run := .free, regs := .reset, ix := 0, group := [], dup := .reset, restart := 0, restartBarw := false, barwOnly := false,
    hold := none, fetchAt := 0, afterPhase := 0, ready := false, w := 0, ck := none, ckDone := false, irrevOut := false, irrevNext := 0,
    barWaiting := false, part := [], released := [], phase := 0, unprot := .safe, rolls := 0, rollPend := none, rollFresh := false, rolling := none, fences := [], relFences := [],
    coreFences := [], storeSeq := 0, waitCycles := 0, phaseStart := 0, cancelledWait := false, issued := 0, queued := none }

/-- No bundle is issuing. -/
def Issue.idle : Issue :=
  { ctx := 0, slot := 0, ix := 0, pre := .reset, preSh := .reset, part := [], leaf := 4, ximm := none, flags := 0, target := none,
    isCall := false, skip := none, trap := none, hold := none, ckBefore := none, claims := [], extra := 0, firstId := 0, picked := none }

/-- A core with no member bound. -/
def Core.idle : Core :=
  { main := .idle, tail0 := .idle, tail1 := .idle, sh := .reset, dupSh := .reset, tailMarks := 0, tailMs := 0, tailD := 0,
    mcast := 0, acc := Bank.fill 2 ⟨.empty, .fp32, 0⟩, fa := ⟨[], []⟩, fb := ⟨[], []⟩, spad := [], spadPoison := [],
    linePoison := [], dupPoison := 0, bornSuspect := 0, sched := 0, cyc := 0, rank := 0, team := 0, asid := 0, ckey := 0,
    frame0 := none, frame1 := none, latest := none, inline := none, inlineBit := false, dupCall := ⟨none, none, false⟩, mq := [], apend := [], mEnd := 0,
    mOff := 0, q0 := [], q1 := [], reqs := [], nextId := 0, busy := [], divFree := 0, once := [], ro := [], bmc := [],
    utlb := [], ctlb := [], overlay := none, cur := .idle, frozen := none, save := .none, ending := false,
    deadline := none, latePosted := false, overPosted := false, triggered := false, bound := false }

/-- Event arguments that name nothing. -/
def EvArgs.zero : EvArgs :=
  { tile := 0, other := 0, third := 0, die := 0, ctx := 0, eng := 0, dir := 0, queue := 0, port := 0, id := 0, gang := 0,
    addr := 0, value := 0, count := 0, flag := false, data := [], ticket := 0 }

/-- A neighbour at the start of a watch: live, with no heartbeat yet (R391, R392). -/
def Vote.fresh : Vote :=
  { state := 0, kind := 0, miss := 0, lastSeq := none, viol := [], good := 0, beatsValid := 0, beats := 0, badPeriod := false,
    accusing := false, renewed := 0, linkFenced := false }

/-- A Trellis after reset. -/
def Trellis.fresh : Trellis :=
  { votes := Bank.fill 2 .fresh, accs := [], admits := [], notices := [], beatSent := 0, periodsEnded := Bank.fill 2 0,
    probation := none, selfTest := none, barred := false }

/-- The package right after reset: in reset, no member bound, every register at the value that the spec or the assumption
log gives. -/
def State.reset : State :=
  { inputs := [], ev := .zero, choiceCtr := 0, freeCtr := 0, coreTile := 0, core := .idle, parked := [], mem := [], poison := [],
    lltlb := Bank.fill 2 [], walks := [], nextWalk := 0, nextToken := Bank.fill 2 1,
    rings := Bank.fill 2 ⟨0, 0, 0, 0, false⟩, recWait := [], astBase := 0, qtBase := 0, xinv := ⟨0, 0, [], [], []⟩,
    pools := Bank.fill 4 ⟨false, 0, 0, 0, 0⟩, kvRes := Bank.fill 2 0, kvts := Bank.fill 2 0, kvtsOld := Bank.fill 2 [], lastQ := Bank.fill 4 0,
    queues := Bank.fill 6 ⟨none, none, none, none, [], []⟩, gangFail := false, skipFail := false,
    binds := Bank.fill 7 0, gangs := [], barriers := [], isflush := [], waiters := [], arrivals := [],
    regions := Bank.fill 8 0, scanning := [], digests := [], trellis := [],
    map := Bank.fill 7 ⟨false, false, false, []⟩, flits := [], mring := [], refClk := 0, clkAcc := 0, mhz := Bank.fill 2 1300,
    ths := Bank.fill 2 (List.replicate 9 0), throttled := Bank.fill 2 false, convDone := Bank.fill 2 0, stepDone := Bank.fill 2 0, pageDone := 0, tripped := false, boot := .inReset, chain := [],
    powerTarget := 0, rows := [], repairs := [], repairQ := [], hardDone := 0, softDone := [], quiesces := [], stalled := [], nextOutside := 1, dumps := Bank.fill 2 ⟨false, 0, [], 0⟩,
    dumpArea := 0, ports := Bank.fill 4 ⟨0, 0, 0, []⟩, linkWaits := [], rdma := [], qps := [], out := [] }

end Sys2Proof.Machine
end

