-- ==== Sys2Proof/Machine/Memory.lean ====
section
/-!
DEFINITION. Memories as lists of cells in one canonical form, byte order, and the packing of bytes into registers (R4).
-/
namespace Sys2Proof.Machine

/-- What an address that a memory does not list reads as (assumption log 2). DESIGN CHOICE: log 2. -/
def unlisted : Byte := 0

/-- The canonical form: addresses strictly rising and no cell equal to what an unlisted address reads as. -/
def Memory.wf : List Host.Cell → Bool
  | [] => true
  | [c] => c.2 != unlisted
  | c :: d :: m => c.2 != unlisted && c.1 < d.1 && Memory.wf (d :: m)

/-- The byte at an address. -/
def Memory.read : List Host.Cell → Nat → Byte
  | [], _ => unlisted
  | c :: m, a => if c.1 = a then c.2 else if a < c.1 then unlisted else Memory.read m a

/-- A cell unless it is what an unlisted address reads as. -/
def Memory.cell (a : Nat) (b : Byte) (m : List Host.Cell) : List Host.Cell :=
  if b = unlisted then m else (a, b) :: m

/-- The memory after the byte at one address is written. -/
def Memory.write : List Host.Cell → Nat → Byte → List Host.Cell
  | [], a, b => Memory.cell a b []
  | c :: m, a, b =>
    if c.1 < a then c :: Memory.write m a b
    else if c.1 = a then Memory.cell a b m
    else Memory.cell a b (c :: m)

/-- `n` bytes from address `a` upward. -/
def Memory.readList (m : List Host.Cell) (a : Nat) : Nat → List Byte
  | 0 => []
  | n + 1 => Memory.read m a :: Memory.readList m (a + 1) n

/-- The memory after a list of bytes is written from address `a` upward. -/
def Memory.writeList (m : List Host.Cell) (a : Nat) : List Byte → List Host.Cell
  | [] => m
  | b :: bs => Memory.writeList (Memory.write m a b) (a + 1) bs

/-- The number that a little-endian list of bytes stands for (R4). -/
def leNat : List Byte → Nat
  | [] => 0
  | b :: bs => b.toNat + 256 * leNat bs

/-- The `n` little-endian bytes of a number (R4). -/
def leBytes : Nat → Nat → List Byte
  | 0, _ => []
  | n + 1, x => BitVec.ofNat 8 x :: leBytes n (x / 256)

/-- The little-endian number in `n` bytes of memory. -/
def Memory.readLE (m : List Host.Cell) (a n : Nat) : Nat := leNat (Memory.readList m a n)

/-- Byte `j` of a register's bits (R26). -/
def byteOf {w : Nat} (x : BitVec w) (j : Nat) : Byte := x.extractLsb' (8 * j) 8

/-- The first `n` bytes of a register's bits. -/
def bytesOf {w : Nat} (x : BitVec w) (n : Nat) : List Byte := (List.range n).map (byteOf x)

/-- A register of `w` bits built from bytes, byte 0 lowest. -/
def ofBytes (w : Nat) (bs : List Byte) : BitVec w := BitVec.ofNat w (leNat bs)

/-- The bits of a register with byte `j` replaced. -/
def setByte {w : Nat} (x : BitVec w) (j : Nat) (b : Byte) : BitVec w :=
  (x &&& ~~~(BitVec.ofNat w 255 <<< (8 * j))) ||| (b.setWidth w <<< (8 * j))

/-- The field of `n` bits of `x` from bit `lo` upward, replaced by the low bits of `v`. -/
def setField {w : Nat} (x : BitVec w) (lo n v : Nat) : BitVec w :=
  (x &&& ~~~(BitVec.ofNat w (2 ^ n - 1) <<< lo)) ||| (BitVec.ofNat w (v % 2 ^ n) <<< lo)

/-- The field of `n` bits of `x` from bit `lo` upward. -/
def field {w : Nat} (x : BitVec w) (lo n : Nat) : Nat := x.toNat / 2 ^ lo % 2 ^ n

end Sys2Proof.Machine
end

