-- ==== Sys2Proof/Machine/Layout.lean ====
section
/-!
DEFINITION. Status words (R36, R38, R184) and the layout of save areas and dumps (R346 to R348, R416).
-/
namespace Sys2Proof.Machine

/-- Codes of `w` bits, element 0 lowest, as one number. -/
def packElems (w : Nat) : List Nat → Nat
  | [] => 0
  | x :: l => x % 2 ^ w + 2 ^ w * packElems w l

/-! ## Status words -/

/-- The lowest address that a tail frame holds; 0x20_0000 when none is held (R36). -/
def Core.frameHeld (c : Core) : BitVec 24 :=
  match c.frame0, c.frame1 with
  | some a, some b => if a.base.toNat ≤ b.base.toNat then a.base else b.base
  | some a, none => a.base
  | none, some b => b.base
  | none, none => 0x200000#24

def CtxRun.code : CtxRun → BitVec 2
  | .free => 0
  | .running => 1
  | .ended => 2

/-- `TAILST` as the context `ctx` reads it (R38). -/
def Core.tailst (c : Core) (ctx : BitVec 2) : BitVec 32 :=
  BitVec.ofNat 32 (c.tail0.run.code.toNat + 4 * c.tail1.run.code.toNat + (if c.inlineBit then 256 else 0) + 16384 * ctx.toNat)

/-- ACCST of an accumulator (R184). -/
def AccSt.code : AccSt → Nat
  | .empty => 0
  | .live => 1
  | .retired => 2
  | .liveRet => 3

/-- The matrix status (R184). -/
def Core.mstatus (c : Core) : Word :=
  let accs := c.acc.toList
  BitVec.ofNat 64 (c.sh.mpc.toNat * 2 ^ 32 + c.fa.held.length * 2 ^ 24 + c.fb.held.length * 2 ^ 16 +
    packElems 2 (accs.map fun a => a.st.code) * 256 +
    packElems 1 (accs.map fun a => if a.st ≠ .empty && a.ty = .i32 then 1 else 0) * 16 + c.sh.mflags.toNat)

/-! ## Save areas (R346 to R348) -/

/-- The lines of a FIFO in arrival order, the retained ones first (R31). -/
def Fifo.all (f : Fifo) : List FLine := f.retained ++ f.held

/-- Items at rising offsets from position `p` up to `n`, with zero wherever no item lies. -/
def layOut (n : Nat) : Nat → List (Nat × List Byte) → List Byte
  | p, [] => List.replicate (n - p) 0
  | p, i :: l => List.replicate (i.1 - p) 0 ++ i.2 ++ layOut n (i.1 + i.2.length) l

/-- A member's accumulators that are saved: those that are live or retired (R30). -/
def Core.savedAccs (c : Core) : Nat := packElems 1 (c.acc.toList.map fun a => if a.st = .empty then 0 else 1)

/-- An entry of the loop stack, if there is one. -/
def loopBytes : Option Loop → List Byte
  | some l => leBytes 8 (l.left.toNat + l.first.toNat * 2 ^ 32 + l.last.toNat * 2 ^ 45 + 2 ^ 63)
  | none => leBytes 8 0

/-- A held frame, or the record `latest`. -/
def frameBytes : Option Frame → List Byte
  | some f => leBytes 8 (f.base.toNat + f.top.toNat * 2 ^ 32)
  | none => leBytes 8 0

def latestBytes : Option (Option Bool × BitVec 24) → List Byte
  | some (t, top) => leBytes 8 ((match t with | some false => 0 | some true => 1 | none => 3) + top.toNat * 2 ^ 32)
  | none => leBytes 8 3

def inlineItems : Option Inline → List (Nat × List Byte)
  | some i => [(768, bytesOf i.a 4), (772, bytesOf i.ret 4), (776, leBytes 1 i.p14.toNat), (784, (i.s18.map fun w => bytesOf w 8).flatten)]
  | none => []

/-- The header of R347, with the words of the barriers as given. A mark's bits that its next return to zero sets stand in MSTALE and MERR, whose own
bits of a pending mark are zero. DESIGN CHOICE: log 56. -/
def Core.header (c : Core) (qalign : Bool) (barriers : List Byte) : List Byte :=
  let r := c.sh
  let late := fun (n : Nat) => BitVec.ofNat 64 (packElems 1 (r.mbits.toList.map fun b => if b.getLsbD n then 1 else 0))
  let parts := c.savedAccs + (if c.tail0.run = .free then 0 else 16) + (if c.tail1.run = .free then 0 else 32) +
    (if c.inline.isSome then 64 else 0) + (if qalign then 128 else 0)
  layOut 4096 0 <|
    [(0, leBytes 4 1), (4, leBytes 4 parts), (8, match c.overlay with | some o => bytesOf o.imageId 8 | none => []),
     (16, bytesOf c.sched 8), (24, bytesOf c.cyc 8), (32, bytesOf r.seed 8), (40, bytesOf r.frm 4), (44, bytesOf r.efmt 4),
     (48, bytesOf c.mstatus 8), (56, bytesOf r.mready 8), (64, bytesOf (r.mstale ||| late 0) 8), (72, bytesOf (r.merr ||| late 1) 8),
     (80, (r.ms.toList.map fun x => bytesOf (x.setWidth 24) 3).flatten),
     (128, leBytes 16 (packElems 4 (r.v.toList.map fun x => x.tag.toNat))), (144, leBytes 2 (packElems 4 (r.t.toList.map fun x => x.tag.toNat))),
     (146, bytesOf c.asid 1), (148, bytesOf (c.tailst 0) 4), (152, bytesOf (c.frameHeld.setWidth 32) 4), (156, bytesOf c.ckey 4),
     (160, ((List.range 4).map fun i => loopBytes r.loops[i]?).flatten),
     (192, frameBytes c.frame0), (200, frameBytes c.frame1), (208, latestBytes c.latest),
     (216, (r.mpend.toList.map fun n => leBytes 1 n).flatten), (512, (r.lm.toList.map fun x => bytesOf x 32).flatten)] ++
    inlineItems c.inline ++
    [(1024, barriers), (1280, layOut 128 0 [(0, c.fa.all.map fun l => l.tag.setWidth 8)]), (1408, c.fb.all.map fun l => l.tag.setWidth 8)]

/-- A context block (R348): the registers and the restart point of its last checkpoint. -/
def Ctx.block (x : Ctx) (inline : Bool) : List Byte :=
  let r := x.dup
  let s := (List.range 64).map fun i => if i = 0 then List.replicate 8 0 else bytesOf (r.s.read (BitVec.ofNat 6 i)) 8
  let flags := (if x.cancelledWait then 1 else 0) + (if inline then 2 else 0) + (if x.restartBarw then 4 else 0)
  layOut 1024 0 [(0, s.flatten), (512, bytesOf (r.p ||| 1) 6), (520, (r.b.toList.map fun b => bytesOf b 4).flatten),
    (536, (r.dc.toList.map fun d => bytesOf (d.setWidth 16) 2).flatten), (552, bytesOf (x.restart.setWidth 32) 4), (556, leBytes 1 flags)]

/-- The context blocks of a core; a free tail has none. -/
def Core.blocks (c : Core) : List Byte :=
  c.main.block c.inline.isSome ++ (if c.tail0.run = .free then List.replicate 1024 0 else c.tail0.block false) ++
    (if c.tail1.run = .free then List.replicate 1024 0 else c.tail1.block false)

def Core.descBytes (c : Core) : List Byte := (c.sh.d.toList.map fun d => bytesOf d 64).flatten
def Core.vecBytes (c : Core) : List Byte := (c.sh.v.toList.map fun v => bytesOf v.bits 256).flatten
def Core.tileBytes (c : Core) : List Byte := (c.sh.t.toList.map fun t => bytesOf t.bits 16384).flatten

/-- What a dump captures of a member, with the registers as the fatal trap found them and the words of its barriers (R416). DESIGN CHOICE:
log 59. -/
def Core.dumpBytes (c : Core) (qalign : Bool) (barriers : List Byte) : List Byte :=
  let now := fun (x : Ctx) => { x with dup := x.regs, restart := x.ix }
  let c := { c with main := now c.main, tail0 := now c.tail0, tail1 := now c.tail1 }
  c.header qalign barriers ++ c.blocks ++ c.descBytes ++ c.vecBytes ++ c.tileBytes

end Sys2Proof.Machine
end

