-- ==== Sys2Proof/Machine/NumFmt.lean ====
section
/-!
DEFINITION. Number formats and their exact arithmetic (R41 to R64): every operation is computed exactly and rounded once at
the end.
-/
namespace Sys2Proof.Machine

/-! ## Flags of FRM (R37) -/

def flagNX : BitVec 32 := 0x10#32
def flagUF : BitVec 32 := 0x20#32
def flagOF : BitVec 32 := 0x40#32
def flagDZ : BitVec 32 := 0x80#32
def flagNV : BitVec 32 := 0x100#32
def flagSAT : BitVec 32 := 0x200#32
def flagNR : BitVec 32 := 0x400#32

/-- `f` when the condition holds, else no flag. -/
def flagIf (c : Bool) (f : BitVec 32) : BitVec 32 := if c then f else 0

/-! ## Exact values -/

/-- A decoded operand. A finite non-zero value is `± m · 2 ^ e` with `m > 0`. `nar` is the NaR of a tapered format. -/
inductive FVal where
  | nan (signalling : Bool)
  | nar
  | inf (neg : Bool)
  | zero (neg : Bool)
  | fin (neg : Bool) (m : Nat) (e : Int)
  deriving DecidableEq, Repr

def FVal.isNaN : FVal → Bool
  | .nan _ => true
  | .nar => true
  | _ => false

def FVal.isSignalling : FVal → Bool
  | .nan s => s
  | _ => false

def FVal.isNar : FVal → Bool
  | .nar => true
  | _ => false

def FVal.isNeg : FVal → Bool
  | .inf n => n
  | .zero n => n
  | .fin n _ _ => n
  | _ => false

def FVal.negate : FVal → FVal
  | .inf n => .inf !n
  | .zero n => .zero !n
  | .fin n m e => .fin (!n) m e
  | x => x

/-- A dyadic number `n · 2 ^ e`. -/
structure Dy where
  n : Int
  e : Int
  deriving DecidableEq, Repr

/-- `2 ^ k` for a natural exponent given as an integer that is not negative. -/
def pow2 (k : Int) : Nat := 2 ^ k.toNat

def Dy.add (a b : Dy) : Dy :=
  let e := min a.e b.e
  ⟨a.n * pow2 (a.e - e) + b.n * pow2 (b.e - e), e⟩

def Dy.mul (a b : Dy) : Dy := ⟨a.n * b.n, a.e + b.e⟩

def Dy.ofInt (n : Int) : Dy := ⟨n, 0⟩

/-- A finite value as a dyadic number. -/
def FVal.dy : FVal → Dy
  | .fin n m e => ⟨if n then -(m : Int) else m, e⟩
  | _ => ⟨0, 0⟩

/-- A dyadic number as a value; zero takes the sign given. -/
def Dy.toF (d : Dy) (zeroNeg : Bool) : FVal :=
  if d.n = 0 then .zero zeroNeg else .fin (d.n < 0) d.n.natAbs d.e

/-- Number of bits of `m`: 0 for 0, else the position of the top bit plus one. -/
def bitLen (m : Nat) : Nat := if m = 0 then 0 else m.log2 + 1

/-- Order of two values that are neither NaN nor NaR; `-0` equals `+0`. -/
def FVal.lt (a b : FVal) : Bool :=
  match a, b with
  | .inf n, .inf n' => n && !n'
  | .inf n, _ => n
  | _, .inf n => !n
  | _, _ => (Dy.add a.dy ⟨-b.dy.n, b.dy.e⟩).n < 0

def FVal.eqv (a b : FVal) : Bool :=
  match a, b with
  | .inf n, .inf n' => n == n'
  | .inf _, _ => false
  | _, .inf _ => false
  | _, _ => (Dy.add a.dy ⟨-b.dy.n, b.dy.e⟩).n = 0

/-! ## Rounding (R61, R62) -/

/-- A rounding mode: `FRM.RM` 0 to 4 (R37). -/
inductive RMode where
  | rne | rtz | rup | rdn
  /-- Stochastic with the 16 bits `u` of the generator (R62). -/
  | sto (u : Nat)
  deriving DecidableEq, Repr

/-- Whether `sig + rem / 2 ^ shift` (and a little more when `sticky`) rounds up in magnitude. -/
def roundsUp (rm : RMode) (neg : Bool) (sig rem shift : Nat) (sticky : Bool) : Bool :=
  let inexact := rem ≠ 0 || sticky
  match rm with
  | .rne => 2 * rem > 2 ^ shift || (2 * rem = 2 ^ shift && (sticky || sig % 2 = 1))
  | .rtz => false
  | .rup => !neg && inexact
  | .rdn => neg && inexact
  | .sto u => u < 65536 * rem / 2 ^ shift

/-- `m · 2 ^ e` (and a little more when `sticky`) rounded to a multiple of `2 ^ q`: the multiple and whether it is inexact. -/
def roundAt (rm : RMode) (neg : Bool) (m : Nat) (e : Int) (sticky : Bool) (q : Int) : Nat × Bool :=
  let shift := q - e
  let k := (2 - shift).toNat
  let m' := m * 2 ^ k
  let sh := (shift + k).toNat
  let sig := m' / 2 ^ sh
  let rem := m' % 2 ^ sh
  (sig + (if roundsUp rm neg sig rem sh sticky then 1 else 0), rem ≠ 0 || sticky)

/-- A binary format: exponent and fraction bits (R49). -/
structure Fmt where
  eb : Nat
  fb : Nat
  deriving DecidableEq, Repr

def fmtBF16 : Fmt := ⟨8, 7⟩
def fmtFP16 : Fmt := ⟨5, 10⟩
def fmtFP32 : Fmt := ⟨8, 23⟩
def fmtFP64 : Fmt := ⟨11, 52⟩

def Fmt.bias (f : Fmt) : Int := 2 ^ (f.eb - 1) - 1
def Fmt.emin (f : Fmt) : Int := 1 - f.bias
def Fmt.width (f : Fmt) : Nat := f.eb + f.fb + 1
/-- The canonical NaN (R49). -/
def Fmt.cnan (f : Fmt) : Nat := (2 ^ f.eb - 1) * 2 ^ f.fb + 2 ^ (f.fb - 1)
def Fmt.signBit (f : Fmt) (neg : Bool) : Nat := if neg then 2 ^ (f.eb + f.fb) else 0
def Fmt.infBits (f : Fmt) (neg : Bool) : Nat := f.signBit neg + (2 ^ f.eb - 1) * 2 ^ f.fb
def Fmt.maxBits (f : Fmt) (neg : Bool) : Nat := f.infBits neg - 1

/-- The value of a bit pattern (R49). -/
def Fmt.decode (f : Fmt) (bits : Nat) : FVal :=
  let frac := bits % 2 ^ f.fb
  let ex := bits / 2 ^ f.fb % 2 ^ f.eb
  let neg := bits / 2 ^ (f.fb + f.eb) % 2 = 1
  if ex = 2 ^ f.eb - 1 then
    if frac = 0 then .inf neg else .nan (frac < 2 ^ (f.fb - 1))
  else if ex = 0 then
    if frac = 0 then .zero neg else .fin neg frac (f.emin - f.fb)
  else .fin neg (frac + 2 ^ f.fb) (ex - f.bias - f.fb)

/-- A finite non-zero magnitude rounded into the format, with the flags of R51. -/
def Fmt.roundMag (f : Fmt) (rm : RMode) (neg : Bool) (m : Nat) (e : Int) (sticky : Bool) : Nat × BitVec 32 :=
  let top : Int := bitLen m - 1 + e
  let q := max top f.emin - f.fb
  let (sig, inx) := roundAt rm neg m e sticky q
  let (sig, q) := if sig = 2 ^ (f.fb + 1) then (2 ^ f.fb, q + 1) else (sig, q)
  -- tininess after rounding: the result at unbounded exponent range lies below 2 ^ emin
  let (usig, _) := roundAt rm neg m e sticky (top - f.fb)
  let tiny := top < f.emin && !(top = f.emin - 1 && usig = 2 ^ (f.fb + 1))
  let ovf : Bool := q + f.fb > f.bias
  let stoOver : Bool := match rm with
    | .sto _ => top > f.bias || (q + f.fb = f.bias && sig = 2 ^ (f.fb + 1) - 1 && inx &&
        (roundAt .rtz neg m e sticky q).1 = 2 ^ (f.fb + 1) - 1)
    | _ => false
  if ovf || stoOver then
    let toInf := match rm with
      | .rne => true | .rtz => false | .rup => !neg | .rdn => neg | .sto _ => true
    ((if toInf then f.infBits neg else f.maxBits neg), flagOF ||| flagNX)
  else
    let bits :=
      if sig < 2 ^ f.fb then f.signBit neg + sig
      else f.signBit neg + (q + f.fb + f.bias).toNat * 2 ^ f.fb + (sig - 2 ^ f.fb)
    (bits, flagIf inx flagNX ||| flagIf (tiny && inx) flagUF)

/-- A value rounded into the format. A NaN becomes canonical; a signalling NaN sets NVF; a NaR sets NRF (R45, R50). -/
def Fmt.ofVal (f : Fmt) (rm : RMode) : FVal → Nat × BitVec 32
  | .nan s => (f.cnan, flagIf s flagNV)
  | .nar => (f.cnan, flagNR)
  | .inf n => (f.infBits n, 0)
  | .zero n => (f.signBit n, 0)
  | .fin n m e => f.roundMag rm n m e false

/-! ## Arithmetic on values (R50, R51) -/

/-- The sign of an exact zero sum of non-zero or opposite terms: `-0` only toward minus infinity. -/
def sumZeroNeg (rm : RMode) : Bool := match rm with | .rdn => true | _ => false

/-- `a + b`, exact, with the flags that the operands alone raise. -/
def FVal.add (rm : RMode) (a b : FVal) : FVal × BitVec 32 :=
  if a.isNaN || b.isNaN then
    ((if a.isNar || b.isNar then .nar else .nan false),
      flagIf (a.isSignalling || b.isSignalling) flagNV ||| flagIf (a.isNar || b.isNar) flagNR)
  else match a, b with
    | .inf n, .inf n' => if n = n' then (.inf n, 0) else (.nan false, flagNV)
    | .inf n, _ => (.inf n, 0)
    | _, .inf n => (.inf n, 0)
    | .zero n, .zero n' => (.zero (if n = n' then n else sumZeroNeg rm), 0)
    | _, _ => ((Dy.add a.dy b.dy).toF (sumZeroNeg rm), 0)

/-- `a × b`, exact. -/
def FVal.mul (a b : FVal) : FVal × BitVec 32 :=
  if a.isNaN || b.isNaN then
    ((if a.isNar || b.isNar then .nar else .nan false),
      flagIf (a.isSignalling || b.isSignalling) flagNV ||| flagIf (a.isNar || b.isNar) flagNR)
  else
    let s := a.isNeg != b.isNeg
    match a, b with
    | .inf _, .zero _ => (.nan false, flagNV)
    | .zero _, .inf _ => (.nan false, flagNV)
    | .inf _, _ => (.inf s, 0)
    | _, .inf _ => (.inf s, 0)
    | .zero _, _ => (.zero s, 0)
    | _, .zero _ => (.zero s, 0)
    | _, _ => ((Dy.mul a.dy b.dy).toF s, 0)

/-- `a × b + c`, exact, so that a rounding of it is one rounding (R51). -/
def FVal.fma (rm : RMode) (a b c : FVal) : FVal × BitVec 32 :=
  let (p, f) := FVal.mul a b
  let (r, f') := FVal.add rm p c
  (r, f ||| f')

/-- Rounds the exact result of an operation into a format and joins the flags. -/
def Fmt.finish (f : Fmt) (rm : RMode) (x : FVal × BitVec 32) : Nat × BitVec 32 :=
  let (bits, fl) := f.ofVal rm x.1
  (bits, fl ||| x.2)

/-- FMIN, FMAX, VMIN and VMAX on a binary format: one operand, unrounded, a NaN made canonical; `-0` lies below `+0` (R50). -/
def Fmt.minMax (f : Fmt) (wantMax : Bool) (x y : Nat) : Nat × BitVec 32 :=
  let a := f.decode x
  let b := f.decode y
  let fl := flagIf (a.isSignalling || b.isSignalling) flagNV
  if a.isNaN && b.isNaN then (f.cnan, fl)
  else if a.isNaN then (y, fl)
  else if b.isNaN then (x, fl)
  else
    let aLess := a.lt b || (a.eqv b && a.isNeg && !b.isNeg)
    ((if aLess = wantMax then y else x), fl)

/-! ## Tapered formats (R41 to R47) -/

/-- Number of leading bits of the `n`-bit field `mag` equal to `b`. -/
def leadRun (mag : Nat) (b : Bool) : Nat → Nat
  | 0 => 0
  | n + 1 => if mag.testBit n = b then leadRun mag b n + 1 else 0

/-- The value of a positive code of `w` bits in units of `2 ^ -12`, by `decode_tapered` (R41). -/
def tapMag (w : Nat) (mag : Nat) : Nat :=
  if mag = 0 then 0 else
  let n := w - 1
  let b := mag.testBit (n - 1)
  let m := leadRun mag b n
  let k : Int := if b then (m : Int) - 1 else -(m : Int)
  let rest : Nat := n - m - 1
  let e : Nat := if n ≥ m + 2 then (if mag.testBit (rest - 1) then 1 else 0) else 0
  let fb : Nat := rest - 1
  let f := mag % 2 ^ fb
  -- 2 ^ (2k + e) × (1 + f / 2 ^ fb), scaled by 2 ^ 12
  (2 ^ fb + f) * pow2 (2 * k + e + 12) / 2 ^ fb

/-- `decode_tapered` (R41). -/
def tapDecode (w : Nat) (c : Nat) : FVal :=
  let mag := c % 2 ^ (w - 1)
  let neg := c / 2 ^ (w - 1) % 2 = 1
  if mag = 0 then (if neg then .nar else .zero false) else .fin neg (tapMag w mag) (-12)

/-- Whether a tapered magnitude (units of `2 ^ -12`) is at most `m · 2 ^ e`. -/
def tapLe (v : Nat) (m : Nat) (e : Int) : Bool :=
  (Dy.add ⟨v, -12⟩ ⟨-(m : Int), e⟩).n ≤ 0

/-- The largest magnitude code whose value is at most `m · 2 ^ e`, found from the top bit down. -/
def tapFloor (w : Nat) (m : Nat) (e : Int) : Nat → Nat → Nat
  | 0, acc => acc
  | n + 1, acc => if tapLe (tapMag w (acc + 2 ^ n)) m e then tapFloor w m e n (acc + 2 ^ n) else tapFloor w m e n acc

/-- `m · 2 ^ e` scaled to units of `2 ^ -12 / 2 ^ sh`: the numerator over `2 ^ sh`. -/
def tapScaled (m : Nat) (e : Int) : Nat × Nat :=
  let sh := (-(e + 12)).toNat
  (m * pow2 (e + 12), sh)

/-- Encodes a finite non-zero value into a tapered format of `w` bits (R46, R47). -/
def tapEncodeFin (w : Nat) (rm : RMode) (neg : Bool) (m : Nat) (e : Int) (sticky : Bool) : Nat × BitVec 32 :=
  let maxc := 2 ^ (w - 1) - 1
  let c := tapFloor w m e (w - 1) 0
  let (num, sh) := tapScaled m e          -- |x| = num / 2 ^ sh in units of 2 ^ -12
  let lo := tapMag w c
  let exact : Bool := num = lo * 2 ^ sh && !sticky
  let sat : Bool := c = maxc && !exact
  let up : Bool :=
    if c = maxc || exact then false else
    let hi := tapMag w (c + 1)
    let num2 := 2 * num
    let mid := (lo + hi) * 2 ^ sh
    match rm with
    | .rne => if c = 0 then num2 ≥ mid else num2 > mid || (num2 = mid && (sticky || c % 2 = 1))
    | .rtz => false
    | .rup => !neg
    | .rdn => neg
    | .sto u => u < 65536 * (num - lo * 2 ^ sh) / ((hi - lo) * 2 ^ sh)
  let r := if up then c + 1 else c
  ((if r = 0 then 0 else if neg then r + 2 ^ (w - 1) else r),
    flagIf (!exact) flagNX ||| flagIf sat flagSAT ||| flagIf (r = 0) flagUF)

/-- Encodes a value into a tapered format (R46): NaN, NaR and infinities give NaR with NRF. -/
def tapEncode (w : Nat) (rm : RMode) : FVal → Nat × BitVec 32
  | .nan s => (2 ^ (w - 1), flagNR ||| flagIf s flagNV)
  | .nar => (2 ^ (w - 1), flagNR)
  | .inf _ => (2 ^ (w - 1), flagNR)
  | .zero _ => (0, 0)
  | .fin n m e => tapEncodeFin w rm n m e false

/-! ## Integers (R52 to R54) -/

/-- Saturates to `[lo, hi]` with SATF. -/
def satInt (lo hi x : Int) : Int × BitVec 32 :=
  if x < lo then (lo, flagSAT) else if x > hi then (hi, flagSAT) else (x, 0)

/-- The range to which a `w`-bit result of I4, I8 or I16 saturates: symmetric when signed (R54). -/
def symRange (w : Nat) (sgn : Bool) : Int × Int :=
  if sgn then (-(2 ^ (w - 1) - 1), 2 ^ (w - 1) - 1) else (0, 2 ^ w - 1)

/-- The full two's-complement range. -/
def fullRange (w : Nat) : Int × Int := (-(2 ^ (w - 1)), 2 ^ (w - 1) - 1)

/-- The low `w` bits of an integer. -/
def intBits (w : Nat) (x : Int) : Nat := (x % (2 ^ w : Int)).toNat

/-- A `w`-bit pattern read signed or unsigned. -/
def intOf (w : Nat) (sgn : Bool) (bits : Nat) : Int :=
  if sgn && bits ≥ 2 ^ (w - 1) then (bits : Int) - 2 ^ w else bits

/-- A value rounded to an integer and saturated: ±∞ saturate with SATF, NaN gives 0 with NVF, NaR 0 with NVF and NRF; an
inexact in-range result sets NXF (R64). -/
def toIntSat (rm : RMode) (lo hi : Int) : FVal → Int × BitVec 32
  | .nan _ => (0, flagNV)
  | .nar => (0, flagNV ||| flagNR)
  | .inf n => (if n then lo else hi, flagSAT)
  | .zero _ => (0, 0)
  | .fin n m e =>
    let (r, inx) := roundAt rm n m e false 0
    let v : Int := if n then -(r : Int) else r
    let (s, fl) := satInt lo hi v
    (s, if fl = 0 then flagIf inx flagNX else fl)

/-! ## E8M0 block scales (R55, R56) -/

/-- `floor(log2 |v|)` of a finite non-zero value. -/
def floorLog2 (m : Nat) (e : Int) : Int := bitLen m - 1 + e

/-- The value divided by `2 ^ (x - 127)` (R56). -/
def unscale (x : Nat) : FVal → FVal
  | .fin n m e => .fin n m (e - ((x : Int) - 127))
  | v => v

/-- Whether any value of the list is NaN, NaR or infinite. -/
def anyNonFinite (vs : List FVal) : Bool :=
  vs.any fun v => v.isNaN || (match v with | .inf _ => true | _ => false)

/-- The E8M0 scale of `quantise_block` (R56): `none` when a value is NaN or infinite. `emax` is 12 for T8 and 8 for T6. -/
def blockScale (emax : Int) (vs : List FVal) : Option Nat :=
  if anyNonFinite vs then none else
  let logs := vs.filterMap fun v => match v with
    | .fin _ m e => some (floorLog2 m e)
    | _ => none
  match logs with
  | [] => some 127
  | l :: ls =>
    let x := ls.foldl max l - emax + 127
    some (if x < 0 then 0 else if x > 254 then 254 else x.toNat)

/-- `quantise_block` (R56): the scale, the codes and the flags. -/
def quantiseBlock (w : Nat) (emax : Int) (vs : List FVal) : Nat × List Nat × BitVec 32 :=
  match blockScale emax vs with
  | none => (0xFF, vs.map fun _ => 0, flagNV)
  | some x =>
    let qs := vs.map fun v => tapEncode w .rne (unscale x v)
    (x, qs.map (·.1), qs.foldl (fun a q => a ||| q.2) 0)

/-- The value of an E8M0 code: `2 ^ (x - 127)`; 0xFF gives a NaN (R55, R64). -/
def e8m0Val (x : Nat) : FVal := if x = 0xFF then .nan false else .fin false 1 ((x : Int) - 127)

/-- FP32, BF16 or FP16 into E8M0 (R64); a signalling NaN sets NVF (R50). -/
def toE8m0 : FVal → Nat × BitVec 32
  | .nan s => (0xFF, flagIf s flagNV)
  | .nar => (0xFF, 0)
  | .inf _ => (0xFF, 0)
  | .zero _ => (0, flagUF)
  | .fin _ m e =>
    let x := floorLog2 m e + 127
    if x < 0 then (0, flagSAT) else if x > 254 then (254, flagSAT) else (x.toNat, 0)

/-! ## Functions of R143 -/

/-- Floor of the square root, bit by bit from bit `n`. -/
def isqrt (x : Nat) : Nat → Nat → Nat
  | 0, r => r
  | n + 1, r => if (r + 2 ^ n) * (r + 2 ^ n) ≤ x then isqrt x n (r + 2 ^ n) else isqrt x n r

/-- Fraction bits of the fixed-point evaluation of `2 ^ x` and `log2 x`: far more than any result format, so that the
correctly rounded result is found (assumption log 9). -/
def fxBits : Nat := 448

/-- `floor(2 ^ fxBits × ln 2)`, nearly, from the series of `1 / (k 2 ^ k)`. -/
def fxLn2 : Nat → Nat → Nat
  | 0, _ => 0
  | n + 1, k => 2 ^ fxBits / (k * 2 ^ k) + fxLn2 n (k + 1)

/-- The sum of `y ^ k / k!` in fixed point from the term `t` at index `k`. -/
def fxExp (y : Nat) : Nat → Nat → Nat → Nat
  | 0, _, _ => 0
  | n + 1, k, t => t + fxExp y n (k + 1) (t * y / 2 ^ fxBits / k)

/-- `2 × atanh(t)` in fixed point: the sum of `2 t ^ (2j + 1) / (2j + 1)`; `p` is the running power. -/
def fxAtanh (t2 : Nat) : Nat → Nat → Nat → Nat
  | 0, _, _ => 0
  | n + 1, k, p => 2 * p / k + fxAtanh t2 n (k + 2) (p * t2 / 2 ^ fxBits)

/-- 1/x of a finite non-zero value, rounded (R143). -/
def Fmt.rcpFin (f : Fmt) (rm : RMode) (neg : Bool) (m : Nat) (e : Int) : Nat × BitVec 32 :=
  let k := bitLen m + 96
  f.roundMag rm neg (2 ^ k / m) (-(k : Int) - e) (2 ^ k % m ≠ 0)

/-- 1/√x of a positive finite value, rounded (R143). -/
def Fmt.rsqFin (f : Fmt) (rm : RMode) (m : Nat) (e : Int) : Nat × BitVec 32 :=
  let (m, e) := if e % 2 = 0 then (m, e) else (2 * m, e - 1)
  let k := bitLen m + 96
  let n := 2 ^ (2 * k) / m
  let r := isqrt n (k + 2) 0
  f.roundMag rm false r (-(k : Int) - e / 2) (r * r * m ≠ 2 ^ (2 * k))

/-- 2^x of a finite non-zero value, rounded (R143). -/
def Fmt.exp2Fin (f : Fmt) (rm : RMode) (neg : Bool) (m : Nat) (e : Int) : Nat × BitVec 32 :=
  if floorLog2 m e ≥ 14 then f.roundMag rm false 1 (if neg then -20000 else 20000) true
  else
    -- x = ip + fr / 2 ^ fxBits with 0 ≤ fr < 2 ^ fxBits; the fraction is exact, for e ≥ -448
    let x : Int := (if neg then -1 else 1) * ((m * pow2 (e + fxBits) : Nat) : Int)
    let ip := x / (2 ^ fxBits : Int)
    let fr := (x % (2 ^ fxBits : Int)).toNat
    if fr = 0 then f.roundMag rm false 1 ip false
    else
      let y := fr * fxLn2 460 1 / 2 ^ fxBits
      f.roundMag rm false (fxExp y 110 1 (2 ^ fxBits)) (ip - fxBits) true

/-- log2 x of a positive finite value, rounded (R143). -/
def Fmt.log2Fin (f : Fmt) (rm : RMode) (m : Nat) (e : Int) : Nat × BitVec 32 :=
  let top := floorLog2 m e
  if m = 2 ^ (bitLen m - 1) then
    if top = 0 then (0, 0) else f.roundMag rm (top < 0) top.natAbs 0 false
  else
    let one := 2 ^ (bitLen m - 1)
    let t := (m - one) * 2 ^ fxBits / (m + one)
    let ln := fxAtanh (t * t / 2 ^ fxBits) 150 1 t
    let fr := ln * 2 ^ fxBits / fxLn2 460 1
    let v : Int := top * 2 ^ fxBits + fr
    if v < 0 then f.roundMag rm true (v.natAbs - 1) (-(fxBits : Int)) true
    else f.roundMag rm false v.natAbs (-(fxBits : Int)) true

/-- The functions of R143. -/
inductive FnOp where
  | rcp | rsq | exp2 | log2
  deriving DecidableEq, Repr

/-- One element of VRCP, VRSQ, VEXP2 or VLOG2 (R143). -/
def Fmt.fn (f : Fmt) (op : FnOp) (rm : RMode) (x : FVal) : Nat × BitVec 32 :=
  match x with
  | .nan s => (f.cnan, flagIf s flagNV)
  | .nar => (f.cnan, flagNR)
  | .zero n =>
    match op with
    | .rcp => (f.infBits n, flagDZ)
    | .rsq => (f.infBits n, flagDZ)
    | .exp2 => f.roundMag rm false 1 0 false
    | .log2 => (f.infBits true, flagDZ)
  | .inf n =>
    match op with
    | .rcp => (f.signBit n, 0)
    | .rsq => if n then (f.cnan, flagNV) else (0, 0)
    | .exp2 => if n then (0, 0) else (f.infBits false, 0)
    | .log2 => if n then (f.cnan, flagNV) else (f.infBits false, 0)
  | .fin n m e =>
    match op with
    | .rcp => f.rcpFin rm n m e
    | .rsq => if n then (f.cnan, flagNV) else f.rsqFin rm m e
    | .exp2 => f.exp2Fin rm n m e
    | .log2 => if n then (f.cnan, flagNV) else f.log2Fin rm m e

end Sys2Proof.Machine
end

