-- ==== Sys2Proof/Machine/Sieve.lean ====
section
/-!
DEFINITION. Distant digests: region records, entries, and the update of an entry in the home step that writes its block
(R264 to R278).
-/
namespace Sys2Proof.Machine

/-! ## Region records (R265) -/

/-- A region record's fields. -/
structure Region where
  w : Nat
  state : Nat
  layout : Nat
  sgn : Bool
  fmt : Nat
  kind : Nat
  bsz : Nat
  asid : Nat
  nblk : Nat
  base : Nat
  deriving DecidableEq, Repr

/-- The fields of the 16 bytes of a record (R265). -/
def Region.ofBits (r : BitVec 128) : Region :=
  { w := field r 116 12, state := field r 114 2, layout := field r 113 1, sgn := r.getLsbD 112, fmt := field r 108 4,
    kind := field r 106 2, bsz := field r 104 2, asid := field r 96 8, nblk := field r 64 32, base := field r 0 52 }

/-- Block size in bytes (R265). -/
def Region.block (r : Region) : Nat :=
  match r.bsz with
  | 0 => 4096
  | 1 => 8192
  | 2 => 16384
  | _ => 65536

/-- Element size in bits by tag code; RAW counts bytes (R266). -/
def tagBits (t : Nat) : Nat :=
  match t with
  | 1 => 32 | 2 => 16 | 3 => 16 | 7 => 16 | 8 => 32 | 9 => 4 | 11 => 64
  | _ => 8

/-- The COUNT that entries of the region carry (R266). -/
def Region.count (r : Region) : Nat :=
  if r.kind = 3 then
    if r.layout = 1 then 16 else if r.w = 0 then 0 else r.block / (r.w * (tagBits r.fmt / 8))
  else r.block * 8 / tagBits r.fmt

/-! ## Elements -/

/-- The bits of element `i` of a block read byte by byte. -/
def elemBits (bits : Nat) (rd : Nat → Byte) (i : Nat) : Nat :=
  if bits = 4 then (rd (i / 2)).toNat / (if i % 2 = 0 then 1 else 16) % 16
  else leNat ((List.range (bits / 8)).map fun j => rd (i * (bits / 8) + j))

/-- An integer as a value. -/
def valOfInt (x : Int) : FVal := (Dy.ofInt x).toF false

/-- The value of an element's bits under a tag code; integers are read with `sgn` (R265). -/
def elemVal (fmt : Nat) (sgn : Bool) (x : Nat) : FVal :=
  match fmt with
  | 1 => fmtFP32.decode x
  | 2 => fmtBF16.decode x
  | 3 => fmtFP16.decode x
  | 4 => tapDecode 8 x
  | 5 => tapDecode 6 x
  | 8 => valOfInt (intOf 32 true x)
  | 11 => valOfInt (intOf 64 true x)
  | 0 => valOfInt x
  | _ => valOfInt (intOf (tagBits fmt) sgn x)

def isIntFmt (fmt : Nat) : Bool := fmt = 6 || fmt = 7 || fmt = 8 || fmt = 9 || fmt = 11

/-- The 64-bit field of a value: signed integer, or FP64, which holds every decoded element (R270). -/
def fieldOfVal (isInt : Bool) (v : FVal) : Nat :=
  if isInt then intBits 64 (match v with | .fin n m e => (if n then -1 else 1) * ((m * pow2 e : Nat) : Int) | _ => 0)
  else (fmtFP64.ofVal .rne v).1

def valOfField (isInt : Bool) (x : Nat) : FVal :=
  if isInt then valOfInt (intOf 64 true x) else fmtFP64.decode x

/-! ## Entries (R268) -/

/-- Header bits of the three states. -/
inductive EntSt where
  | invalid | loose | exact
  deriving DecidableEq, Repr

def entState (e : BitVec 512) : EntSt :=
  if e.getLsbD 13 then .invalid else if e.getLsbD 12 then .loose else .exact

def setEntState (e : BitVec 512) (st : EntSt) : BitVec 512 :=
  setField e 11 3 (match st with | .invalid => 4 | .loose => 2 | .exact => 1)

def entVersion (e : BitVec 512) : BitVec 32 := e.extractLsb' 32 32

/-- The version after one more home step: after 0xFFFF_FFFE comes 0 (R277). -/
def bumpVersion (e : BitVec 512) : BitVec 512 :=
  setField e 32 32 (if entVersion e = 0xFFFFFFFE#32 then 0 else (entVersion e).toNat + 1)

/-- The header of a region's entry (R268). -/
def entHeader (r : Region) (version : Nat) (st : EntSt) : BitVec 512 :=
  setEntState (setField (setField (setField (setField 0 32 32 version) 14 18 r.count) 8 3 r.kind) 4 4 r.fmt) st

/-- The payload of an INVALID entry: bytes 8 to 39 are 0x80 (R269). -/
def invalidPayload (e : BitVec 512) : BitVec 512 :=
  setField (setField e 64 256 (leNat (List.replicate 32 0x80#8))) 320 192 0

/-- The entry of an address in no region (R269). -/
def noRegionEntry : BitVec 512 := invalidPayload (setEntState 0 .invalid)

/-- A region-INVALID entry with the block's version (R269). -/
def regionInvalid (r : Region) (version : Nat) : BitVec 512 := invalidPayload (entHeader r version .invalid)

/-! ## BOUNDS (R270) -/

/-- The class of a value: 0 finite, 1 NaN or NaR, 2 +∞, 3 −∞. -/
def valClass (v : FVal) : Nat :=
  match v with
  | .nan _ => 1
  | .nar => 1
  | .inf n => if n then 3 else 2
  | _ => 0

/-- The payload of bounds over a list of values, as a scan forms it; of −0 and +0 the one met first stays. DESIGN CHOICE: log 113. -/
def boundsScan (r : Region) (vs : List FVal) : BitVec 512 :=
  let fin := vs.filter (valClass · = 0)
  let isInt := isIntFmt r.fmt
  let lo := fin.foldl (fun a v => if v.lt a then v else a) (.inf false)
  let hi := fin.foldl (fun a v => if a.lt v then v else a) (.inf true)
  let nf := (if vs.any (valClass · = 1) then 1 else 0) + (if vs.any (valClass · = 2) then 2 else 0) +
    (if vs.any (valClass · = 3) then 4 else 0)
  setField (setField (setField (entHeader r 0 .exact) 64 64 (fieldOfVal isInt lo)) 128 64 (fieldOfVal isInt hi)) 192 8 nf

/-- `bounds_update` (R270); of −0 and +0 the one met first stays. DESIGN CHOICE: log 113. -/
def boundsUpdate (r : Region) (e : BitVec 512) (old new : FVal) : BitVec 512 :=
  let isInt := isIntFmt r.fmt
  let lo := valOfField isInt (field e 64 64)
  let hi := valOfField isInt (field e 128 64)
  let fin := fun v => decide (valClass v = 0)
  let loose : Bool :=
    (!fin old && valClass new ≠ valClass old) ||
    (fin old && ((old.eqv hi && (!fin new || new.lt old)) || (old.eqv lo && (!fin new || old.lt new))))
  let e := if loose then setEntState e .loose else e
  match valClass new with
  | 1 => setField e 192 1 1
  | 2 => setField e 193 1 1
  | 3 => setField e 194 1 1
  | _ =>
    let e := if new.lt lo then setField e 64 64 (fieldOfVal isInt new) else e
    if hi.lt new then setField e 128 64 (fieldOfVal isInt new) else e

/-! ## SUM (R271, R272) -/

/-- A value as FP64, with whether the conversion was inexact. -/
def toF64 (v : FVal) : FVal × Bool :=
  let (b, f) := fmtFP64.ofVal .rne v
  (fmtFP64.decode b, f &&& flagNX != 0)

/-- Rounds an exact value into FP64: the bits and whether it was inexact. -/
def rne64 (v : FVal) : Nat × Bool :=
  let (b, f) := fmtFP64.ofVal .rne v
  (b, f &&& flagNX != 0)

def absVal : FVal → FVal
  | .fin _ m e => .fin false m e
  | .inf _ => .inf false
  | .zero _ => .zero false
  | v => v

/-- The payload of sums over a list of values, as a scan forms it (R271). DEDUCED: log 16. -/
def sumScan (r : Region) (vs : List FVal) : BitVec 512 :=
  let vs := vs.map fun v => (toF64 v).1
  if anyNonFinite vs then
    let amax := vs.foldl (fun a v => if v.isNaN then a else if a.lt (absVal v) then absVal v else a) (.zero false)
    setField (setField (setField (entHeader r 0 .exact) 64 64 fmtFP64.cnan) 128 64 fmtFP64.cnan) 192 64 (rne64 amax).1
  else
    let sum := vs.foldl (fun a v => Dy.add a v.dy) ⟨0, 0⟩
    let sq := vs.foldl (fun a v => Dy.add a (Dy.mul v.dy v.dy)) ⟨0, 0⟩
    let amax := vs.foldl (fun a v => if a.lt (absVal v) then absVal v else a) (.zero false)
    setField (setField (setField (entHeader r 0 .exact) 64 64 (rne64 (sum.toF false)).1) 128 64 (rne64 (sq.toF false)).1)
      192 64 (rne64 amax).1

/-- `sum_update` (R272). -/
def sumUpdate (e : BitVec 512) (old0 new0 : FVal) : BitVec 512 :=
  let (old, i1) := toF64 old0
  let (new, i2) := toF64 new0
  if anyNonFinite [old, new] then
    let e := setEntState (setField (setField e 64 64 fmtFP64.cnan) 128 64 fmtFP64.cnan) .loose
    match new with
    | .inf _ => setField e 192 64 (fmtFP64.infBits false)
    | _ => e
  else if (fmtFP64.decode (field e 64 64)).isNaN then e
  else
    let (a, j1) := rne64 (FVal.add .rne (fmtFP64.decode (field e 64 64)) old.negate).1
    let (sum, j2) := rne64 (FVal.add .rne (fmtFP64.decode a) new).1
    let (b, j3) := rne64 (FVal.add .rne (fmtFP64.decode (field e 128 64)) (FVal.mul old old).1.negate).1
    let (sq, j4) := rne64 (FVal.add .rne (fmtFP64.decode b) (FVal.mul new new).1).1
    let amax := fmtFP64.decode (field e 192 64)
    let e := setField (setField e 64 64 sum) 128 64 sq
    let e := if amax.lt (absVal new) then setField e 192 64 (rne64 (absVal new)).1 else e
    let drift := field e 256 32
    let drift' := if i1 || i2 || j1 || j2 || j3 || j4 then min (drift + 1) 0xFFFFFFFF else drift
    let e := setField e 256 32 drift'
    if drift' > 0 then setEntState e .loose else e

/-! ## ZMAP (R273) -/

/-- The bits of one granule of the map, re-examined. -/
def zmapGranule (r : Region) (rd : Nat → Byte) (g : Nat) : Bool :=
  let n := r.block / 256
  (List.range n).any fun j => rd (g * n + j) != 0

/-- The map with the granules of the list re-examined, and its count of set bits. -/
def zmapRefresh (r : Region) (rd : Nat → Byte) (e : BitVec 512) (gs : List Nat) : BitVec 512 :=
  let e := gs.foldl (fun e g => setField e (64 + g) 1 (if zmapGranule r rd g then 1 else 0)) e
  setField e 320 16 ((List.range 256).foldl (fun n g => if e.getLsbD (64 + g) then n + 1 else n) 0)

/-! ## SKETCH (R274 to R276) -/

/-- The T8 code with which a value enters MAX (`up`) or MIN: NaR beyond ±4,096 and for NaN (R274). -/
def sketchCode (up : Bool) (v : FVal) : Nat :=
  match v with
  | .zero _ => 0
  | .fin n m e =>
    let (c, f) := tapEncodeFin 8 (if up then .rup else .rdn) n m e false
    if f &&& flagSAT != 0 then 0x80 else c
  | _ => 0x80

/-- Order of T8 codes that are not NaR. -/
def t8Lt (a b : Nat) : Bool := (tapDecode 8 a).lt (tapDecode 8 b)

/-- MAX and MIN of group `g`, raised and lowered with a value. -/
def sketchEnter (e : BitVec 512) (g : Nat) (v : FVal) : BitVec 512 :=
  let mx := field e (64 + 8 * g) 8
  let mn := field e (192 + 8 * g) 8
  let cu := sketchCode true v
  let cd := sketchCode false v
  let mx' := if mx = 0x80 then mx else if cu = 0x80 then 0x80 else if t8Lt mx cu then cu else mx
  let mn' := if mn = 0x80 then mn else if cd = 0x80 then 0x80 else if t8Lt cd mn then cd else mn
  setField (setField e (64 + 8 * g) 8 mx') (192 + 8 * g) 8 mn'

/-- LOOSE when a counted value that stood at its group's bound moves inward; NaN is neither lower nor higher (R275). -/
def sketchLeave (e : BitVec 512) (g : Nat) (old new : FVal) : BitVec 512 :=
  let atMax := sketchCode true old = field e (64 + 8 * g) 8
  let atMin := sketchCode false old = field e (192 + 8 * g) 8
  if !old.isNaN && !new.isNaN && ((atMax && new.lt old) || (atMin && old.lt new)) then setEntState e .loose else e

/-- A counted value replaced by another. -/
def sketchReplace (e : BitVec 512) (g : Nat) (old new : FVal) : BitVec 512 :=
  sketchEnter (sketchLeave e g old new) g new

/-- The group of a channel: 16 groups of `w / 16` channels. -/
def sketchGroup (w j : Nat) : Nat := if w / 16 = 0 then 0 else j / (w / 16)

/-- The empty payload: every MAX 0xFF, every MIN 0x7F, no SEEN bit (R274, R276). -/
def sketchEmpty (e : BitVec 512) : BitVec 512 :=
  setField (setField (setField e 64 128 (leNat (List.replicate 16 0xFF#8))) 192 128 (leNat (List.replicate 16 0x7F#8))) 320 192 0

/-- What a reset step makes of the entry of a KV slot: the empty payload, EXACT (R276). -/
def sketchReset (e : BitVec 512) : BitVec 512 := setEntState (sketchEmpty e) .exact

/-- K element `j` of token `t` of a KV slot (R275). -/
def kvVal (w : Nat) (rd : Nat → Byte) (t j : Nat) : FVal :=
  let x := (rd (32 * w + t * (w / 32) + j / 32)).toNat
  if x = 0xFF then .nan false else
  match tapDecode 8 (rd (t * w + j)).toNat with
  | .fin n m e => .fin n m (e + ((x : Int) - 127))
  | v => v

/-- The payload of a sketch over a whole block, as a scan forms it (R275). -/
def sketchScan (r : Region) (rd : Nat → Byte) : BitVec 512 :=
  let e := sketchEmpty (entHeader r 0 .exact)
  if r.layout = 1 then
    let e := (List.range 16).foldl (fun e t => (List.range r.w).foldl (fun e j => sketchEnter e (sketchGroup r.w j) (kvVal r.w rd t j)) e) e
    setField e 320 112 (2 ^ (16 * (r.w / 32)) - 1)
  else
    (List.range (r.count * r.w)).foldl
      (fun e i => sketchEnter e (sketchGroup r.w (i % r.w)) (elemVal r.fmt r.sgn (elemBits (tagBits r.fmt) rd i))) e

/-- One byte of a KV slot written: a K code, a K scale, or neither (R275). -/
def kvByteUpdate (r : Region) (rdOld rdNew : Nat → Byte) (e : BitVec 512) (a : Nat) : BitVec 512 :=
  let w := r.w
  if a < 16 * w then
    let t := a / w
    let j := a % w
    if e.getLsbD (320 + t * (w / 32) + j / 32) then
      sketchReplace e (sketchGroup w j) (kvVal w rdOld t j) (kvVal w rdNew t j)
    else e
  else if 32 * w ≤ a && a < 32 * w + w / 2 then
    let n := a - 32 * w
    let t := n / (w / 32)
    let b := n % (w / 32)
    let seen := e.getLsbD (320 + n)
    let e := setField e (320 + n) 1 1
    (List.range 32).foldl (fun e i =>
      let j := 32 * b + i
      let new := kvVal w rdNew t j
      if seen then sketchReplace e (sketchGroup w j) (kvVal w rdOld t j) new else sketchEnter e (sketchGroup w j) new) e
  else e

/-! ## Scan and home step -/

/-- The entry that a scan or a DIGRS computes from a block's data, with version 0 (R267). -/
def scanEntry (r : Region) (rd : Nat → Byte) : BitVec 512 :=
  let n := r.block * 8 / tagBits r.fmt
  let vals := fun (_ : Unit) => (List.range n).map fun i => elemVal r.fmt r.sgn (elemBits (tagBits r.fmt) rd i)
  match r.kind with
  | 0 => boundsScan r (vals ())
  | 1 => sumScan r (vals ())
  | 2 => zmapRefresh r rd (entHeader r 0 .exact) (List.range 256)
  | _ => sketchScan r rd

/-- A list without the elements that repeat the one before. -/
def dedupAdj : List Nat → List Nat
  | [] => []
  | x :: l =>
    match dedupAdj l with
    | [] => [x]
    | y :: l => if x = y then y :: l else x :: y :: l

/-- The elements of `bits` bits that the bytes at the rising offsets `offs` touch. -/
def touched (bits : Nat) (offs : List Nat) : List Nat :=
  dedupAdj (offs.flatMap fun a =>
    let first := a * 8 / bits
    (List.range ((a * 8 + 7) / bits + 1 - first)).map (first + ·))

/-- An entry after a home step that wrote the bytes at the rising offsets `offs` of its block (R270 to R278): a byte's value before
is `rdOld`, after is `rdNew`, both by offset in the block. -/
def entryUpdate (r : Region) (rdOld rdNew : Nat → Byte) (offs : List Nat) (e0 : BitVec 512) : BitVec 512 :=
  let e := bumpVersion e0
  if entState e = .invalid then e else
  let bits := tagBits r.fmt
  let val := fun rd i => elemVal r.fmt r.sgn (elemBits bits rd i)
  match r.kind with
  | 0 => (touched bits offs).foldl (fun e i => boundsUpdate r e (val rdOld i) (val rdNew i)) e
  | 1 => (touched bits offs).foldl (fun e i => sumUpdate e (val rdOld i) (val rdNew i)) e
  | 2 => zmapRefresh r rdNew e (touched (r.block / 256 * 8) offs)
  | _ =>
    if r.layout = 1 then offs.foldl (fun e j => kvByteUpdate r rdOld rdNew e j) e
    else (touched bits offs).foldl
      (fun e i => sketchReplace e (sketchGroup r.w (i % r.w)) (val rdOld i) (val rdNew i)) e

/-- The digest entries of a package after a home step that wrote the bytes at the rising physical addresses `ws`. -/
def digestsAfter (regions : Bank 8 (BitVec 128)) (old new : List Host.Cell) (ws : List Nat) (ds : List DigEntry) : List DigEntry :=
  ds.map fun d =>
    let r := Region.ofBits (regions.read d.region)
    let b := d.pa.toNat
    let offs := (ws.filter fun a => b ≤ a && a < b + r.block).map (· - b)
    if offs.isEmpty then d
    else { d with bytes := entryUpdate r (fun j => Memory.read old (b + j)) (fun j => Memory.read new (b + j)) offs d.bytes }

end Sys2Proof.Machine
end

