-- ==== Sys2Proof/Machine/Ops.lean ====
section
/-!
DEFINITION. The named operations over cores, registers and memory; fault records; taking a trap as one shared operation, and
the return from a rollback beside it (R369 to R386).
-/
namespace Sys2Proof.Machine

/-- Every meaning answers in this type. -/
abbrev Result := Host.Outcome State Fault Refusal

/-! ## Choices -/

/-- A free choice among `n` possibilities, taken from the counter of choices. DESIGN CHOICE: log 3. -/
def State.choose (s : State) (n : Nat) : Nat × State :=
  if n ≤ 1 then (0, s) else (Config.choice s.choiceCtr % n, { s with choiceCtr := s.choiceCtr + 1 })

/-- A free subset of a list, not empty when the list is not: what is chosen and what is left. DESIGN CHOICE: log 3. -/
def State.chooseSome {α : Type} (s : State) (l : List α) : List α × List α × State :=
  let (k, s) := s.choose (2 ^ l.length - 1)
  let pick := fun (b : Bool) => (l.zipIdx.filter fun x => (k + 1).testBit x.2 = b).map (·.1)
  (pick true, pick false, s)

/-! ## Contexts and cores -/

/-- The context numbered 0 main, 1 tail 0, 2 (or 3) tail 1. -/
def Core.ctx (c : Core) (n : BitVec 2) : Ctx :=
  if n = 0 then c.main else if n = 1 then c.tail0 else c.tail1

def Core.setCtx (c : Core) (n : BitVec 2) (x : Ctx) : Core :=
  if n = 0 then { c with main := x } else if n = 1 then { c with tail0 := x } else { c with tail1 := x }

def Core.mapCtx (c : Core) (n : BitVec 2) (f : Ctx → Ctx) : Core := c.setCtx n (f (c.ctx n))

/-- The core of a tile that is not the focused one. -/
def findCore (l : List (Nat × Core)) (t : Nat) : Core :=
  match l.find? (fun p => p.1 = t) with
  | some p => p.2
  | none => .idle

/-- The parked cores with that of tile `t` replaced, in rising order of tiles. -/
def parkCore (t : Nat) (c : Core) : List (Nat × Core) → List (Nat × Core)
  | [] => [(t, c)]
  | p :: l => if p.1 < t then p :: parkCore t c l else if p.1 = t then (t, c) :: l else (t, c) :: p :: l

/-- The core of a tile. -/
def State.coreAt (s : State) (t : BitVec 7) : Core :=
  if t = s.coreTile then s.core else findCore s.parked t.toNat

def State.setCoreAt (s : State) (t : BitVec 7) (c : Core) : State :=
  if t = s.coreTile then { s with core := c } else { s with parked := parkCore t.toNat c s.parked }

/-- The state with the core of tile `t` in `core`. DESIGN CHOICE: log 4. -/
def State.focus (s : State) (t : BitVec 7) : State :=
  if t = s.coreTile then s
  else
    { s with
      coreTile := t
      core := findCore s.parked t.toNat
      parked := (parkCore s.coreTile.toNat s.core s.parked).filter (fun p => p.1 ≠ t.toNat) }

/-- The state with the focused core changed. -/
def State.mapCore (s : State) (f : Core → Core) : State := { s with core := f s.core }

/-- The context whose bundle is issuing. -/
def State.ctx (s : State) : Ctx := s.core.ctx s.core.cur.ctx

def State.mapCtx (s : State) (f : Ctx → Ctx) : State := s.mapCore fun c => c.mapCtx c.cur.ctx f

/-- The state with the bundle in issue changed. -/
def State.mapCur (s : State) (f : Issue → Issue) : State := s.mapCore fun c => { c with cur := f c.cur }

/-- The state with the shared registers changed. -/
def State.mapSh (s : State) (f : Shared → Shared) : State := s.mapCore fun c => { c with sh := f c.sh }

/-- The state with the issuing context's private registers changed. -/
def State.mapRegs (s : State) (f : Priv → Priv) : State := s.mapCtx fun x => { x with regs := f x.regs }

/-! ## Tile numbering (R12, R13) -/

def tileX (t : BitVec 7) : Nat := t.toNat % 16
def tileY (t : BitVec 7) : Nat := t.toNat / 16
def tileOf (x y : Nat) : BitVec 7 := BitVec.ofNat 7 (16 * (y % 8) + x % 16)
def dieOf (t : BitVec 7) : BitVec 2 := BitVec.ofNat 2 (tileX t / 8 + 2 * (tileY t / 4))
def quadOf (t : BitVec 7) : BitVec 5 := BitVec.ofNat 5 (tileX t / 2 + 8 * (tileY t / 2))
def memberOf (t : BitVec 7) : BitVec 2 := BitVec.ofNat 2 (tileX t % 2 + 2 * (tileY t % 2))
/-- The tile of member `m` of the quad of tile `t`. -/
def quadMate (t : BitVec 7) (m : BitVec 2) : BitVec 7 :=
  tileOf (tileX t / 2 * 2 + m.toNat % 2) (tileY t / 2 * 2 + m.toNat / 2)
/-- Neighbour in direction 0 +X, 1 -X, 2 +Y, 3 -Y (R13, R401). -/
def neighbour (t : BitVec 7) (d : BitVec 2) : BitVec 7 :=
  match d.toNat with
  | 0 => tileOf (tileX t + 1) (tileY t)
  | 1 => tileOf (tileX t + 15) (tileY t)
  | 2 => tileOf (tileX t) (tileY t + 1)
  | _ => tileOf (tileX t) (tileY t + 7)
/-- The pod-wide number of a tile of this package (R12). -/
def podTile (t : BitVec 7) : Nat := 128 * Config.pkgId.toNat + t.toNat

/-- The Trellis of a tile. -/
def State.trellisAt (s : State) (t : BitVec 7) : Trellis :=
  match s.trellis.find? fun p => p.1 = t with
  | some p => p.2
  | none => .fresh

def State.setTrellis (s : State) (t : BitVec 7) (x : Trellis) : State :=
  { s with trellis := (s.trellis.filter fun p => p.1 ≠ t) ++ [(t, x)] }

/-! ## Watch maps (R396) -/

/-- The age at which a strike lapses, in reference clocks of 10 ns (R390). -/
def watchDay : Nat := 8640000000000

/-- A watch map's record of a tile once a notice about the tile has reached the map (R396 to R398, R402, R403). -/
def Notice.applied (n : Notice) (m : MapEntry) : MapEntry :=
  match n.kind.toNat with
  | 0 => if m.fenced then m else { m with fenced := true, isolated := false, strikes := m.strikes ++ [n.time] }
  | 1 => if m.fenced then m else { m with fenced := true, isolated := false }
  | 2 => { m with fenced := false }
  | 3 => { m with isolated := true }
  | 4 => { m with isolated := false }
  | _ => { m with strikes := m.strikes.filter fun a => n.time < a + watchDay }

/-- The record of tile `t` in the watch map that tile `v` holds: `map` is what every map holds, and each notice of the management ring has
reached the tiles in `seen`. -/
def State.mapAt (s : State) (v t : BitVec 7) : MapEntry :=
  (s.mring.filter fun n => n.subject = t && n.seen.getLsbD v.toNat).foldl (fun m n => n.applied m) (s.map.read t)

/-! ## Registers (R22, R23, R72): reads see the values from before the bundle, writes go to the working set -/

/-- A scalar register of a register set; `s0` reads as zero (R23). -/
def Priv.sreg (r : Priv) (i : BitVec 6) : Word := if i = 0 then 0 else r.s.read i

/-- A predicate of a register set; `p0` reads as true (R23). Indices 48 to 63 name none. -/
def Priv.preg (r : Priv) (i : BitVec 6) : Bool := i = 0 || r.p.getLsbD i.toNat

/-- A write of a scalar register; a write of `s0` is ignored (R23). -/
def Priv.setS (r : Priv) (i : BitVec 6) (x : Word) : Priv := if i = 0 then r else { r with s := r.s.write i x }

/-- A write of a predicate; a write of `p0` is ignored (R23). -/
def Priv.setP (r : Priv) (i : BitVec 6) (x : Bool) : Priv :=
  if i = 0 || i.toNat ≥ 48 then r else { r with p := setField r.p i.toNat 1 (if x then 1 else 0) }

/-- A lane mask; `lm0` reads as all ones (R27). -/
def Shared.lmask (r : Shared) (i : BitVec 3) : BitVec 256 := if i = 0 then BitVec.allOnes 256 else r.lm.read i

def Shared.setLm (r : Shared) (i : BitVec 3) (x : BitVec 256) : Shared := if i = 0 then r else { r with lm := r.lm.write i x }

/-- A mark set; `ms0` reads as zero (R33). -/
def Shared.mset (r : Shared) (i : BitVec 4) : BitVec 21 := if i = 0 then 0 else r.ms.read i

/-- Operand reads of the bundle in issue (R72). -/
def State.sreg (s : State) (i : BitVec 6) : Word := s.core.cur.pre.sreg i
def State.preg (s : State) (i : BitVec 6) : Bool := s.core.cur.pre.preg i
def State.breg (s : State) (i : BitVec 2) : BitVec 32 := s.core.cur.pre.b.read i
def State.vreg (s : State) (i : BitVec 5) : VReg := s.core.cur.preSh.v.read i
def State.treg (s : State) (i : BitVec 2) : TReg := s.core.cur.preSh.t.read i
def State.lmask (s : State) (i : BitVec 3) : BitVec 256 := s.core.cur.preSh.lmask i
def State.mset (s : State) (i : BitVec 4) : BitVec 21 := s.core.cur.preSh.mset i
def State.dreg (s : State) (i : BitVec 4) : BitVec 512 := s.core.cur.preSh.d.read i

/-- Register writes of the bundle in issue. -/
def State.setS (s : State) (i : BitVec 6) (x : Word) : State := s.mapRegs (·.setS i x)
def State.setP (s : State) (i : BitVec 6) (x : Bool) : State := s.mapRegs (·.setP i x)
def State.setB (s : State) (i : BitVec 2) (x : BitVec 32) : State := s.mapRegs fun r => { r with b := r.b.write i x }
def State.setV (s : State) (i : BitVec 5) (x : VReg) : State := s.mapSh fun r => { r with v := r.v.write i x }
def State.setT (s : State) (i : BitVec 2) (x : TReg) : State := s.mapSh fun r => { r with t := r.t.write i x }
def State.setLm (s : State) (i : BitVec 3) (x : BitVec 256) : State := s.mapSh (·.setLm i x)

/-- A write of both predicates of pair `k` (R113). -/
def State.setPair (s : State) (k : BitVec 5) (a b : Bool) : State :=
  (s.setP (k ++ 0#1) a).setP (k ++ 1#1) b

/-- Whether the guard of a slot is true, by the predicates before the bundle and the leaves of its TREE (R69, R71). -/
def State.guard (s : State) (g : Guard) : Bool :=
  (if g.idx.toNat < 48 then s.preg g.idx else s.core.cur.leaf.toNat + 48 == g.idx.toNat) != g.neg

/-- The immediate `imm` of the slot in issue, extended by an XIMM that targets the slot (R85). -/
def State.extImm (s : State) (w : Nat) (slot : BitVec 3) (imm : Nat) : Nat :=
  match s.core.cur.ximm with
  | some (t, pay) => if t = slot then pay.toNat * 2 ^ w + imm else imm
  | none => imm

/-! ## Device memory at its homes (R15, R20, R278, R381) -/

/-- The channel of a physical address, as package and stack bits and the channel number of R335. -/
def channelOf (pa : Nat) : BitVec 9 × BitVec 5 :=
  (BitVec.ofNat 9 (pa / 2 ^ 36), BitVec.ofNat 5 (pa / 2 ^ 8) ^^^ BitVec.ofNat 5 (pa / 2 ^ 16))

/-- The quiesce of the channel that holds an address; a channel of another package is never one of this package's (R15, R405). -/
def State.quiesceAt (s : State) (pa : Nat) : Option Nat :=
  s.quiesces.findIdx? fun q => decide (channelOf pa = (q.stack, q.channel))

/-- Whether the channel of an address is quiesced (R405). -/
def State.quiesced (s : State) (pa : Nat) : Bool := (s.quiesceAt pa).isSome

/-- Whether an address lies in the range of a tail store register (R354). -/
def kvtsRange (r : BitVec 64) (pa : Nat) : Bool :=
  let base := field r 20 25 * 2 ^ 20
  base ≤ pa && pa < base + field r 0 5 * 2 ^ 20

/-- The home of a physical address: package and die (R15, R335). -/
def homeOf (pa : Nat) : BitVec 8 := BitVec.ofNat 8 (pa / 2 ^ 37)

/-- The die of an address's home, within its package (R335). -/
def homeDie (pa : Nat) : BitVec 2 := BitVec.ofNat 2 (pa / 2 ^ 37)

/-! ## Routes between packages (R17, R419) -/

/-- The two ports of a torus direction: dimension 0 X, 1 Y, 2 Z, and whether it is the negative one (R17). -/
def dirPorts (dim : Nat) (neg : Bool) : List (BitVec 4) :=
  match dim, neg with
  | 0, false => [0, 9]
  | 0, true => [3, 6]
  | 1, false => [1, 4]
  | 1, true => [7, 10]
  | 2, false => [2, 8]
  | _, _ => [5, 11]

/-- The port that a direction uses: the lower-numbered one that is up (R419). A direction without one is unreachable (R17). -/
def State.dirPort (s : State) (dim : Nat) (neg : Bool) : Option (BitVec 4) :=
  (dirPorts dim neg).find? fun p => (s.ports.read p).state = 2

/-- A package's coordinate in a dimension (R17). -/
def coordOf (pkg dim : Nat) : Nat := pkg / 4 ^ dim % 4

/-- Whether the shorter way round the ring of a dimension is the negative one (R419); of two ways of one length the positive one is
taken. DEDUCED: log 66. -/
def shorterNeg (dim src dst : Nat) : Bool :=
  let e := 2 ^ (Config.extent (BitVec.ofNat 2 dim)).val
  let up := (dst + e - src) % e
  decide (e - up < up)

/-- Whether a dimension of the pod has more than one package on a ring (R17). -/
def ringed (dim : Nat) : Bool := decide ((Config.extent (BitVec.ofNat 2 dim)).val ≠ 0)

/-- The port by which a request for another package leaves: the first dimension in the order X, Y, Z in which the packages differ, its
shorter way and then the other; with both down, a way of the next dimension that has a ring to go round (R419). A dimension in which the
packages do not differ comes last: past it the request takes another package's ports. DEDUCED: log 66. -/
def State.firstHop (s : State) (src dst : Nat) : Option (BitVec 4) :=
  let go := fun (dim : Nat) =>
    let n := shorterNeg dim (coordOf src dim) (coordOf dst dim)
    match s.dirPort dim n with
    | some p => some p
    | none => s.dirPort dim !n
  let differ := [0, 1, 2].filter fun d => coordOf src d ≠ coordOf dst d
  (differ ++ ([0, 1, 2].filter fun d => !differ.contains d && ringed d)).findSome? go

/-- Whether every direction of the package has a port that is up; `firstHop` then finds one for every package. -/
def State.meshUp (s : State) : Bool := [0, 1, 2].all fun d => (s.dirPort d false).isSome && (s.dirPort d true).isSome

/-- Whether a home on another package cannot be reached (R419). -/
def State.unreached (s : State) (pa : Nat) : Bool :=
  !s.meshUp && decide (pa / 2 ^ 39 ≠ Config.pkgId.toNat) && (s.firstHop Config.pkgId.toNat (pa / 2 ^ 39 % 64)).isNone

/-- Whether a tail store that holds or will hold an address is being reconfigured (R354). -/
def State.reconfiguring (s : State) (pa : Nat) : Bool :=
  let d := homeDie pa
  (s.kvts.read d).getLsbD 63 && (kvtsRange (s.kvts.read d) pa || (s.kvtsOld.read d).any fun r => kvtsRange r pa)

/-- Whether home does not take an access yet: no route reaches it, or its tail store is being reconfigured. -/
def State.stalls (s : State) (pa : Nat) : Bool := s.reconfiguring pa || s.unreached pa

/-- Whether the access `key` is the first of those that a channel holds whose quiesce has run its time. -/
def State.turnOf (s : State) (key : HeldAcc) : Bool := s.quiesces.any fun q => decide (q.until_ ≤ s.refClk) && q.held.head? = some key

/-- Whether the access `key` waits for its turn in a quiesced channel: the time of the quiesce has not passed, or other accesses arrived
before it (R405). An access that touches two quiesced channels is held in the first. DEDUCED: log 98. -/
def State.waitsTurn (s : State) (key : HeldAcc) (pa : Nat) : Bool :=
  match (s.quiesceAt pa).bind fun i => s.quiesces[i]? with
  | some q => !(decide (q.until_ ≤ s.refClk) && s.turnOf key)
  | none => false

/-- Whether home makes the access `key` wait (R354, R405, R419). -/
def State.homeHeld (s : State) (key : HeldAcc) (pa : Nat) : Bool := s.waitsTurn key pa || s.stalls pa

/-- An access to an address joins those that its quiesced channel holds. -/
def State.joinHeld (s : State) (key : HeldAcc) (pa : Nat) : State :=
  match s.quiesceAt pa with
  | some i => { s with quiesces := s.quiesces.modify i fun q => { q with held := q.held ++ [key] } }
  | none => s

/-- Whether an access is one of a copy engine. -/
def HeldAcc.isCmd : HeldAcc → Bool
  | .cmd _ _ _ _ => true
  | _ => false

/-- The access `key` has arrived and waits: it is held in arrival order, once. A copy engine's access that no home takes is noted too, since
it counts among its core's (R16). -/
def State.arriveHeld (s : State) (key : HeldAcc) (pa : Nat) : State :=
  if s.quiesces.any fun q => q.held.contains key then s
  else if s.quiesced pa then s.joinHeld key pa
  else if key.isCmd && s.stalls pa && !s.stalled.contains key then { s with stalled := s.stalled ++ [key] }
  else s

/-- The access `key` has performed: no channel holds it any longer. -/
def State.leaveHeld (s : State) (key : HeldAcc) : State :=
  { s with
    quiesces := s.quiesces.map fun q => { q with held := q.held.erase key }
    stalled := if key.isCmd then s.stalled.erase key else s.stalled }

/-- One home step: the bytes that it writes, at rising addresses within each block, change data, poison and digest entries together; a
granule that it covers whole loses its poison (R278, R381). -/
def State.homeCells (s : State) (ws : List (Nat × Byte)) : State :=
  let mem' := ws.foldl (fun (m : List Host.Cell) w => Memory.write m w.1 w.2) s.mem
  let at_ := ws.map (·.1)
  { s with
    mem := mem'
    poison := s.poison.filter fun g => (List.range 64).any fun j => !at_.contains (g + j)
    digests := digestsAfter s.regions s.mem mem' at_ s.digests }

/-- One home step that writes consecutive bytes. -/
def State.homeStep (s : State) (pa : Nat) (bs : List Byte) : State := s.homeCells (bs.zipIdx.map fun b => (pa + b.2, b.1))

/-- A number of `n` bytes written in one home step. -/
def State.homeStepLE (s : State) (pa n x : Nat) : State := s.homeStep pa (leBytes n x)

def State.homeRead (s : State) (pa n : Nat) : Nat := Memory.readLE s.mem pa n

/-- What the distributor knows of a queue whose HEADSEQ firmware writes while the queue is closed is gone: the next head is a new one (R308,
R315). DEDUCED: log 103. -/
def State.requeued (s : State) (pa n : Nat) : State :=
  let ctl := fun (q : Nat) => s.qtBase.toNat + 64 * q
  { s with queues := Vector.ofFn fun i =>
      if ctl i + 24 < pa + n && pa < ctl i + 32 && s.homeRead (ctl i + 12) 1 / 128 = 0 then ⟨none, none, none, none, [], []⟩ else s.queues[i] }

/-- The home step of a write that arrives from a writer: the control core `ctl`, or any other. -/
def State.writeStep (s : State) (ctl : Option (BitVec 3)) (pa : Nat) (bs : List Byte) : State :=
  (if ctl.isSome then s.requeued pa bs.length else s).homeStep pa bs

/-- A write that arrives at home: it performs in one home step, adding one to the version of each block that it touches (R277), unless
home holds it. `ctl` names the control core that wrote it (R263). -/
def State.homeWriteBy (s : State) (ctl : Option (BitVec 3)) (pa : Nat) (bs : List Byte) : State :=
  let key := HeldAcc.write ctl (BitVec.ofNat 45 pa) bs
  if s.quiesced pa then s.joinHeld key pa
  else if s.stalls pa then { s with stalled := s.stalled ++ [key] }
  else s.writeStep ctl pa bs

/-- A write of an agent that is no control core. -/
def State.homeWrite (s : State) (pa : Nat) (bs : List Byte) : State := s.homeWriteBy none pa bs

/-- A number of `n` bytes written at home. -/
def State.homeWriteLE (s : State) (pa n x : Nat) : State := s.homeWrite pa (leBytes n x)

def State.poisoned (s : State) (pa n : Nat) : Bool := s.poison.any fun g => decide (g < pa + n ∧ pa < g + 64)

/-! ## Fault records (R342, R385) -/

/-- Places a record in a die's ring when there is room (R342), and raises the interrupt. -/
def State.ringPut (s : State) (die : BitVec 2) (rcd : BitVec 512) : State :=
  let r := s.rings.read die
  let slot := if r.cap = 0 then 0 else r.prod.toNat % r.cap.toNat
  let s := { s with rings := s.rings.write die { r with prod := r.prod + 1, irq := true } }
  (s.homeWrite (r.base.toNat + 64 * slot) (bytesOf rcd 64))

def State.ringFull (s : State) (die : BitVec 2) : Bool :=
  let r := s.rings.read die
  (r.prod - r.cons).toNat ≥ r.cap.toNat

/-- Whether a record would wait for room in a die's ring. -/
def State.postWaits (s : State) (die : BitVec 2) : Bool := s.ringFull die || s.recWait.any fun w => w.die = die

/-- Posts a record: into the ring, or behind the records that wait for room (R342). `holder` is the tile and the context that the fault
leaves as they are until the record is in the ring (R386). -/
def State.postRecord (s : State) (die : BitVec 2) (holder : Option (BitVec 7 × BitVec 2)) (rcd : BitVec 512) : State :=
  if s.postWaits die then { s with recWait := s.recWait ++ [⟨die, holder, rcd⟩] } else s.ringPut die rcd

/-- Posts a record about memory to the ring of its home's die, when that home is on this package (R15). -/
def State.postAtHome (s : State) (pa : Nat) (rcd : BitVec 512) : State :=
  if pa / 2 ^ 39 = Config.pkgId.toNat then s.postRecord (homeDie pa) none rcd else s

/-- Whether a waiting record is that of a kill (R385). -/
def PostWait.isKill (w : PostWait) : Bool := w.bits.extractLsb' 0 8 = 3#8

/-- Whether a record about a tile waits for room. -/
def State.recordWaits (s : State) (t : BitVec 7) : Bool := s.recWait.any fun w => w.holder.any fun h => h.1 = t

/-- Whether the record of the kill of a tile's member waits: the member is gone and its entry not yet released (R382, R386). -/
def State.killWaits (s : State) (t : BitVec 7) : Bool := s.recWait.any fun w => w.isKill && w.holder.any fun h => h.1 = t

/-- The fields of a record in the layout of R385. -/
structure Rec where
  kind : Nat
  cause : Nat
  who : Nat
  unit : Nat
  flags : Nat
  rolls : Nat
  asid : Nat
  ix : Nat
  addr : Nat
  detail : Nat
  sched : Nat
  orphans : List Nat
  teamno : Nat
  queue : Nat

def Rec.bits (r : Rec) : BitVec 512 :=
  ofBytes 512 (leBytes 1 r.kind ++ leBytes 1 r.cause ++ leBytes 2 r.who ++ leBytes 1 r.unit ++ leBytes 1 r.flags ++
    leBytes 1 r.rolls ++ leBytes 1 r.asid ++ leBytes 4 r.ix ++ leBytes 4 0 ++ leBytes 8 r.addr ++ leBytes 8 r.detail ++
    leBytes 8 r.sched ++ leBytes 4 (r.orphans.getD 0 0) ++ leBytes 4 (r.orphans.getD 1 0) ++ leBytes 4 (r.orphans.getD 2 0) ++
    leBytes 4 (r.orphans.getD 3 0) ++ leBytes 2 r.teamno ++ leBytes 1 r.queue)

/-- WHO: the pod-wide tile number and the context (R342). -/
def whoOf (t : BitVec 7) (ctx : BitVec 2) : Nat := podTile t + 8192 * ctx.toNat

/-! ## Bind records (R319) -/

def bindState (b : BitVec 512) : Nat := field b 0 3
def bindRank (b : BitVec 512) : Nat := field b 8 4
def bindQueue (b : BitVec 512) : BitVec 6 := b.extractLsb' 16 6
def bindAsid (b : BitVec 512) : BitVec 8 := b.extractLsb' 24 8
def bindMember (b : BitVec 512) : BitVec 16 := b.extractLsb' 32 16
def bindTeamNo (b : BitVec 512) : BitVec 16 := b.extractLsb' 48 16
def bindTeamSize (b : BitVec 512) : BitVec 16 := b.extractLsb' 64 16
def bindGang (b : BitVec 512) : BitVec 16 := b.extractLsb' 80 16
def bindEntry (b : BitVec 512) : BitVec 32 := b.extractLsb' 96 32
def bindImage (b : BitVec 512) : BitVec 64 := b.extractLsb' 128 64
def bindArg (b : BitVec 512) : BitVec 64 := b.extractLsb' 192 64
def bindTeamBlk (b : BitVec 512) : BitVec 64 := b.extractLsb' 256 64
def bindCkey (b : BitVec 512) : BitVec 32 := b.extractLsb' 320 32
def bindPhaseLim (b : BitVec 512) : BitVec 32 := b.extractLsb' 352 32
def bindResume (b : BitVec 512) : BitVec 64 := b.extractLsb' 384 64
def bindSlice (b : BitVec 512) : BitVec 32 := b.extractLsb' 448 32
def bindQalign (b : BitVec 512) : Bool := b.getLsbD 480
def bindEarly (b : BitVec 512) : Bool := b.getLsbD 481
def bindPreempt (b : BitVec 512) : Bool := b.getLsbD 482
def bindBallast (b : BitVec 512) : Bool := b.getLsbD 483
def bindBackfill (b : BitVec 512) : Bool := b.getLsbD 484

def State.bind (s : State) (t : BitVec 7) : BitVec 512 := s.binds.read t
def State.setBindState (s : State) (t : BitVec 7) (n : Nat) : State :=
  { s with binds := s.binds.write t (setField (s.bind t) 0 3 n) }

/-- The gang of the member bound on a tile. -/
def State.gangOf (s : State) (t : BitVec 7) : Option Gang := s.gangs.find? fun g => g.tiles.contains t && !g.gone.contains t

def State.mapGangOf (s : State) (t : BitVec 7) (f : Gang → Gang) : State :=
  { s with gangs := s.gangs.map fun g => if g.tiles.contains t && !g.gone.contains t then f g else g }

/-- An overlay whose tag was cleared while its core was bound loses it when the member ends (R351). -/
def State.dropTag (s : State) (t : BitVec 7) : State :=
  if s.isflush.contains t then
    let c := s.coreAt t
    { s with isflush := s.isflush.erase t }.setCoreAt t { c with overlay := c.overlay.map fun (o : Overlay) => { o with tagged := false } }
  else s

/-- The member's record leaves states 2, 3 and 4: the entry becomes free, unless the tile is unavailable (R320, R324). -/
def State.releaseTile (s : State) (t : BitVec 7) : State :=
  let s := s.mapGangOf t fun g => { g with gone := g.gone ++ [t] }
  let s := { s with xinv := { s.xinv with waits := s.xinv.waits.filter (fun w => w.1 ≠ t), reqs := s.xinv.reqs.filter fun w => w.1 ≠ t } }
  { s with binds := s.binds.write t (if bindState (s.bind t) = 5 then 5 else 0) }.dropTag t

/-! ## The members of a team (R187, R400) -/

/-- Whether the bind records of two tiles name one team. -/
def State.teamMate (s : State) (t p : BitVec 7) : Bool :=
  let a := s.bind t
  let b := s.bind p
  bindGang a = bindGang b && bindTeamNo a = bindTeamNo b && bindAsid a = bindAsid b

/-- Whether a quad member is bound, in state 2 or 3, to a member of the team of tile `t` (R187). -/
def State.sameTeam (s : State) (t p : BitVec 7) : Bool := (bindState (s.bind p) = 2 || bindState (s.bind p) = 3) && s.teamMate t p

/-- Whether a tile is fused off, or a fence of it has taken effect (R400). -/
def State.cutOff (s : State) (p : BitVec 7) : Bool := (s.map.read p).fused || bindState (s.bind p) = 5

/-- The trap of a window access to member `m` of the issuer's quad, if any (R187). -/
def State.windowTrap (s : State) (m : BitVec 2) : Option Cause :=
  let p := quadMate s.coreTile m
  if s.cutOff p then some .fenced
  else if s.sameTeam s.coreTile p then none
  else some .prot

/-- What becomes of an engine's byte that is on its way to a tile: its own takes it always, and a peer while it is the team's, one that is
being saved too (R187, R344). -/
def State.byteGone (s : State) (p : BitVec 7) : Option Cause :=
  if p = s.coreTile then none
  else if s.cutOff p then some .fenced
  else if s.sameTeam s.coreTile p || (bindState (s.bind p) = 4 && s.teamMate s.coreTile p) then none
  else some .prot

/-! ## Barriers (R205 to R207) -/

/-- The instance of a scope in which a tile lies: its quad, its die, or the package (R77). -/
def scopeInst (scope : BitVec 3) (t : BitVec 7) : BitVec 7 :=
  if scope = 2 then (quadOf t).setWidth 7 else if scope = 3 then (dieOf t).setWidth 7 else 0

/-- Whether a barrier is the one of these numbers. -/
def Barrier.is (b : Barrier) (gang : BitVec 16) (scope : BitVec 3) (inst : BitVec 7) (id : BitVec 4) : Bool :=
  b.gang = gang && b.scope = scope && b.inst = inst && b.id = id

/-- A barrier, with no arrival when nothing has touched it. -/
def State.barrier (s : State) (gang : BitVec 16) (scope : BitVec 3) (inst : BitVec 7) (id : BitVec 4) : Barrier :=
  match s.barriers.find? fun b => b.is gang scope inst id with
  | some b => b
  | none => ⟨gang, scope, inst, id, 0, [], none⟩

def State.setBarrier (s : State) (b : Barrier) : State :=
  { s with barriers := (s.barriers.filter fun x => !x.is b.gang b.scope b.inst b.id) ++ [b] }

/-- The arrivals of a member at a barrier. -/
def Barrier.count (b : Barrier) (t : BitVec 7) : Nat :=
  match b.arrived.find? fun p => p.1 = t with
  | some p => p.2
  | none => 0

/-- The barrier that the focused core names. -/
def State.myBarrier (s : State) (scope : BitVec 3) (id : BitVec 4) : Barrier :=
  s.barrier (bindGang (s.bind s.coreTile)) scope (scopeInst scope s.coreTile) id

/-- The word of a barrier: the member's arrivals, less one that is ahead of the phase under way, which bit 15 marks (R347). -/
def State.barrierWord (s : State) (scope : BitVec 3) (id : BitVec 4) : Nat :=
  let b := s.myBarrier scope id
  let n := b.count s.coreTile
  if b.phase + 2 ≤ n then (n - 1) % 2 ^ 15 + 2 ^ 15 else n % 2 ^ 15

def State.barrierBytes (s : State) : List Byte :=
  ((List.range 64).map fun i => leBytes 2 (s.barrierWord (BitVec.ofNat 3 (2 + i / 16)) (BitVec.ofNat 4 (i % 16)))).flatten

/-! ## Pool slots (R352) -/

/-- The home step that unpins a slot whose state word lies at `pa`. -/
def State.unpinStep (s : State) (pa : Nat) : State :=
  let w := s.homeRead pa 4
  s.homeStepLE pa 4 (if w % 65536 = 0 then w else w - 1)

/-- An unpin arrives at the slot's home. -/
def State.unpin (s : State) (pa : Nat) : State :=
  let key := HeldAcc.unpin (BitVec.ofNat 45 pa)
  if s.quiesced pa then s.joinHeld key pa
  else if s.stalls pa then { s with stalled := s.stalled ++ [key] }
  else s.unpinStep pa

/-- Accesses that no home took are offered again, in their order. -/
def State.retryStalled (s : State) : State :=
  s.stalled.foldl (fun (s : State) k => match k with
    | .write ctl pa bs => s.homeWriteBy ctl pa.toNat bs
    | .unpin pa => s.unpin pa.toNat
    | _ => s) { s with stalled := [] }

def State.unpinAll (s : State) (cmds : List Cmd) : State :=
  cmds.foldl (fun s c => match c.pin with | some pa => s.unpin pa.toNat | none => s) s

/-! ## Scratchpad (R190, R194, R380) -/

/-- The byte at which an address under layout `l` is placed (R194). -/
def spadMap (a : Nat) (l : Nat) : Nat :=
  if l = 0 then a else a ^^^ (a / 2 ^ (6 + 2 * l) % 16 * 16)

def Core.spadPoisoned (c : Core) (a n : Nat) : Bool := c.spadPoison.any fun g => decide (g.1 < a + n ∧ a < g.1 + 64)

/-- Writes bytes at placed addresses of a core's scratchpad. A poisoned line stays poisoned until a store, or the writes of engines,
cover it (R381). -/
def Core.spadPut (c : Core) (engine : Bool) (ws : List (Nat × Byte)) : Core :=
  { c with
    spad := ws.foldl (fun (m : List Host.Cell) w => Memory.write m w.1 w.2) c.spad
    spadPoison := c.spadPoison.filterMap fun p =>
      let m := ws.foldl (fun (m : BitVec 64) w =>
        if p.1 ≤ w.1 && w.1 < p.1 + 64 then m ||| BitVec.ofNat 64 (2 ^ (w.1 - p.1)) else m) (if engine then p.2 else 0)
      if m = BitVec.allOnes 64 then none else some (p.1, if engine then m else p.2) }

/-- A store of consecutive bytes to a core's scratchpad. -/
def Core.spadWrite (c : Core) (a : Nat) (bs : List Byte) : Core := c.spadPut false (bs.zipIdx.map fun b => (a + b.2, b.1))

/-- Bytes of a 256-byte row access under a layout: byte `j` of the access lies at `spadMap (a + j)`. -/
def Core.spadRow (c : Core) (a l : Nat) : List Byte :=
  (List.range 256).map fun j => Memory.read c.spad (spadMap (a + j) l)

/-- A masked row store under a layout (R193). -/
def Core.spadRowWrite (c : Core) (a l : Nat) (bits : VBits) (mask : BitVec 256) : Core :=
  c.spadPut false (((List.range 256).filter fun j => mask.getLsbD j).map fun j => (spadMap (a + j) l, byteOf bits j))

/-! ## Taking a trap (R369, R370) -/

/-- The class of a cause (R369). -/
inductive TrapClass where
  | fatal | rollback | stall | freeze
  deriving DecidableEq, Repr

def Cause.cls : Cause → TrapClass
  | .tagMismatch => .rollback
  | .checkMismatch => .rollback
  | .dataUe => .rollback
  | .xlateFault => .stall
  | .prot => .freeze
  | .brk => .freeze
  | _ => .fatal

/-- The code of a cause (R369). -/
def Cause.code : Cause → Nat
  | .illegalEnc => 1
  | .illegalGroup => 2
  | .illegalSlot => 3
  | .tagMismatch => 4
  | .checkMismatch => 5
  | .dataUe => 6
  | .xlateFault => 7
  | .prot => 8
  | .align => 9
  | .spadRange => 10
  | .cmpAccess => 11
  | .holdOverflow => 12
  | .swTrap => 13
  | .brk => 14
  | .fenced => 15

/-- Whether a cause's record carries the virtual address of the access (R385). -/
def Cause.hasAddr : Cause → Bool
  | .align => true
  | .spadRange => true
  | .cmpAccess => true
  | .prot => true
  | .fenced => true
  | _ => false

/-- FLAGS[0] of a context's records: its phase is unprotected, for an irrevocable operation that is out too (R373, R385). -/
def Ctx.unprotFlag (x : Ctx) : Nat := if x.unprot = .safe && !x.irrevOut then 0 else 1

/-- The record of an event on a context (R385). -/
def State.eventRec (s : State) (kind : Nat) (t : Trap) (ctx : BitVec 2) (ix : BitVec 13) (flags rolls : Nat)
    (orphans : List Nat) : Rec :=
  { kind := kind, cause := t.cause.code, who := whoOf s.coreTile ctx, unit := t.unit.toNat, flags := flags, rolls := rolls,
    asid := s.core.asid.toNat, ix := ix.toNat, addr := if t.cause.hasAddr then t.addr.toNat else 0, detail := t.detail.toNat, sched := s.core.sched.toNat,
    orphans := orphans, teamno := (bindTeamNo (s.bind s.coreTile)).toNat, queue := (bindQueue (s.bind s.coreTile)).toNat }

/-- Requests that a kill leaves in flight: they have gone out to a home or a peer, and perform there (R363, R382). -/
def Req.survivesKill (r : Req) : Bool :=
  match r.kind with
  | .atom _ => r.result.isNone
  | .once _ => r.result.isNone
  | .push _ => r.result.isNone
  | .qpush _ => r.result.isNone
  | .pop block => r.result.isNone && !block
  | .winStore => true
  | .store => true
  | _ => false

/-- The requests that a kill leaves in flight: an irrevocable one has gone out only when the stores released before it have performed
(R199, R362, R382). -/
def Core.survivors (c : Core) : List Req :=
  c.reqs.filter fun r => r.survivesKill && (!r.irrev || (c.ctx r.ctx).released.isEmpty)

/-- The core after its member is gone: what outlives a member stays (R22, R339, R351, R361). -/
def Core.afterMember (c : Core) (reqs : List Req) : Core :=
  { Core.idle with
    spad := c.spad, spadPoison := c.spadPoison, once := c.once, ro := c.ro, utlb := c.utlb, ctlb := c.ctlb,
    overlay := c.overlay, nextId := c.nextId, cyc := c.cyc, reqs := reqs.map fun r => { r with discard := true, dc := none },
    cur := { Issue.idle with trap := c.cur.trap } }

/-- Slots that a stopped KVAPP has popped and not entered in a table (R383): pool and slot, valid bit set. -/
def Req.orphan (r : Req) : Option Nat :=
  match r.kind with
  | .kvapp _ => if r.waiting then some (r.x.toNat % 2 ^ 24 + r.y.toNat % 16 * 2 ^ 24 + 2 ^ 31) else none
  | _ => none

/-- The scratchpad bytes of the units in hand of a queue's commands land: a command that stops does so at a progress boundary. Bytes for
a tile that is no longer the team's are lost (R382, R384). DEDUCED: log 102. -/
def State.landUnits (s : State) (cmds : List Cmd) : State :=
  (cmds.map (·.pend)).flatten.foldl (fun (s : State) w =>
    if (s.byteGone w.1).isSome then s else s.setCoreAt w.1 ((s.coreAt w.1).spadPut true [w.2])) s

/-- Kills the member of the focused core (R382): `cause` and `code` go to the status (R314), `t` to the kill record; `dump` is
set for a fatal trap (R416). -/
def State.killMember (s : State) (t : Trap) (ctx : BitVec 2) (ix : BitVec 13) (flags : Nat) (recCause code cause : Nat)
    (dump : Bool) : State :=
  let tile := s.coreTile
  let die := dieOf tile
  let c := s.core
  let orphans := c.reqs.filterMap Req.orphan
  let busyDump := (s.dumps.read die).busy
  let flags := flags + 2 + (if orphans.length > 4 then 8 else 0) + (if dump && busyDump then 32 else 0)
  let rec0 := s.eventRec 3 t ctx ix flags (c.ctx ctx).rolls (if orphans.length > 4 then [] else orphans)
  let rcd := { rec0 with cause := recCause }
  let s := (s.unpinAll (c.q0 ++ c.q1)).landUnits (c.q0 ++ c.q1)
  let c := s.core
  let s := { s with
    waiters := s.waiters.filter (fun w => w.2.1 ≠ tile)
    linkWaits := s.linkWaits.filter (fun w => w.tile ≠ tile)
    walks := s.walks.filter (fun w => w.tile ≠ tile)
    xinv := { s.xinv with waits := s.xinv.waits.filter (fun w => w.1 ≠ tile), reqs := s.xinv.reqs.filter (fun w => w.1 ≠ tile) }
    dumps := if dump && !busyDump then
        s.dumps.write die ⟨true, tile, c.dumpBytes (bindQalign (s.bind tile)) s.barrierBytes ++ bytesOf rcd.bits 64 ++ bytesOf (s.bind tile) 64, 0⟩
      else s.dumps
    core := c.afterMember c.survivors }
  let s := s.mapGangOf tile fun g =>
    { g with dead := g.dead ++ [tile], killed := g.killed + 1,
             code := if g.killed = 0 then BitVec.ofNat 8 code else g.code,
             cause := if g.killed = 0 then BitVec.ofNat 8 cause else g.cause }
  let full := s.postWaits die
  let s := s.postRecord die (some (tile, ctx)) rcd.bits
  if full then s else s.releaseTile tile

/-- A rollback event of context `ctx` (R373, R374, R376): fatal in an unprotected phase and at the fourth; one that is detected while an
earlier one waits is outranked by it (R370). -/
def State.rollbackTrap (s : State) (t : Trap) (ctx : BitVec 2) (ix : BitVec 13) : State :=
  let x := s.core.ctx ctx
  let n := x.rolls + if x.rolling.isSome then 1 else 0
  if x.rollPend.isSome then s
  else if x.irrevOut then s.killMember t ctx ix 17 t.cause.code 1 t.cause.code true
  else if x.unprot ≠ .safe then
    s.killMember { t with detail := BitVec.ofNat 64 t.cause.code } ctx ix 1 Cause.holdOverflow.code 1 Cause.holdOverflow.code true
  else if n ≥ 3 then
    (s.mapCore fun c => c.mapCtx ctx fun x => { x with rolls := n + 1 }).killMember t ctx ix 4 t.cause.code 1 t.cause.code true
  else s.mapCore fun c => c.mapCtx ctx fun x => { x with rollPend := some t, rollFresh := true, hold := none }

/-- Takes a trap on context `ctx` of the focused core whose faulting bundle is `ix`: the ONE operation through which every
trap is taken (R369). A fatal trap kills the member (R382), a freeze halts the core (R384), a rollback event stops the context
until ROLLBACK_EVENT acts (R374). A stall is taken by the walk that finds it (R341). A frozen core takes no second freeze, and a freeze
drops a rollback event that it outranks (R370). -/
def State.takeTrap (s : State) (t : Trap) (ctx : BitVec 2) (ix : BitVec 13) : State :=
  let x := s.core.ctx ctx
  let s := s.mapCur fun i => { i with trap := some t }
  match t.cause.cls with
  | .fatal => s.killMember t ctx ix x.unprotFlag t.cause.code 1 t.cause.code true
  | .freeze =>
    if s.core.frozen.isSome then s
    else
      let rcd := s.eventRec 4 t ctx ix x.unprotFlag x.rolls []
      (s.mapCore fun c => { c.mapCtx ctx fun x => { x with rollPend := none } with frozen := some ⟨t.cause, ctx, ix⟩ }).postRecord
        (dieOf s.coreTile) (some (s.coreTile, ctx)) rcd.bits
  | .stall => s
  | .rollback => s.rollbackTrap t ctx ix

/-- A trap of the slot in issue. -/
def State.raise (s : State) (cause : Cause) (addr : BitVec 64) (detail : BitVec 64) : State :=
  let unit : Nat := match s.core.cur.slot.toNat with
    | 0 => 6 | 1 => 0 | 2 => 1 | 3 => 2 | 4 => 3 | 5 => 7 | 6 => 4 | _ => 5
  s.takeTrap ⟨cause, BitVec.ofNat 8 unit, addr, detail⟩ s.core.cur.ctx s.core.cur.ix

/-- The slot in issue holds its bundle (R75): nothing of the bundle takes effect. -/
def State.holdFor (s : State) (h : Hold) : State := s.mapCur fun i => { i with hold := some h }

/-- The slot in issue needs a checkpoint of its context before its bundle (R199, R214). -/
def State.needCk (s : State) (w : CkWhy) : State := s.mapCur fun i => { i with ckBefore := some w }

/-- Runs a meaning under its guard: a false guard reads nothing and changes nothing (R69). -/
def State.guarded (s : State) (g : Guard) (k : State → State) : Result :=
  .next (if s.guard g then k s else s)

/-! ## Rollback and the return from it (R374, R375) -/

/-- A mark's pending count falls by one (R32): at zero its bits are written. `bits` is MSTALE in bit 0 and MERR in bit 1. -/
def Shared.markDone (r : Shared) (m : BitVec 6) (bits : BitVec 2) : Shared :=
  let n := r.mpend.read m
  let b := r.mbits.read m ||| bits
  let one := BitVec.ofNat 64 (2 ^ m.toNat)
  if n ≤ 1 then
    { r with
      mpend := r.mpend.write m 0
      mbits := r.mbits.write m 0
      mready := r.mready ||| one
      mstale := if b.getLsbD 0 then r.mstale ||| one else r.mstale
      merr := if b.getLsbD 1 then r.merr ||| one else r.merr }
  else { r with mpend := r.mpend.write m (n - 1), mbits := r.mbits.write m b }

/-- A completion of a command, issued in the main context's phase `mphase`, of mark `m`: it goes to the duplicate set too when
that phase has closed (R32). -/
def Core.markDone (c : Core) (m : BitVec 6) (bits : BitVec 2) (mphase : Nat) : Core :=
  let c := { c with sh := c.sh.markDone m bits }
  if mphase < c.main.phase then { c with dupSh := c.dupSh.markDone m bits } else c

/-- The matrix flags of a command, issued in the main context's phase `mphase`, that completes: they go to the duplicate set too when that phase has
closed (R32, R235, R374). -/
def Core.flagsDone (c : Core) (f : BitVec 4) (mphase : Nat) : Core :=
  let c := { c with sh := { c.sh with mflags := c.sh.mflags ||| f } }
  if mphase < c.main.phase then { c with dupSh := { c.dupSh with mflags := c.dupSh.mflags ||| f } } else c

/-- A cancelled command leaves its mark: the count falls by one, and a mark whose count thereby reaches zero becomes ready with MERR set
(R287). -/
def Shared.markCancel (r : Shared) (m : BitVec 6) : Shared :=
  if r.mpend.read m ≤ 1 then r.markDone m 2 else r.markDone m 0

/-- A cancelled command of the main context's phase `mphase` leaves its mark `m`, in the duplicate set too when that phase has closed
(R32, R287). -/
def Core.markCancel (c : Core) (m : BitVec 6) (mphase : Nat) : Core :=
  let c := { c with sh := c.sh.markCancel m }
  if mphase < c.main.phase then { c with dupSh := c.dupSh.markCancel m } else c

/-- Issuing a command that produces mark `m` (R32). -/
def Shared.markIssue (r : Shared) (m : BitVec 6) : Shared :=
  let off := ~~~(BitVec.ofNat 64 (2 ^ m.toNat))
  { r with mready := r.mready &&& off, mstale := r.mstale &&& off, merr := r.merr &&& off,
           mpend := r.mpend.write m (r.mpend.read m + 1) }

/-- Whether a command is cancelled by a rollback of context `ctx` in phase `ph` (R215). -/
def Cmd.cancelled (c : Cmd) (ctx : BitVec 2) (ph : Nat) : Bool := c.ctx = ctx && c.phase = ph

/-- Whether a request is a KVAPP that has not been released (R246). -/
def Req.unreleasedKvapp (r : Req) (ctx : BitVec 2) (ph : Nat) : Bool :=
  r.ctx = ctx && r.phase = ph && (match r.kind with | .kvapp _ => true | _ => false)

/-- Whether a rollback of context `ctx` in phase `ph` withdraws a pop that waits at home (R327, R374). -/
def Req.withdrawn (r : Req) (ctx : BitVec 2) (ph : Nat) : Bool := r.ctx = ctx && r.phase = ph && r.waiting && (match r.kind with | .pop _ => true | _ => false)

/-- Steps 1 to 4 of a rollback of a context of the focused core (R374). -/
def State.rollbackStop (s : State) (ctx : BitVec 2) : State :=
  let x := s.core.ctx ctx
  let gone := (s.core.q0 ++ s.core.q1).filter (·.cancelled ctx x.phase)
  let s := s.unpinAll gone
  let ids := gone.map (·.id)
  let s := { s with
    walks := s.walks.filter (fun w => !(w.tile = s.coreTile && ((w.unit.toNat ≥ 4 && w.unit ≠ 6 && ids.contains w.cmd) || (w.unit.toNat < 4 && w.ctx = ctx) ||
      (w.unit = 6 && s.core.reqs.any fun r => r.id = w.cmd && r.ctx = ctx && r.phase = x.phase))))
    linkWaits := s.linkWaits.filter (fun w => !(w.tile = s.coreTile && ids.contains w.cmd))
    waiters := s.waiters.filter (fun w => !(w.2.1 = s.coreTile && s.core.reqs.any (fun r => r.id = w.2.2 && r.withdrawn ctx x.phase))) }
  s.mapCore fun (c : Core) =>
    let c : Core := { c with
      q0 := c.q0.filter (fun k => !k.cancelled ctx x.phase)
      q1 := c.q1.filter (fun k => !k.cancelled ctx x.phase)
      mq := if ctx = 0 then c.mq.filter (fun e => e.phase ≠ x.phase) else c.mq
      apend := if ctx = 0 then c.apend.filter (fun e => e.phase ≠ x.phase) else c.apend
      reqs := (c.reqs.filter (fun r => !r.unreleasedKvapp ctx x.phase && !r.withdrawn ctx x.phase)).map fun r =>
        if r.ctx = ctx && r.phase = x.phase then { r with discard := true } else r
      busy := c.busy.filter (fun b => b.ctx ≠ ctx)
      mEnd := if ctx = 0 then 0 else c.mEnd }
    let c := (gone.filter fun k => ctx ≠ 0 || c.tailMarks.getLsbD k.mark.toNat).foldl (fun (c : Core) k => c.markCancel k.mark k.mphase) c
    c.mapCtx ctx fun x => { x with part := [], rollPend := none, rollFresh := false, rolling := x.rollPend, hold := none, ck := none }

/-- Whether the loads of the rolled-back phase have all arrived (R374, step 3). -/
def Core.loadsSettled (c : Core) (ctx : BitVec 2) : Bool :=
  c.reqs.all fun r => !(r.ctx = ctx && r.discard)

/-- A FIFO after a rollback of the main context in phase `ph`: the retained lines are held again, and those that FEEDs of the phase
delivered are gone, consumed or not (R31). -/
def Fifo.rollback (f : Fifo) (ph : Nat) : Fifo := ⟨(f.retained ++ f.held).filter fun l => l.phase ≠ ph + 1, []⟩

/-- An accumulator after a rollback (R29). -/
def Acc.rollback (a : Acc) : Acc :=
  match a.st with
  | .live => ⟨.empty, .fp32, 0⟩
  | .liveRet => ⟨.empty, .fp32, 0⟩
  | _ => a

/-- Keeps the working bits that `keep` marks and takes the others from the duplicate set. -/
def keepBits {w : Nat} (keep work dup : BitVec w) : BitVec w := (work &&& keep) ||| (dup &&& ~~~keep)

/-- The shared registers that a rollback of the main context restores, with what tails wrote and multicast arrivals set kept
(R288, R374). -/
def Core.restoredSh (c : Core) : Shared :=
  let w := c.sh
  let d := c.dupSh
  { d with
    mready := keepBits c.tailMarks w.mready d.mready ||| c.mcast
    mstale := keepBits c.tailMarks w.mstale d.mstale
    merr := keepBits c.tailMarks w.merr d.merr
    mpend := Vector.ofFn fun i => if c.tailMarks.getLsbD i then w.mpend[i] else d.mpend[i]
    mbits := Vector.ofFn fun i => if c.tailMarks.getLsbD i then w.mbits[i] else d.mbits[i]
    ms := Vector.ofFn fun i => if c.tailMs.getLsbD i then w.ms[i] else d.ms[i]
    d := Vector.ofFn fun i => if c.tailD.getLsbD i then w.d[i] else d.d[i] }

/-- The context after its registers are restored and fetch resumes at the restart point (R374, steps 5 and 7). -/
def Ctx.restored (x : Ctx) : Ctx :=
  { x with regs := x.dup, ix := x.restart, barwOnly := x.restartBarw, barWaiting := false, group := [], queued := none,
           rolling := none, hold := none, ck := none, ckDone := false, fences := [], waitCycles := 0, issued := 0 }

/-- Whether a register is private to a context (R22). -/
def RegId.isPriv : RegId → Bool
  | .s _ => true
  | .p _ => true
  | .b _ => true
  | .dc _ => true
  | _ => false

/-- Whether the restore of a context rewrites a line (R380): its private registers, and the shared ones when it is the main context. -/
def PLine.restoredBy (l : PLine) (ctx : BitVec 2) : Bool :=
  match l with
  | .reg n r => if r.isPriv then n = ctx else ctx = 0
  | .tile _ _ => ctx = 0
  | .acc _ _ => false
  | .bundle _ => false

/-- A tail that a RELC of the main context's unfinished phase has started is free again after a rollback of that phase. DEDUCED: log 101. -/
def Core.unstart (c : Core) (n : BitVec 2) : Core :=
  if (c.ctx n).run = .running && decide (c.main.phase < (c.ctx n).afterPhase) then
    let c := c.mapCtx n fun x => { x with run := .free }
    if n = 1 then { c with frame0 := none } else { c with frame1 := none }
  else c

/-- The core after a context's state is restored from the duplicate set (R374, step 5). -/
def Core.restore (c : Core) (ctx : BitVec 2) : Core :=
  let c : Core := if ctx = 0 then
      { c with
        sh := c.restoredSh
        acc := c.acc.map Acc.rollback
        fa := c.fa.rollback c.main.phase
        fb := c.fb.rollback c.main.phase
        bmc := []
        inline := c.dupCall.inline, latest := c.dupCall.latest, inlineBit := c.dupCall.inlineBit : Core }.unstart 1 |>.unstart 2
    else c
  { c with
    linePoison := c.linePoison.filter fun l => !l.restoredBy ctx && (match l with | .acc a _ => decide ((c.acc.read a).st ≠ AccSt.empty) | _ => true)
  }.mapCtx ctx Ctx.restored

/-- Whether the duplicate set of a context is damaged (R380). -/
def Core.dupBad (c : Core) (n : BitVec 2) : Bool := c.dupPoison.getLsbD (min n.toNat 2)

/-- The return from a rollback (R374, steps 5 to 7): registers from the duplicate set, the count of rollbacks, fetch at the restart
point, a rollback record. A damaged duplicate set is fatal (R380). -/
def State.rollbackRestore (s : State) (ctx : BitVec 2) : State :=
  let x := s.core.ctx ctx
  if s.core.dupBad ctx then
    s.killMember ⟨.dataUe, 15, 0, 0⟩ ctx x.restart x.unprotFlag Cause.dataUe.code 1 Cause.dataUe.code true
  else
    let t : Trap := x.rolling.getD ⟨.dataUe, 15, 0, 0⟩
    let s := s.mapCore fun c => (c.restore ctx).mapCtx ctx fun x => { x with rolls := x.rolls + 1 }
    s.postRecord (dieOf s.coreTile) (some (s.coreTile, ctx)) (s.eventRec 2 t ctx x.restart 0 (x.rolls + 1) []).bits

end Sys2Proof.Machine
end

