-- ==== Sys2Proof/Machine/Flags.lean ====
section
/-!
DEFINITION. The rounding mode and sticky flags of `FRM` (R37), the stochastic generator (R62, R63), and the flags of the matrix
engine (R59, R184).
-/
namespace Sys2Proof.Machine

/-- Bits of `FRM` that exist (R37). -/
def frmMask : BitVec 32 := 0x7F7#32

/-- ORs flags that the slot in issue raises into `FRM` and into the flags of its bundle (R37). -/
def State.orFlags (s : State) (f : BitVec 32) : State :=
  if f = 0 then s
  else (s.mapSh fun r => { r with frm := r.frm ||| f }).mapCur fun i => { i with flags := i.flags ||| f }

/-- One advance of the generator (R62). -/
def seedAdvance (x : Word) : Word :=
  let x := x ^^^ (x <<< 13)
  let x := x ^^^ (x >>> 7)
  x ^^^ (x <<< 17)

/-- The rounding mode of the bundle for one element and the generator after that element (R37, R62). -/
def drawMode (frm : BitVec 32) (seed : Word) : RMode × Word :=
  match (frm.extractLsb' 0 3).toNat with
  | 1 => (.rtz, seed)
  | 2 => (.rup, seed)
  | 3 => (.rdn, seed)
  | 4 => let n := seedAdvance seed; (.sto (n.toNat / 2 ^ 48), n)
  | _ => (.rne, seed)

/-- The rounding mode that the bundle in issue reads, for one element, with the generator advanced when it is drawn on. -/
def State.draw (s : State) : RMode × State :=
  let (m, seed) := drawMode s.core.cur.preSh.frm s.core.sh.seed
  (m, s.mapSh fun r => { r with seed := seed })

/-- The value of `FRM` that an MTS of `x` leaves: reserved bits stay clear, RM = 5 to 7 leaves RM as it was, and flags that
other slots of the bundle raised are kept (R37). -/
def frmWritten (old x flags : BitVec 32) : BitVec 32 :=
  let y := (x ||| (flags &&& 0x7F0#32)) &&& frmMask
  if (x.extractLsb' 0 3).toNat ≥ 5 then (y &&& ~~~7#32) ||| (old &&& 7#32) else y

/-- The value of `SEED` that an MTS of `x` leaves (R62). -/
def seedWritten (x : Word) : Word := if x = 0 then 1 else x

/-- Flags of the matrix engine, in the order SAT, NR, OV, NV of `mflags` bits 3 to 0 (R184). -/
def mNV : BitVec 4 := 1
def mOV : BitVec 4 := 2
def mNR : BitVec 4 := 4
def mSAT : BitVec 4 := 8

/-- The matrix flags that a conversion's `FRM` flags amount to (R59, R180). -/
def matrixFlags (f : BitVec 32) : BitVec 4 :=
  (if f &&& flagNV ≠ 0 then mNV else 0) ||| (if f &&& flagOF ≠ 0 then mOV else 0) |||
    (if f &&& flagNR ≠ 0 then mNR else 0) ||| (if f &&& flagSAT ≠ 0 then mSAT else 0)

end Sys2Proof.Machine
end

