-- ==== Sys2Proof/Machine/Operands.lean ====
section
/-!
DEFINITION. Operand forms: extension of immediates, condition codes, the formats of scalar floating point (R104, R113, R115 to
R117), and the element formats of tags (R26, R52, R53, R64).
-/
namespace Sys2Proof.Machine

/-- `sext` of R104: a field read signed, widened to 64 bits. -/
def sext {w : Nat} (x : BitVec w) : Word := x.signExtend 64

/-- `zext` of R104. -/
def zext {w : Nat} (x : BitVec w) : Word := x.setWidth 64

/-! ## Integer conditions (R113) -/

inductive ICond where
  | eq | ne | lt | le | gt | ge | lo | ls | hi | hs
  deriving DecidableEq, Repr

def ICond.test (c : ICond) (a b : Word) : Bool :=
  match c with
  | .eq => a = b
  | .ne => a ≠ b
  | .lt => a.toInt < b.toInt
  | .le => a.toInt ≤ b.toInt
  | .gt => b.toInt < a.toInt
  | .ge => b.toInt ≤ a.toInt
  | .lo => a.toNat < b.toNat
  | .ls => a.toNat ≤ b.toNat
  | .hi => b.toNat < a.toNat
  | .hs => b.toNat ≤ a.toNat

/-! ## Floating conditions (R116): 0 EQ, 1 LT, 2 LE, 3 UN -/

/-- The condition and the flags of a floating compare of two values. -/
def fcond (cc : BitVec 2) (a b : FVal) : Bool × BitVec 32 :=
  let nan := a.isNaN || b.isNaN
  let snan := a.isSignalling || b.isSignalling
  match cc.toNat with
  | 0 => (!nan && a.eqv b, flagIf snan flagNV)
  | 1 => (!nan && a.lt b, flagIf nan flagNV)
  | 2 => (!nan && (a.lt b || a.eqv b), flagIf nan flagNV)
  | _ => (nan, flagIf snan flagNV)

/-! ## Integer division (R108) and bit fields (R109) -/

def divS (a b : Word) : Word := if b = 0 then BitVec.allOnes 64 else BitVec.ofInt 64 (a.toInt.tdiv b.toInt)
def divU (a b : Word) : Word := if b = 0 then BitVec.allOnes 64 else BitVec.ofNat 64 (a.toNat / b.toNat)
def remS (a b : Word) : Word := if b = 0 then a else BitVec.ofInt 64 (a.toInt.tmod b.toInt)
def remU (a b : Word) : Word := if b = 0 then a else BitVec.ofNat 64 (a.toNat % b.toNat)
def mulHighS (a b : Word) : Word := BitVec.ofInt 64 (a.toInt * b.toInt / 2 ^ 64)
def mulHighU (a b : Word) : Word := BitVec.ofNat 64 (a.toNat * b.toNat / 2 ^ 64)
/-- Leading zeros, 0 to 64. -/
def leadZeros (a : Word) : Word := BitVec.ofNat 64 (64 - bitLen a.toNat)
/-- Trailing zeros, 0 to 64. -/
def trailZeros (a : Word) : Word := BitVec.ofNat 64 (((List.range 64).find? fun i => a.getLsbD i).getD 64)
/-- Number of set bits of the low `n` bits. -/
def popCount {w : Nat} (a : BitVec w) (n : Nat) : Nat := ((List.range n).filter fun i => a.getLsbD i).length

/-- The position that `sb` names for BFX, BFXZ and BFI. -/
def bfPos (b : Word) : Nat := b.toNat % 64
/-- The width that `sb` names: min(sb[14:8], 64 - pos). -/
def bfWid (b : Word) : Nat := min (b.toNat / 256 % 128) (64 - bfPos b)
def bfExtractU (a b : Word) : Word := BitVec.ofNat 64 (field a (bfPos b) (bfWid b))
def bfExtractS (a b : Word) : Word :=
  if bfWid b = 0 then 0 else BitVec.ofInt 64 (intOf (bfWid b) true (field a (bfPos b) (bfWid b)))
def bfInsert (d a b : Word) : Word := setField d (bfPos b) (bfWid b) (a.toNat % 2 ^ bfWid b)

/-! ## Scalar floating point (R115, R117) -/

/-- The value that a scalar register holds in a binary format: higher bits are ignored. -/
def Fmt.ofReg (f : Fmt) (x : Word) : FVal := f.decode (x.toNat % 2 ^ f.width)

/-- FCVT's formats (R117). -/
inductive CvtFmt where
  | fp16 | bf16 | fp32 | fp64 | i32 | i64 | u64 | t8
  deriving DecidableEq, Repr

def cvtFmt (c : BitVec 3) : CvtFmt :=
  match c.toNat with
  | 0 => .fp16 | 1 => .bf16 | 2 => .fp32 | 3 => .fp64 | 4 => .i32 | 5 => .i64 | 6 => .u64 | _ => .t8

/-- The IEEE format of a code, where it is one. -/
def CvtFmt.ieee : CvtFmt → Option Fmt
  | .fp16 => some fmtFP16
  | .bf16 => some fmtBF16
  | .fp32 => some fmtFP32
  | .fp64 => some fmtFP64
  | _ => none

def CvtFmt.isInt : CvtFmt → Bool
  | .i32 => true
  | .i64 => true
  | .u64 => true
  | _ => false

/-- The value of a source operand. -/
def CvtFmt.value (c : CvtFmt) (x : Word) : FVal :=
  match c with
  | .i32 => valOfInt (intOf 32 true (x.toNat % 2 ^ 32))
  | .i64 => valOfInt x.toInt
  | .u64 => valOfInt x.toNat
  | .t8 => tapDecode 8 (x.toNat % 256)
  | c => match c.ieee with
    | some f => f.ofReg x
    | none => .zero false

/-- The range of an integer destination. -/
def CvtFmt.range : CvtFmt → Int × Int
  | .i32 => fullRange 32
  | .u64 => (0, 2 ^ 64 - 1)
  | _ => fullRange 64

/-- The register value that holds a result. -/
def CvtFmt.result (c : CvtFmt) (rm : RMode) (v : FVal) : Word × BitVec 32 :=
  match c with
  | .t8 => let (b, f) := tapEncode 8 rm v; (BitVec.ofNat 64 b, f)
  | c =>
    match c.ieee with
    | some f => let (b, fl) := f.ofVal rm v; (BitVec.ofNat 64 b, fl)
    | none =>
      let (lo, hi) := c.range
      let (n, fl) := toIntSat rm lo hi v
      (BitVec.ofInt 64 n, fl)

/-- Whether a conversion of R64 rounds by the mode, and so draws in stochastic mode (R62). The exact rows are T8 into IEEE, an
IEEE format into a wider one, and integer into integer. -/
def CvtFmt.draws (s d : CvtFmt) : Bool :=
  if s = d then false
  else match s with
    | .t8 => d.isInt
    | .i32 => !d.isInt
    | .i64 => !d.isInt
    | .u64 => !d.isInt
    | s =>
      match s.ieee, d.ieee with
      | some a, some b => !(a.fb < b.fb && a.eb ≤ b.eb)
      | _, _ => true

/-! ## Element formats of tags (R26, R52, R53) -/

/-- The tag codes (R26). -/
def tagRAW : BitVec 4 := 0
def tagFP32 : BitVec 4 := 1
def tagBF16 : BitVec 4 := 2
def tagFP16 : BitVec 4 := 3
def tagT8 : BitVec 4 := 4
def tagT6 : BitVec 4 := 5
def tagI8 : BitVec 4 := 6
def tagI16 : BitVec 4 := 7
def tagI32 : BitVec 4 := 8
def tagI4 : BitVec 4 := 9
def tagE8M0 : BitVec 4 := 10
def tagI64 : BitVec 4 := 11

/-- The IEEE format of a tag, where it is one. -/
def tagIeee (t : BitVec 4) : Option Fmt :=
  match t.toNat with
  | 1 => some fmtFP32 | 2 => some fmtBF16 | 3 => some fmtFP16 | _ => none

/-- The number of bits of a tapered tag, 0 for others. -/
def tagTapered (t : BitVec 4) : Nat := if t = tagT8 then 8 else if t = tagT6 then 6 else 0

/-- The width of an integer tag, 0 for others. -/
def tagInt (t : BitVec 4) : Nat :=
  match t.toNat with
  | 6 => 8 | 7 => 16 | 8 => 32 | 9 => 4 | 11 => 64 | _ => 0

/-- Whether an integer tag is read signed under `EFMT.SGN` (R52). -/
def tagSigned (t : BitVec 4) (efmt : BitVec 32) : Bool := t = tagI32 || t = tagI64 || efmt.getLsbD 3

/-- `EFMT.SUBST` (R35). -/
def efmtSubst (efmt : BitVec 32) : Nat := field efmt 4 2

/-- Whether an integer code is the reserved code of its tag (R53). -/
def reservedCode (t : BitVec 4) (efmt : BitVec 32) (x : Nat) : Bool :=
  (t = tagI4 || t = tagI8 || t = tagI16) && efmt.getLsbD 3 && x = 2 ^ (tagInt t - 1)

/-- What an arithmetic or converting read of an integer code yields; a reserved code under SUBST 0 is a trap found beforehand
(R53). -/
def readInt (t : BitVec 4) (efmt : BitVec 32) (x : Nat) : Int :=
  if reservedCode t efmt x then
    (if efmtSubst efmt = 2 then -(2 ^ (tagInt t - 1) - 1) else 0)
  else intOf (tagInt t) (tagSigned t efmt) x

/-- The range to which a result of an integer tag saturates (R54). -/
def intRange (t : BitVec 4) (efmt : BitVec 32) : Int × Int :=
  if t = tagI32 || t = tagI64 then fullRange (tagInt t) else symRange (tagInt t) (efmt.getLsbD 3)

/-- The value of an element of a tag (R41, R49, R52, R55). A T6 value occupies a byte of which the low six bits count. -/
def readElem (t : BitVec 4) (efmt : BitVec 32) (x : Nat) : FVal :=
  if tagInt t ≠ 0 then valOfInt (readInt t efmt x)
  else if tagTapered t ≠ 0 then tapDecode (tagTapered t) (x % 2 ^ tagTapered t)
  else if t = tagE8M0 then e8m0Val x
  else match tagIeee t with
    | some f => f.decode x
    | none => .zero false

/-- A value converted into a tag's format (R64): the code and the flags. -/
def writeElem (t : BitVec 4) (efmt : BitVec 32) (rm : RMode) (v : FVal) : Nat × BitVec 32 :=
  if tagInt t ≠ 0 then
    let (lo, hi) := intRange t efmt
    let (n, fl) := toIntSat rm lo hi v
    (intBits (tagInt t) n, fl)
  else if tagTapered t ≠ 0 then tapEncode (tagTapered t) rm v
  else if t = tagE8M0 then toE8m0 v
  else match tagIeee t with
    | some f => f.ofVal rm v
    | none => (0, 0)

/-- Whether a conversion from tag `a` to tag `b` rounds by the mode (R62, R64). -/
def convDraws (a b : BitVec 4) : Bool :=
  if a = b || b = tagE8M0 || a = tagE8M0 then false
  else if tagInt a ≠ 0 then tagInt b = 0
  else if tagTapered a ≠ 0 then tagInt b ≠ 0 || (a = tagT8 && b = tagT6)
  else match tagIeee a, tagIeee b with
    | some x, some y => !(x.fb < y.fb && x.eb ≤ y.eb)
    | _, _ => true

/-- Whether the conversion exists (R65). -/
def convExists (a b : BitVec 4) : Bool :=
  a ≠ tagRAW && b ≠ tagRAW && a.toNat < 12 && b.toNat < 12 &&
    (a ≠ tagE8M0 || (tagIeee b).isSome) && (b ≠ tagE8M0 || (tagIeee a).isSome)

end Sys2Proof.Machine
end

