-- ==== Sys2Proof/Machine/Scalar.lean ====
section
/-!
DEFINITION. The S-slot instructions that touch no memory: integer, predicate, compare and special-register instructions
(R107 to R114, R118 to R120, R122) and XIMM (R85).
-/
namespace Sys2Proof.Machine

/-- An instruction that writes one scalar register, computed from the state before the bundle, under its guard (R69, R72). -/
def State.writeS (s : State) (g : Guard) (d : BitVec 6) (f : State → Word) : Result := s.guarded g fun s => s.setS d (f s)

/-- The two-register form of R107. -/
def State.alu (s : State) (g : Guard) (d a b : BitVec 6) (f : Word → Word → Word) : Result :=
  s.writeS g d fun s => f (s.sreg a) (s.sreg b)

/-- A compare that writes the predicate pair `k` (R113): a false guard writes false to both under `.x` and nothing under
`.n`. -/
def State.compare (s : State) (g : Guard) (k : BitVec 5) (x : BitVec 1) (c : Bool) : Result :=
  .next (if s.guard g then s.setPair k c (!c) else if x = 1 then s.setPair k false false else s)

/-- ADD: sa + sb (R107). -/
def execAdd (g : Guard) (d a b : BitVec 6) (s : State) : Result :=
  s.alu g d a b fun x y => x + y

/-- SUB: sa - sb (R107). -/
def execSub (g : Guard) (d a b : BitVec 6) (s : State) : Result :=
  s.alu g d a b fun x y => x - y

/-- MUL: the low 64 bits of the product (R107). -/
def execMul (g : Guard) (d a b : BitVec 6) (s : State) : Result :=
  s.alu g d a b fun x y => x * y

/-- MULH: bits 127 to 64 of the signed product (R107). -/
def execMulh (g : Guard) (d a b : BitVec 6) (s : State) : Result :=
  s.alu g d a b fun x y => mulHighS x y

/-- MULHZ: bits 127 to 64 of the unsigned product (R107). -/
def execMulhz (g : Guard) (d a b : BitVec 6) (s : State) : Result :=
  s.alu g d a b fun x y => mulHighU x y

/-- DIV: signed quotient, truncated toward zero (R107, R108). -/
def execDiv (g : Guard) (d a b : BitVec 6) (s : State) : Result :=
  s.alu g d a b fun x y => divS x y

/-- DIVZ: unsigned quotient (R107, R108). -/
def execDivz (g : Guard) (d a b : BitVec 6) (s : State) : Result :=
  s.alu g d a b fun x y => divU x y

/-- REM: signed remainder with the sign of sa (R107, R108). -/
def execRem (g : Guard) (d a b : BitVec 6) (s : State) : Result :=
  s.alu g d a b fun x y => remS x y

/-- REMZ: unsigned remainder (R107, R108). -/
def execRemz (g : Guard) (d a b : BitVec 6) (s : State) : Result :=
  s.alu g d a b fun x y => remU x y

/-- AND (R107). -/
def execAnd (g : Guard) (d a b : BitVec 6) (s : State) : Result :=
  s.alu g d a b fun x y => x &&& y

/-- ANDN: sa and not sb (R107). -/
def execAndn (g : Guard) (d a b : BitVec 6) (s : State) : Result :=
  s.alu g d a b fun x y => x &&& ~~~y

/-- OR (R107). -/
def execOr (g : Guard) (d a b : BitVec 6) (s : State) : Result :=
  s.alu g d a b fun x y => x ||| y

/-- XOR (R107). -/
def execXor (g : Guard) (d a b : BitVec 6) (s : State) : Result :=
  s.alu g d a b fun x y => x ^^^ y

/-- SHL by sb[5:0] (R107). -/
def execShl (g : Guard) (d a b : BitVec 6) (s : State) : Result :=
  s.alu g d a b fun x y => x <<< (y.toNat % 64)

/-- SHLI by a count (R107). -/
def execShli (g : Guard) (d a c : BitVec 6) (s : State) : Result :=
  s.writeS g d fun s => s.sreg a <<< c.toNat

/-- SHR: logical, by sb[5:0] (R107). -/
def execShr (g : Guard) (d a b : BitVec 6) (s : State) : Result :=
  s.alu g d a b fun x y => x >>> (y.toNat % 64)

/-- SHRI: logical, by a count (R107). -/
def execShri (g : Guard) (d a c : BitVec 6) (s : State) : Result :=
  s.writeS g d fun s => s.sreg a >>> c.toNat

/-- SAR: arithmetic, by sb[5:0] (R107). -/
def execSar (g : Guard) (d a b : BitVec 6) (s : State) : Result :=
  s.alu g d a b fun x y => x.sshiftRight (y.toNat % 64)

/-- SARI: arithmetic, by a count (R107). -/
def execSari (g : Guard) (d a c : BitVec 6) (s : State) : Result :=
  s.writeS g d fun s => (s.sreg a).sshiftRight c.toNat

/-- ROTR by sb[5:0] (R107). -/
def execRotr (g : Guard) (d a b : BitVec 6) (s : State) : Result :=
  s.alu g d a b fun x y => x.rotateRight (y.toNat % 64)

/-- ROTR by a count (R107). -/
def execRotrImm (g : Guard) (d a c : BitVec 6) (s : State) : Result :=
  s.writeS g d fun s => (s.sreg a).rotateRight c.toNat

/-- MIN: signed (R107). -/
def execMin (g : Guard) (d a b : BitVec 6) (s : State) : Result :=
  s.alu g d a b fun x y => if x.toInt ≤ y.toInt then x else y

/-- MINZ: unsigned (R107). -/
def execMinz (g : Guard) (d a b : BitVec 6) (s : State) : Result :=
  s.alu g d a b fun x y => if x.toNat ≤ y.toNat then x else y

/-- MAX: signed (R107). -/
def execMax (g : Guard) (d a b : BitVec 6) (s : State) : Result :=
  s.alu g d a b fun x y => if x.toInt ≤ y.toInt then y else x

/-- MAXZ: unsigned (R107). -/
def execMaxz (g : Guard) (d a b : BitVec 6) (s : State) : Result :=
  s.alu g d a b fun x y => if x.toNat ≤ y.toNat then y else x

/-- CLZ: leading zeros, 0 to 64 (R107). -/
def execClz (g : Guard) (d a : BitVec 6) (s : State) : Result :=
  s.writeS g d fun s => leadZeros (s.sreg a)

/-- CTZ: trailing zeros, 0 to 64 (R107). -/
def execCtz (g : Guard) (d a : BitVec 6) (s : State) : Result :=
  s.writeS g d fun s => trailZeros (s.sreg a)

/-- POPC: set bits (R107). -/
def execPopc (g : Guard) (d a : BitVec 6) (s : State) : Result :=
  s.writeS g d fun s => BitVec.ofNat 64 (popCount (s.sreg a) 64)

/-- BFX: a bit field, sign-extended (R109). -/
def execBfx (g : Guard) (d a b : BitVec 6) (s : State) : Result :=
  s.alu g d a b fun x y => bfExtractS x y

/-- BFXZ: a bit field, zero-extended (R109). -/
def execBfxz (g : Guard) (d a b : BitVec 6) (s : State) : Result :=
  s.alu g d a b fun x y => bfExtractU x y

/-- BFI: a bit field inserted into `sd`, whose other bits are kept (R109). -/
def execBfi (g : Guard) (d a b : BitVec 6) (s : State) : Result :=
  s.writeS g d fun s => bfInsert (s.sreg d) (s.sreg a) (s.sreg b)

/-- SEL: `sa` under a true guard and `sb` under a false one (R110). -/
def execSel (g : Guard) (d a b : BitVec 6) (s : State) : Result :=
  .next (s.setS d (if s.guard g then s.sreg a else s.sreg b))

/-- ADDI (R111). -/
def execAddi (g : Guard) (d a : BitVec 6) (i : BitVec 7) (s : State) : Result :=
  s.writeS g d fun s => s.sreg a + sext i

/-- ANDI (R111). -/
def execAndi (g : Guard) (d a : BitVec 6) (i : BitVec 7) (s : State) : Result :=
  s.writeS g d fun s => s.sreg a &&& sext i

/-- ORI (R111). -/
def execOri (g : Guard) (d a : BitVec 6) (i : BitVec 7) (s : State) : Result :=
  s.writeS g d fun s => s.sreg a ||| sext i

/-- XORI (R111). -/
def execXori (g : Guard) (d a : BitVec 6) (i : BitVec 7) (s : State) : Result :=
  s.writeS g d fun s => s.sreg a ^^^ sext i

/-- LEA: 256 bytes per step (R111). -/
def execLea (g : Guard) (d a : BitVec 6) (i : BitVec 7) (s : State) : Result :=
  s.writeS g d fun s => s.sreg a + sext i * 256

/-- MOVI (R112). -/
def execMovi (g : Guard) (d : BitVec 6) (i : BitVec 13) (s : State) : Result := s.writeS g d fun _ => sext i

/-- MOVHI: `sd` moves up 13 bits and takes the immediate below (R112). -/
def execMovhi (g : Guard) (d : BitVec 6) (i : BitVec 13) (s : State) : Result :=
  s.writeS g d fun s => s.sreg d <<< 13 ||| zext i

/-- CMP.EQ (R113). -/
def execCmpEq (g : Guard) (k : BitVec 5) (x : BitVec 1) (a b : BitVec 6) (s : State) : Result :=
  s.compare g k x (ICond.eq.test (s.sreg a) (s.sreg b))

/-- CMPI.EQ (R113). -/
def execCmpiEq (g : Guard) (k : BitVec 5) (x : BitVec 1) (a i : BitVec 6) (s : State) : Result :=
  s.compare g k x (ICond.eq.test (s.sreg a) (sext i))

/-- CMP.NE (R113). -/
def execCmpNe (g : Guard) (k : BitVec 5) (x : BitVec 1) (a b : BitVec 6) (s : State) : Result :=
  s.compare g k x (ICond.ne.test (s.sreg a) (s.sreg b))

/-- CMPI.NE (R113). -/
def execCmpiNe (g : Guard) (k : BitVec 5) (x : BitVec 1) (a i : BitVec 6) (s : State) : Result :=
  s.compare g k x (ICond.ne.test (s.sreg a) (sext i))

/-- CMP.LT (R113). -/
def execCmpLt (g : Guard) (k : BitVec 5) (x : BitVec 1) (a b : BitVec 6) (s : State) : Result :=
  s.compare g k x (ICond.lt.test (s.sreg a) (s.sreg b))

/-- CMPI.LT (R113). -/
def execCmpiLt (g : Guard) (k : BitVec 5) (x : BitVec 1) (a i : BitVec 6) (s : State) : Result :=
  s.compare g k x (ICond.lt.test (s.sreg a) (sext i))

/-- CMP.LE (R113). -/
def execCmpLe (g : Guard) (k : BitVec 5) (x : BitVec 1) (a b : BitVec 6) (s : State) : Result :=
  s.compare g k x (ICond.le.test (s.sreg a) (s.sreg b))

/-- CMPI.LE (R113). -/
def execCmpiLe (g : Guard) (k : BitVec 5) (x : BitVec 1) (a i : BitVec 6) (s : State) : Result :=
  s.compare g k x (ICond.le.test (s.sreg a) (sext i))

/-- CMP.GT (R113). -/
def execCmpGt (g : Guard) (k : BitVec 5) (x : BitVec 1) (a b : BitVec 6) (s : State) : Result :=
  s.compare g k x (ICond.gt.test (s.sreg a) (s.sreg b))

/-- CMPI.GT (R113). -/
def execCmpiGt (g : Guard) (k : BitVec 5) (x : BitVec 1) (a i : BitVec 6) (s : State) : Result :=
  s.compare g k x (ICond.gt.test (s.sreg a) (sext i))

/-- CMP.GE (R113). -/
def execCmpGe (g : Guard) (k : BitVec 5) (x : BitVec 1) (a b : BitVec 6) (s : State) : Result :=
  s.compare g k x (ICond.ge.test (s.sreg a) (s.sreg b))

/-- CMPI.GE (R113). -/
def execCmpiGe (g : Guard) (k : BitVec 5) (x : BitVec 1) (a i : BitVec 6) (s : State) : Result :=
  s.compare g k x (ICond.ge.test (s.sreg a) (sext i))

/-- CMP.LO (R113). -/
def execCmpLo (g : Guard) (k : BitVec 5) (x : BitVec 1) (a b : BitVec 6) (s : State) : Result :=
  s.compare g k x (ICond.lo.test (s.sreg a) (s.sreg b))

/-- CMPI.LO (R113). -/
def execCmpiLo (g : Guard) (k : BitVec 5) (x : BitVec 1) (a i : BitVec 6) (s : State) : Result :=
  s.compare g k x (ICond.lo.test (s.sreg a) (sext i))

/-- CMP.LS (R113). -/
def execCmpLs (g : Guard) (k : BitVec 5) (x : BitVec 1) (a b : BitVec 6) (s : State) : Result :=
  s.compare g k x (ICond.ls.test (s.sreg a) (s.sreg b))

/-- CMPI.LS (R113). -/
def execCmpiLs (g : Guard) (k : BitVec 5) (x : BitVec 1) (a i : BitVec 6) (s : State) : Result :=
  s.compare g k x (ICond.ls.test (s.sreg a) (sext i))

/-- CMP.HI (R113). -/
def execCmpHi (g : Guard) (k : BitVec 5) (x : BitVec 1) (a b : BitVec 6) (s : State) : Result :=
  s.compare g k x (ICond.hi.test (s.sreg a) (s.sreg b))

/-- CMPI.HI (R113). -/
def execCmpiHi (g : Guard) (k : BitVec 5) (x : BitVec 1) (a i : BitVec 6) (s : State) : Result :=
  s.compare g k x (ICond.hi.test (s.sreg a) (sext i))

/-- CMP.HS (R113). -/
def execCmpHs (g : Guard) (k : BitVec 5) (x : BitVec 1) (a b : BitVec 6) (s : State) : Result :=
  s.compare g k x (ICond.hs.test (s.sreg a) (s.sreg b))

/-- CMPI.HS (R113). -/
def execCmpiHs (g : Guard) (k : BitVec 5) (x : BitVec 1) (a i : BitVec 6) (s : State) : Result :=
  s.compare g k x (ICond.hs.test (s.sreg a) (sext i))

/-- A predicate-logic form (R114). -/
def State.plogic (s : State) (g : Guard) (d a b : BitVec 6) (f : Bool → Bool → Bool) : Result :=
  s.guarded g fun s => s.setP d (f (s.preg a) (s.preg b))

/-- PAND (R114). -/
def execPand (g : Guard) (d a b : BitVec 6) (s : State) : Result := s.plogic g d a b fun x y => x && y

/-- PANDN (R114). -/
def execPandn (g : Guard) (d a b : BitVec 6) (s : State) : Result := s.plogic g d a b fun x y => x && !y

/-- POR (R114). -/
def execPor (g : Guard) (d a b : BitVec 6) (s : State) : Result := s.plogic g d a b fun x y => x || y

/-- PXOR (R114). -/
def execPxor (g : Guard) (d a b : BitVec 6) (s : State) : Result := s.plogic g d a b fun x y => x != y

/-- SETB: a signed bundle offset into `bk` (R122). -/
def execSetb (g : Guard) (k : BitVec 6) (i : BitVec 13) (s : State) : Result :=
  s.guarded g fun s => s.setB (k.setWidth 2) (i.signExtend 32)

/-- XIMM carries bits for another slot of its bundle and has no effect of its own (R85). -/
def execXimm (_t : BitVec 3) (_p : BitVec 19) (s : State) : Result := .next s

/-! ## EFMT (R35, R119) -/

/-- A SETEF of the main context issues: the value governs from the third bundle after it (R35). Bit 2 is reserved and reads
zero. -/
def State.setEfmt (s : State) (v : BitVec 8) : State :=
  s.mapSh fun r => { r with efmtPend := r.efmtPend ++ [(s.core.sched.toNat + 3, v &&& 0xFB#8)] }

/-- SETEF #v (R119): ILLEGAL_SLOT in a tail whatever its guard (R35). -/
def execSetefImm (g : Guard) (v : BitVec 8) (s : State) : Result :=
  if s.core.cur.ctx ≠ 0 then .next (s.raise .illegalSlot 0 0) else s.guarded g fun s => s.setEfmt v

/-- SETEF sA (R119): a reserved value in a field takes ILLEGAL_ENC under a true guard (R35, R69), before ILLEGAL_SLOT (R92). -/
def execSetefReg (g : Guard) (a : BitVec 6) (s : State) : Result :=
  let v := (s.sreg a).setWidth 8
  if s.guard g && !efmtOk v then .next (s.raise .illegalEnc 0 0)
  else if s.core.cur.ctx ≠ 0 then .next (s.raise .illegalSlot 0 0)
  else s.guarded g fun s => s.setEfmt v

/-! ## Special registers (R36 to R39, R118) -/

/-- A neighbour's state as R39 codes it, by the tile's vote record and its watch map (R404). -/
def State.neighbourState (s : State) (t : BitVec 7) (d : BitVec 2) : BitVec 2 :=
  let m := s.mapAt t (neighbour t d)
  if m.fused then 3 else if m.fenced then 2 else ((s.trellisAt t).votes.read d).state

/-- The four fields of a tile's record of its neighbours (R39, R391). -/
def watchView (field : BitVec 2 → BitVec 2) : Nat :=
  (field 0).toNat + 4 * (field 1).toNat + 16 * (field 2).toNat + 64 * (field 3).toNat

/-- `WATCHST` as the member of the focused core reads it: a neighbour that was suspect when the member was created reads live until its state
changes (R39). -/
def State.watchst (s : State) : BitVec 32 :=
  let t := s.coreTile
  let m := s.mapAt t t
  let seen := fun d =>
    let x := s.neighbourState t d
    if x = 1 && s.core.bornSuspect.getLsbD d.toNat then 0 else x
  BitVec.ofNat 32 (watchView seen + 256 * min m.strikes.length 2 + (if m.isolated then 1024 else 0))

/-- The iterations left in the innermost loop (R36, R126). -/
def Shared.loopc (r : Shared) : BitVec 32 :=
  match r.loops with
  | [] => 0
  | l :: _ => l.left

/-- The special register that a number names, as it stood before the bundle (R36, R118). -/
def State.special (s : State) (n : BitVec 8) : Word :=
  let r := s.core.cur.preSh
  match n.toNat with
  | 0x00 => r.frm.setWidth 64
  | 0x01 => r.seed
  | 0x02 => r.efmt.setWidth 64
  | 0x04 => s.core.sched
  | 0x05 => s.core.cyc
  | 0x06 => r.loopc.setWidth 64
  | 0x08 => s.core.rank.setWidth 64
  | 0x09 => s.core.team.setWidth 64
  | 0x0A => (quadOf s.coreTile).setWidth 64
  | 0x0B => s.coreTile.setWidth 64
  | 0x0C => (dieOf s.coreTile).setWidth 64
  | 0x0D => Config.pkgId.setWidth 64
  | 0x0E => Config.podId.setWidth 64
  | 0x0F => s.core.asid.setWidth 64
  | 0x10 => s.core.ckey.setWidth 64
  | 0x11 => (s.core.tailst s.core.cur.ctx).setWidth 64
  | 0x12 => s.core.frameHeld.setWidth 64
  | 0x13 => s.watchst.setWidth 64
  | 0x14 => r.mready
  | 0x15 => r.mstale
  | 0x16 => r.merr
  | _ => 0

/-- MFS: a special register as it stood before the bundle (R118). -/
def execMfs (g : Guard) (a : BitVec 6) (r : BitVec 8) (s : State) : Result := s.writeS g a fun s => s.special r

/-- What MTS writes: `FRM` by R37, `SEED` by R62; a write of a read-only register is ignored (R36). -/
def State.setSpecial (s : State) (n : BitVec 8) (x : Word) : State :=
  if n = 0 then s.mapSh fun r => { r with frm := frmWritten s.core.cur.preSh.frm (x.setWidth 32) s.core.cur.flags }
  else if n = 1 then s.mapSh fun r => { r with seed := seedWritten x }
  else s

/-- MTS (R118): `EFMT`, `FRM` and `SEED` in a tail take ILLEGAL_SLOT whatever the guard (R35). -/
def execMts (g : Guard) (a : BitVec 6) (r : BitVec 8) (s : State) : Result :=
  if s.core.cur.ctx ≠ 0 && r.toNat ≤ 2 then .next (s.raise .illegalSlot 0 0)
  else s.guarded g fun s => s.setSpecial r (s.sreg a)

/-! ## Checks and NOP -/

/-- SCHK of two scalar registers: CHECK_MISMATCH when they differ (R120). -/
def execSchk (g : Guard) (a b : BitVec 6) (s : State) : Result :=
  s.guarded g fun s => if s.sreg a = s.sreg b then s else s.raise .checkMismatch 0 0

/-- SCHK of two predicates (R120). -/
def execSchkPred (g : Guard) (a b : BitVec 6) (s : State) : Result :=
  s.guarded g fun s => if s.preg a = s.preg b then s else s.raise .checkMismatch 0 0

/-- NOP of the S slot: no effect and no read (R91). -/
def execNopS (s : State) : Result := .next s

/-- NOP of the D slot (R91). -/
def execNopD (s : State) : Result := .next s

/-- NOP of the V slots (R91). -/
def execNopV (s : State) : Result := .next s

/-- NOP of the M slot (R91). -/
def execNopM (s : State) : Result := .next s

/-- NOP of the C slots (R91). -/
def execNopC (s : State) : Result := .next s

end Sys2Proof.Machine
end

