-- ==== Sys2Proof/Machine/Control.lean ====
section
/-!
DEFINITION. The B slot: branches, trees, calls, loops, released callers, checkpoints, yields and traps (R104, R106, R121 to
R135), and the bundle that follows (R127).
-/
namespace Sys2Proof.Machine

/-! ## Transfers (R104) -/

/-- The image's bundle count (R102). -/
def Core.nbundle (c : Core) : Nat :=
  match c.overlay with
  | some o => o.bundles.length
  | none => 0

/-- DETAIL bits of a record (R385). -/
def detailBranch : BitVec 64 := BitVec.ofNat 64 (2 ^ 37)
def detailLoop : BitVec 64 := BitVec.ofNat 64 (2 ^ 38)
def detailReserved : BitVec 64 := BitVec.ofNat 64 (2 ^ 36)
def detailCode (n : Nat) : BitVec 64 := BitVec.ofNat 64 (n * 256)

/-- Whether a bundle index lies in the image. -/
def Core.inImage (c : Core) (i : Int) : Bool := 0 ≤ i && i < c.nbundle

/-- `branch_to` (R104): a target outside the image traps before any effect; else the transfer is taken and `k` is what the
instruction does besides. -/
def State.branchTo (s : State) (i : Int) (k : State → State) : State :=
  if s.core.inImage i then (k s).mapCur fun c => { c with target := some (BitVec.ofInt 13 i) }
  else s.raise .illegalEnc 0 detailBranch

/-- The index of the bundle in issue as an integer. -/
def State.ixInt (s : State) : Int := s.core.cur.ix.toNat

/-- The tail column of R106: a tail context, or the main context as the inline-mode callee (R129). DEDUCED: log 31. -/
def State.tailLike (s : State) : Bool := s.core.cur.ctx ≠ 0 || s.core.inline.isSome

/-- A B-slot instruction that only the main context may issue (R106): elsewhere ILLEGAL_SLOT whatever its guard (R69). -/
def State.mainOnly (s : State) (g : Guard) (k : State → State) : Result :=
  if s.tailLike then .next (s.raise .illegalSlot 0 0) else s.guarded g k

/-- A main-context instruction whose operand has illegal values: ILLEGAL_ENC for one of them, and before ILLEGAL_SLOT, whatever the
guard (R69, R92). -/
def State.encChecked (s : State) (ok : Bool) (g : Guard) (k : State → State) : Result :=
  if ok then s.mainOnly g k else .next (s.raise .illegalEnc 0 0)

/-- IMM9 of slot 0, extended by an XIMM (R85). -/
def State.imm9 (s : State) (i : BitVec 9) : Nat := s.extImm 9 0 i.toNat

/-- NOPB: its guard reads nothing and it has no effect (R91). -/
def execNopb (_stop : Bool) (_g : Guard) (s : State) : Result := .next s

/-- BR (R121). -/
def execBr (_stop : Bool) (g : Guard) (o : BitVec 21) (s : State) : Result :=
  s.guarded g fun s => s.branchTo (s.ixInt + o.toInt) id

/-- Writes the link register (R124). -/
def State.link (s : State) : State :=
  (s.setS 61 (BitVec.ofNat 64 (s.core.cur.ix.toNat + 1))).mapCur fun c => { c with isCall := true }

/-- CALL (R124). -/
def execCall (_stop : Bool) (g : Guard) (o : BitVec 21) (s : State) : Result :=
  s.guarded g fun s => s.branchTo (s.ixInt + o.toInt) State.link

/-- The cycle in which the target of CALLR and RET is fetched: they hold the core for one cycle (R105). -/
def State.fetchHold (s : State) (n : Nat) : State := s.mapCtx fun x => { x with fetchAt := s.core.cyc.toNat + n }

/-- CALLR (R124): IMM9 is zero; CALLR s61 reads the old s61 (R72). -/
def execCallr (_stop : Bool) (g : Guard) (a : BitVec 6) (s : State) : Result :=
  s.guarded g fun s => s.branchTo (s.sreg a).toNat fun s => s.link.fetchHold 2

/-- RET (R124). -/
def execRet (_stop : Bool) (g : Guard) (a : BitVec 6) (s : State) : Result :=
  s.guarded g fun s => s.branchTo (s.sreg a).toNat fun s => s.fetchHold 2

/-- One test of a TREE: predicate index in bits 6 to 1, inverted by bit 0 (R71). -/
def State.test (s : State) (t : BitVec 7) : Bool := s.preg (t.extractLsb' 1 6) != t.getLsbD 0

/-- The leaf that the four tests make true (R71). -/
def State.leafOf (s : State) (a b c d : BitVec 7) : BitVec 3 :=
  if s.test a then 0 else if s.test b then 1 else if s.test c then 2 else if s.test d then 3 else 4

/-- TREE: leaf k transfers to ix + bk, and L4 falls through (R71, R123). -/
def execTree (_stop : Bool) (a b c d : BitVec 7) (s : State) : Result :=
  let l := s.leafOf a b c d
  .next (if l = 4 then s else s.branchTo (s.ixInt + (s.breg (l.setWidth 2)).toInt) id)

/-- The bucket that BSEL takes for a length: the first k from 0 to 3 with n ≤ base × 2^k (R125). -/
def bselBucket (n base : Nat) : Option Nat := (List.range 4).find? fun k => n ≤ base * 2 ^ k

/-- BSEL (R125). A base of zero takes ILLEGAL_ENC whatever the guard. -/
def execBsel (_stop : Bool) (g : Guard) (a : BitVec 6) (i : BitVec 9) (s : State) : Result :=
  s.encChecked (s.imm9 i ≠ 0) g fun s =>
    let n := (s.sreg a).toNat
    match bselBucket n (s.imm9 i) with
    | some k =>
      s.branchTo (s.ixInt + (s.breg (BitVec.ofNat 2 k)).toInt) fun s => s.setS a (BitVec.ofNat 64 (s.imm9 i * 2 ^ k - n))
    | none => s

/-! ## Loops (R126, R127) -/

/-- Dimension `i` of a descriptor: COUNT (R34). -/
def descCount (d : BitVec 512) (i : Nat) : Nat := field d (56 * i + 44) 12

/-- The product of the six COUNT fields. -/
def descProduct (d : BitVec 512) : Nat := ((List.range 6).map (descCount d)).foldl (· * ·) 1

/-- Opens a loop whose body is the `n` bundles that follow (R126). -/
def State.openLoop (s : State) (n count : Nat) : State :=
  let ix := s.core.cur.ix.toNat
  let last := ix + n
  let loops := s.core.cur.preSh.loops
  let outside := match loops with
    | l :: _ => decide (l.first.toNat ≤ ix ∧ ix ≤ l.last.toNat ∧ l.last.toNat < last)
    | [] => false
  if s.core.nbundle ≤ last || outside || (count ≠ 0 && loops.length ≥ 4) then s.raise .illegalEnc 0 0
  else if count = 0 then s.mapCur fun c => { c with skip := some last }
  else s.mapSh fun r => { r with loops := ⟨BitVec.ofNat 32 count, BitVec.ofNat 13 (ix + 1), BitVec.ofNat 13 last⟩ :: r.loops }

/-- LOOP dK, #n (R126). -/
def execLoop (_stop : Bool) (g : Guard) (k : BitVec 4) (i : BitVec 9) (s : State) : Result :=
  s.encChecked (s.imm9 i ≠ 0) g fun s =>
    let n := descProduct (s.dreg k)
    if n ≥ 2 ^ 32 then s.raise .illegalEnc 0 detailLoop else s.openLoop (s.imm9 i) n

/-- LOOPX sA, #n (R126). -/
def execLoopx (_stop : Bool) (g : Guard) (a : BitVec 6) (i : BitVec 9) (s : State) : Result :=
  s.encChecked (s.imm9 i ≠ 0) g fun s => s.openLoop (s.imm9 i) ((s.sreg a).toNat % 2 ^ 32)

/-- The end of body of the loops that end at `last`, innermost first: the loop stack after it, and the first bundle of a body
whose back-edge is taken (R127). -/
def endOfBody (last : Nat) : List Loop → List Loop × Option (BitVec 13)
  | [] => ([], none)
  | l :: ls =>
    if l.last.toNat ≠ last then (l :: ls, none)
    else if 1 < l.left.toNat then ({ l with left := l.left - 1 } :: ls, some l.first)
    else endOfBody last ls

/-- The loop stack after a taken transfer to `t`: one whose target lies outside the innermost body pops it (R127). -/
def loopsAfterTransfer (isCall : Bool) (t : BitVec 13) : List Loop → List Loop
  | [] => []
  | l :: ls => if isCall || (l.first.toNat ≤ t.toNat && t.toNat ≤ l.last.toNat) then l :: ls else ls

/-- The bundle fetched after the bundle in issue, the loop stack, and whether the fetch is at a branch target (R104, R127). A body that is
skipped ends no loop (R126). -/
def State.following (s : State) : Int × List Loop × Bool :=
  let c := s.core.cur
  let loops := s.core.sh.loops
  match c.target with
  | some t => (t.toNat, (if c.ctx = 0 then loopsAfterTransfer c.isCall t loops else loops), true)
  | none =>
    match c.skip with
    | some last => (last + 1, loops, false)
    | none =>
      if c.ctx ≠ 0 then (c.ix.toNat + 1, loops, false)
      else
        match endOfBody c.ix.toNat loops with
        | (ls, some f) => (f.toNat, ls, true)
        | (ls, none) => (c.ix.toNat + 1, ls, false)

/-! ## Checkpoints (R133, R134) -/

/-- The context in issue has reached a checkpoint; its restart point is fixed when the bundle ends. -/
def State.reachCk (s : State) (why : CkWhy) (restart : BitVec 13) : State :=
  s.mapCtx fun x => { x with ck := some ⟨why, restart, false, bindSlice (s.bind s.coreTile)⟩ }

/-- CHKPT (R133). -/
def execChkpt (_stop : Bool) (g : Guard) (s : State) : Result :=
  s.guarded g fun s => s.reachCk .chkpt (s.core.cur.ix + 1)

/-- YIELD #n (R134): a checkpoint that sets the next deadline, from CYC as it stood before the bundle (R328). -/
def execYield (_stop : Bool) (g : Guard) (i : BitVec 9) (s : State) : Result :=
  s.encChecked (s.imm9 i ≠ 0) g fun s =>
    (s.reachCk (.yield (BitVec.ofNat 28 (s.imm9 i))) (s.core.cur.ix + 1)).mapCore fun c =>
      { c with deadline := some (c.cyc.toNat + s.imm9 i * 1024), latePosted := false }

/-- TRAP #code: SW_TRAP with the code in DETAIL (R135). -/
def execTrap (_stop : Bool) (g : Guard) (c : BitVec 9) (s : State) : Result :=
  s.guarded g fun s => s.raise .swTrap 0 (detailCode (s.imm9 c))

/-- BRK #code: a freeze that posts a record with the code (R135). -/
def execBrk (_stop : Bool) (g : Guard) (c : BitVec 9) (s : State) : Result :=
  s.guarded g fun s => s.raise .brk 0 (detailCode (s.imm9 c))

/-- END: a checkpoint, after which fetch halts (R132). -/
def execEndMember (_stop : Bool) (g : Guard) (s : State) : Result :=
  s.mainOnly g fun s => s.reachCk .endMember (s.core.cur.ix + 1)

/-! ## Released callers (R128 to R131) -/

/-- The doubleword of the local scratchpad at an address. -/
def Core.spadWord (c : Core) (a : Nat) : Word := BitVec.ofNat 64 (Memory.readLE c.spad a 8)

/-- `reload` of R128: s40 to s61 and p32 to p47 from the save area at `a`. -/
def Core.reload (c : Core) (a : Nat) (r : Priv) : Priv :=
  let r := (List.range 22).foldl (fun (r : Priv) i => r.setS (BitVec.ofNat 6 (40 + i)) (c.spadWord (a + 8 * i))) r
  { r with p := setField r.p 32 16 ((c.spadWord (a + 176)).toNat % 65536) }

/-- Predicates p1 to p4 as a number. -/
def Priv.p14 (r : Priv) : BitVec 4 := r.p.extractLsb' 1 4

/-- The frame of tail `t` (0 or 1). -/
def Core.setFrame (c : Core) (t : Bool) (f : Option Frame) : Core :=
  if t then { c with frame1 := f } else { c with frame0 := f }
def Core.frame (c : Core) (t : Bool) : Option Frame := if t then c.frame1 else c.frame0

/-- The context number of tail `t`. -/
def tailCtx (t : Bool) : BitVec 2 := if t then 2 else 1

/-- The free tail with the lowest number (R128). -/
def Core.freeTail (c : Core) : Option Bool :=
  if c.tail0.run = .free then some false else if c.tail1.run = .free then some true else none

/-- Starts tail `t` at bundle `ix`: it takes the main context's registers and begins with a checkpoint already taken (R128,
R279). It issues once the callee's stores that the release covers have performed (R261). DEDUCED: log 17. -/
def Core.startTail (c : Core) (t : Bool) (ix : BitVec 13) : Core :=
  let x := c.ctx (tailCtx t)
  let regs := { c.main.regs with dc := Bank.fill 3 0 }
  let x : Ctx := { Ctx.idle with
    run := .running, regs := regs, ix := ix, dup := regs, restart := ix, phase := x.phase + 1,
    storeSeq := x.storeSeq, released := x.released, afterPhase := c.main.phase + 1, fetchAt := c.cyc.toNat + 1 }
  { c.setCtx (tailCtx t) x with
    busy := c.busy ++ (c.busy.filter fun b => b.ctx = 0).map fun b => { b with ctx := tailCtx t } }

/-- RELC (R128). The inline record takes `s1` to `s8` and `p1` to `p4` as the bundle's other slots leave them, so that the caller sees the
same registers in both modes (R129). DEDUCED: log 17, 18. -/
def execRelc (_stop : Bool) (g : Guard) (p : BitVec 6) (o : BitVec 9) (s : State) : Result :=
  s.encChecked (s.imm9 o % 8 = 0) g fun s =>
    let base := s.sreg 62
    let a := base.toNat + s.imm9 o
    let ix1 := s.core.cur.ix + 1
    if s.core.cur.pre.dc.toList.any (· ≠ 0) then s.holdFor (.wait false)
    else if a + 184 > 0x200000 then s.raise .spadRange (BitVec.ofNat 64 a) 0
    else
      let top := BitVec.ofNat 24 (a + 184)
      match s.core.freeTail with
      | some t =>
        s.branchTo (s.sreg 61).toNat fun s =>
          (s.mapCore fun c =>
            let c := (c.startTail t ix1).setFrame t (some ⟨base.setWidth 24, top⟩)
            { c with
              main := { c.main with regs := (c.reload a c.main.regs).setP p true }
              latest := some (some t, top)
              inlineBit := false }).reachCk .relc ((s.sreg 61).setWidth 13)
      | none =>
        s.branchTo (s.ixInt + 1) fun s =>
          (s.mapCore fun c =>
            { c with
              inline := some ⟨BitVec.ofNat 24 a, s.sreg 61, p, (List.range 8).map fun i => c.main.regs.sreg (BitVec.ofNat 6 (i + 1)), c.main.regs.p14⟩
              latest := some (none, top)
              inlineBit := true }).reachCk .relc ix1

/-- Whether every access of a context of the core has performed: its released stores and its requests (R130, R261). -/
def Core.ctxQuiet (c : Core) (n : BitVec 2) : Bool :=
  (c.ctx n).released.isEmpty && (c.ctx n).part.isEmpty && c.reqs.all (fun r => r.ctx ≠ n)

/-- FJOIN sd, #t (R130): 0 and 1 name the tails and 2 the record `latest`. -/
def execFjoin (_stop : Bool) (g : Guard) (d : BitVec 6) (t : BitVec 9) (s : State) : Result :=
  s.encChecked (s.imm9 t ≤ 2) g fun s =>
    let c := s.core
    let sel : Option Bool := match s.imm9 t with
      | 0 => some false
      | 1 => some true
      | _ => match c.latest with
        | some (r, _) => r
        | none => none
    let recorded : Word := match c.latest with
      | some (_, top) => top.setWidth 64
      | none => s.sreg 62
    match sel with
    | none => s.setS d recorded
    | some k =>
      match (c.ctx (tailCtx k)).run with
      | .free => s.setS d recorded
      | .running => s.holdFor (.wait false)
      | .ended =>
        if c.ctxQuiet (tailCtx k) then
          let top : Word := match c.frame k with
            | some f => f.top.setWidth 64
            | none => recorded
          (s.setS d top).mapCore fun c =>
            (c.setFrame k none).mapCtx (tailCtx k) fun x => { x with run := .free }
        else s.holdFor (.wait false)

/-- TEND (R131): a tail's last checkpoint; in the main context legal only as the inline-mode callee (R129). -/
def execTend (_stop : Bool) (g : Guard) (s : State) : Result :=
  if s.core.cur.ctx ≠ 0 then s.guarded g fun s => s.reachCk .tendTail (s.core.cur.ix + 1)
  else
    match s.core.inline with
    | none => .next (s.raise .illegalSlot 0 0)
    | some r =>
      s.guarded g fun s =>
        s.branchTo r.ret.toNat fun s =>
          (s.mapCore fun c =>
            let regs := (r.s18.zipIdx).foldl (fun (q : Priv) x => q.setS (BitVec.ofNat 6 (x.2 + 1)) x.1) c.main.regs
            let regs := { regs with p := setField regs.p 1 4 r.p14.toNat }
            { c with
              main := { c.main with regs := (c.reload r.a.toNat regs).setP r.pm false }
              inline := none }).reachCk .tendInline (r.ret.setWidth 13)

end Sys2Proof.Machine
end

