-- ==== Sys2Proof/Machine/VectorOps.lean ====
section
/-!
DEFINITION. Shared operations of the V slots: elements, classes of tags, lane masks, and one element-by-element engine that
draws, rounds and merges (R136 to R139).
-/
namespace Sys2Proof.Machine

/-! ## Elements (R136) -/

/-- Element width in bits of a tag. -/
def tagW (t : BitVec 4) : Nat := tagBits t.toNat

/-- Elements of a vector register of a tag. -/
def tagN (t : BitVec 4) : Nat := 2048 / tagW t

/-- A code as a register holds it: bits 7 and 6 of a T6 value are zero and are ignored (R44). -/
def cleanCode (t : BitVec 4) (x : Nat) : Nat := if t = tagT6 then x % 64 else x

/-- The bytes of a register under a tag, each a code of it when the tag is T6 (R44, R193). -/
def cleanBits (t : BitVec 4) (bits : VBits) : VBits :=
  if t = tagT6 then bits &&& BitVec.ofNat 2048 (packElems 8 (List.replicate 256 0x3F)) else bits

/-- The code of element `i` of 256 bytes under a tag. -/
def elemCode (b : VBits) (t : BitVec 4) (i : Nat) : Nat := cleanCode t (field b (i * tagW t) (tagW t))

def VReg.code (v : VReg) (i : Nat) : Nat := elemCode v.bits v.tag i

/-- Whether element `i` of width `w` is active under a mask (R136). -/
def active (m : BitVec 256) (w i : Nat) : Bool := m.getLsbD (i * w / 8)

/-- The mask bits of the elements of width `w` (at least 8) for which the list holds true (R27). -/
def maskOf (w : Nat) (l : List Bool) : BitVec 256 :=
  BitVec.ofNat 256 (packElems (w / 8) (l.map fun c => if c then 2 ^ (w / 8) - 1 else 0))

/-! ## Classes of tags (R137) -/

def classF (t : BitVec 4) : Bool := t = tagFP32 || t = tagBF16 || t = tagFP16
def classI (t : BitVec 4) : Bool := t = tagI8 || t = tagI16 || t = tagI32 || t = tagI64
def classT (t : BitVec 4) : Bool := t = tagT8 || t = tagT6

/-- A V or M opcode in a tail, or in the inline-mode callee, takes ILLEGAL_SLOT whatever its guard (R91, R129, R137). -/
def State.mainSlot (s : State) (g : Guard) (k : State → State) : Result :=
  if s.tailLike then .next (s.raise .illegalSlot 0 0) else s.guarded g k

/-- A failed tag check takes TAG_MISMATCH (R137). -/
def State.tagCheck (s : State) (ok : Bool) (k : State → State) : State :=
  if ok then k s else s.raise .tagMismatch 0 0

/-- Under SUBST 0 the read of a reserved integer code takes SW_TRAP (R53). -/
def State.substCheck (s : State) (t : BitVec 4) (codes : List Nat) (k : State → State) : State :=
  let efmt := s.core.cur.preSh.efmt
  if efmtSubst efmt = 0 && codes.any (reservedCode t efmt) then s.raise .swTrap 0 detailReserved else k s

/-- The codes of the active elements of a source. -/
def activeCodes (m : BitVec 256) (v : VReg) : List Nat :=
  ((List.range (tagN v.tag)).filter fun i => active m (tagW v.tag) i).map v.code

/-! ## The element engine (R137, R139) -/

/-- Computes the elements `i`, `i + 1`, … for which `act` holds, each with its own rounding mode, and joins the flags. When
`rounds` is false the operation draws nothing and its mode is not used. -/
def runElems (frm : BitVec 32) (rounds : Bool) (act : Nat → Bool) (f : Nat → RMode → Nat × BitVec 32) :
    Nat → Nat → Word → List (Option Nat) × BitVec 32 × Word
  | 0, _, seed => ([], 0, seed)
  | n + 1, i, seed =>
    if act i then
      let (rm, seed) := if rounds then drawMode frm seed else (.rne, seed)
      let (c, fl) := f i rm
      let (l, fl', seed) := runElems frm rounds act f n (i + 1) seed
      (some c :: l, fl ||| fl', seed)
    else
      let (l, fl', seed) := runElems frm rounds act f n (i + 1) seed
      (none :: l, fl', seed)

/-- The register of tag `t` with the computed elements; the others keep their bytes of `old` (R137). -/
def mergeElems (t : BitVec 4) (old : VBits) (l : List (Option Nat)) : VReg :=
  ⟨BitVec.ofNat 2048 (packElems (tagW t) (l.zipIdx.map fun x =>
    match x.1 with
    | some c => cleanCode t c
    | none => field old (x.2 * tagW t) (tagW t))), t⟩

/-- Writes `vd` element by element under tag `t`. -/
def State.vmap (s : State) (d : BitVec 5) (t : BitVec 4) (rounds : Bool) (act : Nat → Bool)
    (f : Nat → RMode → Nat × BitVec 32) : State :=
  let (l, fl, seed) := runElems s.core.cur.preSh.frm rounds act f (tagN t) 0 s.core.sh.seed
  ((s.mapSh fun r => { r with seed := seed }).orFlags fl).setV d (mergeElems t (s.vreg d).bits l)

/-- `EFMT` as the bundle in issue reads it. -/
def State.efmt (s : State) : BitVec 32 := s.core.cur.preSh.efmt

/-- An integer result of arithmetic (R138): I8 and I16 saturate to the range of R54, I32 and I64 wrap, or saturate when `sat`. -/
def intFinish (t : BitVec 4) (efmt : BitVec 32) (sat : Bool) (x : Int) : Nat × BitVec 32 :=
  if t = tagI8 || t = tagI16 || sat then
    let (lo, hi) := intRange t efmt
    let (y, fl) := satInt lo hi x
    (intBits (tagInt t) y, fl)
  else (intBits (tagInt t) x, 0)

/-- The value that V-VVS instructions take from `sS`, or from an XIMM that targets their slot when S is 0 (R153). -/
def State.vscalar (s : State) (t : BitVec 4) (r : BitVec 6) : Word :=
  match s.core.cur.ximm with
  | some (slot, pay) =>
    if slot = s.core.cur.slot && r = 0 then
      if t = tagFP32 then pay.setWidth 64 <<< 13
      else if t = tagI32 || t = tagI64 then pay.signExtend 64
      else pay.setWidth 64
    else s.sreg r
  | none => s.sreg r

/-- The signed value that VSLIDE and VIOTA take (R153). -/
def State.vscalarS (s : State) (r : BitVec 6) : Word := s.vscalar tagI64 r

/-- The mode of a conversion that draws nothing: an E8M0 scale that FP16 does not hold rounds by `FRM.RM`, and to nearest even in
stochastic mode (R61, R62). DESIGN CHOICE: log 30. -/
def undrawnMode (frm : BitVec 32) (a : BitVec 4) (rm : RMode) : RMode :=
  if a = tagE8M0 && (frm.extractLsb' 0 3).toNat ≠ 4 then (drawMode frm 0).1 else rm

/-- One element converted from tag `a` to tag `b` (R64, R147). Equal tags copy, with a NaN made canonical and a reserved code
substituted; a copied NaR is consumed (R45). -/
def convElem (a b : BitVec 4) (efmt : BitVec 32) (rm : RMode) (x : Nat) : Nat × BitVec 32 :=
  if a = b then
    if tagInt a ≠ 0 then (intBits (tagInt a) (readInt a efmt x), 0)
    else match tagIeee a with
      | some f => f.ofVal .rne (f.decode x)
      | none => (x, flagIf (tagTapered a ≠ 0 && x = 2 ^ (tagTapered a - 1)) flagNR)
  else writeElem b efmt rm (readElem a efmt x)

end Sys2Proof.Machine
end

