-- ==== Sys2Proof/Machine/Vector.lean ====
section
/-!
DEFINITION. V-slot arithmetic, logic, shifts, compares and selects (R141 to R146).
-/
namespace Sys2Proof.Machine

/-! ## Arithmetic (R141, R142) -/

/-- The binary operations of R141 that compute on values. -/
inductive VBin where
  | add | sub | mul
  deriving DecidableEq, Repr

def VBin.onFloat (op : VBin) (f : Fmt) (rm : RMode) (x y : Nat) : Nat × BitVec 32 :=
  let a := f.decode x
  let b := f.decode y
  Fmt.finish f rm (match op with
    | .add => FVal.add rm a b
    | .sub => FVal.add rm a b.negate
    | .mul => FVal.mul a b)

def VBin.onInt (op : VBin) (a b : Int) : Int :=
  match op with
  | .add => a + b
  | .sub => a - b
  | .mul => a * b

/-- One element of VADD, VSUB or VMUL under tag `t` (R138, R139). -/
def VBin.elem (op : VBin) (t : BitVec 4) (efmt : BitVec 32) (sat : Bool) (rm : RMode) (x y : Nat) : Nat × BitVec 32 :=
  match tagIeee t with
  | some f => op.onFloat f rm x y
  | none => intFinish t efmt sat (op.onInt (readInt t efmt x) (readInt t efmt y))

/-- VADD, VSUB and VMUL, and their saturating forms, which accept class I only (R141). Operands of class T, which R62 and R140 name
and R141 does not accept, take TAG_MISMATCH. DESIGN CHOICE: log 86. -/
def State.vbin (s : State) (op : VBin) (sat : Bool) (g : Guard) (d a b : BitVec 5) (l : BitVec 3) : Result :=
  s.mainSlot g fun s =>
    let x := s.vreg a
    let y := s.vreg b
    let m := s.lmask l
    s.tagCheck (x.tag = y.tag && (classI x.tag || (classF x.tag && !sat))) fun s =>
    s.substCheck x.tag (activeCodes m x ++ activeCodes m y) fun s =>
    s.vmap d x.tag (classF x.tag) (active m (tagW x.tag)) fun i rm => op.elem x.tag s.efmt sat rm (x.code i) (y.code i)

/-- VADD (R141). -/
def execVadd (g : Guard) (d a b : BitVec 5) (l : BitVec 3) (s : State) : Result := s.vbin .add false g d a b l

/-- VADD.s, the saturating form (R141). -/
def execVaddS (g : Guard) (d a b : BitVec 5) (l : BitVec 3) (s : State) : Result := s.vbin .add true g d a b l

/-- VSUB (R141). -/
def execVsub (g : Guard) (d a b : BitVec 5) (l : BitVec 3) (s : State) : Result := s.vbin .sub false g d a b l

/-- VSUB.s, the saturating form (R141). -/
def execVsubS (g : Guard) (d a b : BitVec 5) (l : BitVec 3) (s : State) : Result := s.vbin .sub true g d a b l

/-- VMUL (R141). -/
def execVmul (g : Guard) (d a b : BitVec 5) (l : BitVec 3) (s : State) : Result := s.vbin .mul false g d a b l

/-- VMUL.s, the saturating form (R141). -/
def execVmulS (g : Guard) (d a b : BitVec 5) (l : BitVec 3) (s : State) : Result := s.vbin .mul true g d a b l

/-- VFMA and VFMS: `vd` plus or minus a × b, rounded once; `vd` is a tagged source too (R26, R141). Operands of class T take
TAG_MISMATCH. DESIGN CHOICE: log 86. -/
def State.vfused (s : State) (minus : Bool) (g : Guard) (d a b : BitVec 5) (l : BitVec 3) : Result :=
  s.mainSlot g fun s =>
    let x := s.vreg a
    let y := s.vreg b
    let z := s.vreg d
    s.tagCheck (x.tag = y.tag && z.tag = x.tag && classF x.tag) fun s =>
    s.vmap d x.tag true (active (s.lmask l) (tagW x.tag)) fun i rm =>
      match tagIeee x.tag with
      | some f =>
        let p := f.decode (x.code i)
        Fmt.finish f rm (FVal.fma rm (if minus then p.negate else p) (f.decode (y.code i)) (f.decode (z.code i)))
      | none => (0, 0)

/-- VFMA (R141). -/
def execVfma (g : Guard) (d a b : BitVec 5) (l : BitVec 3) (s : State) : Result := s.vfused false g d a b l

/-- VFMS (R141). -/
def execVfms (g : Guard) (d a b : BitVec 5) (l : BitVec 3) (s : State) : Result := s.vfused true g d a b l

/-- The smaller or larger of two codes of a tag (R50, R138, R141). A NaR operand gives NaR with NRF. -/
def pickElem (wantMax : Bool) (t : BitVec 4) (efmt : BitVec 32) (x y : Nat) : Nat × BitVec 32 :=
  if classT t then
    let n := tagTapered t
    let a := tapDecode n x
    let b := tapDecode n y
    if a.isNar || b.isNar then (2 ^ (n - 1), flagNR) else ((if a.lt b = wantMax then y else x), 0)
  else
    match tagIeee t with
    | some f => f.minMax wantMax x y
    | none =>
      let a := readInt t efmt x
      let b := readInt t efmt y
      (intBits (tagInt t) (if wantMax then max a b else min a b), 0)

/-- VMIN and VMAX (R141). -/
def State.vpick (s : State) (wantMax : Bool) (g : Guard) (d a b : BitVec 5) (l : BitVec 3) : Result :=
  s.mainSlot g fun s =>
    let x := s.vreg a
    let y := s.vreg b
    let m := s.lmask l
    s.tagCheck (x.tag = y.tag && (classF x.tag || classI x.tag || classT x.tag)) fun s =>
    s.substCheck x.tag (activeCodes m x ++ activeCodes m y) fun s =>
    s.vmap d x.tag false (active m (tagW x.tag)) fun i _ => pickElem wantMax x.tag s.efmt (x.code i) (y.code i)

/-- VMIN (R141). -/
def execVmin (g : Guard) (d a b : BitVec 5) (l : BitVec 3) (s : State) : Result := s.vpick false g d a b l

/-- VMAX (R141). -/
def execVmax (g : Guard) (d a b : BitVec 5) (l : BitVec 3) (s : State) : Result := s.vpick true g d a b l

/-- One element of VABS or VNEG (R142); a NaR is consumed and produced (R45). -/
def signElem (neg sat : Bool) (t : BitVec 4) (efmt : BitVec 32) (x : Nat) : Nat × BitVec 32 :=
  if classT t then
    let h := 2 ^ (tagTapered t - 1)
    if x = h then (x, flagNR) else if x % h = 0 then (x, 0) else ((if neg then (x + h) % (2 * h) else x % h), 0)
  else
    match tagIeee t with
    | some f =>
      if (f.decode x).isNaN then (f.cnan, flagIf (f.decode x).isSignalling flagNV)
      else
        let h := 2 ^ (f.width - 1)
        ((if neg then (x + h) % (2 * h) else x % h), 0)
    | none =>
      let v := readInt t efmt x
      intFinish t efmt sat (if neg then -v else if v < 0 then -v else v)

/-- VABS and VNEG; M = 1 accepts class I only (R142). -/
def State.vsign (s : State) (neg : Bool) (g : Guard) (d a : BitVec 5) (l : BitVec 3) (sat : BitVec 1) : Result :=
  s.mainSlot g fun s =>
    let x := s.vreg a
    let m := s.lmask l
    s.tagCheck (classI x.tag || ((classF x.tag || classT x.tag) && sat = 0)) fun s =>
    s.substCheck x.tag (activeCodes m x) fun s =>
    s.vmap d x.tag false (active m (tagW x.tag)) fun i _ => signElem neg (sat = 1) x.tag s.efmt (x.code i)

/-- VABS (R142). -/
def execVabs (g : Guard) (d a : BitVec 5) (l : BitVec 3) (m : BitVec 1) (s : State) : Result := s.vsign false g d a l m

/-- VNEG (R142). -/
def execVneg (g : Guard) (d a : BitVec 5) (l : BitVec 3) (m : BitVec 1) (s : State) : Result := s.vsign true g d a l m

/-- The functions of R143, correctly rounded by `FRM.RM`. -/
def State.vfn (s : State) (op : FnOp) (g : Guard) (d a : BitVec 5) (l : BitVec 3) : Result :=
  s.mainSlot g fun s =>
    let x := s.vreg a
    s.tagCheck (classF x.tag) fun s =>
    s.vmap d x.tag true (active (s.lmask l) (tagW x.tag)) fun i rm =>
      match tagIeee x.tag with
      | some f => f.fn op rm (f.decode (x.code i))
      | none => (0, 0)

/-- VRCP (R143). -/
def execVrcp (g : Guard) (d a : BitVec 5) (l : BitVec 3) (s : State) : Result := s.vfn .rcp g d a l

/-- VRSQ (R143). -/
def execVrsq (g : Guard) (d a : BitVec 5) (l : BitVec 3) (s : State) : Result := s.vfn .rsq g d a l

/-- VEXP2 (R143). -/
def execVexp2 (g : Guard) (d a : BitVec 5) (l : BitVec 3) (s : State) : Result := s.vfn .exp2 g d a l

/-- VLOG2 (R143). -/
def execVlog2 (g : Guard) (d a : BitVec 5) (l : BitVec 3) (s : State) : Result := s.vfn .log2 g d a l

/-! ## Logic and shifts (R144) -/

/-- A bit-pattern operation on equal tags. -/
def State.vbits (s : State) (accepts : BitVec 4 → Bool) (f : Nat → Nat → Nat → Nat) (g : Guard) (d a b : BitVec 5) (l : BitVec 3) :
    Result :=
  s.mainSlot g fun s =>
    let x := s.vreg a
    let y := s.vreg b
    s.tagCheck (x.tag = y.tag && accepts x.tag) fun s =>
    s.vmap d x.tag false (active (s.lmask l) (tagW x.tag)) fun i _ => (f (tagW x.tag) (x.code i) (y.code i), 0)

/-- VAND (R144). -/
def execVand (g : Guard) (d a b : BitVec 5) (l : BitVec 3) (s : State) : Result := s.vbits (fun _ => true) (fun _ x y => x &&& y) g d a b l

/-- VOR (R144). -/
def execVor (g : Guard) (d a b : BitVec 5) (l : BitVec 3) (s : State) : Result := s.vbits (fun _ => true) (fun _ x y => x ||| y) g d a b l

/-- VXOR (R144). -/
def execVxor (g : Guard) (d a b : BitVec 5) (l : BitVec 3) (s : State) : Result := s.vbits (fun _ => true) (fun _ x y => x ^^^ y) g d a b l

/-- VSHL by the low log2(w) bits of vb (R144). -/
def execVshl (g : Guard) (d a b : BitVec 5) (l : BitVec 3) (s : State) : Result := s.vbits classI (fun w x y => x * 2 ^ (y % w)) g d a b l

/-- VSHR, logical (R144). -/
def execVshr (g : Guard) (d a b : BitVec 5) (l : BitVec 3) (s : State) : Result := s.vbits classI (fun w x y => x / 2 ^ (y % w)) g d a b l

/-- VSAR, arithmetic (R144). -/
def execVsar (g : Guard) (d a b : BitVec 5) (l : BitVec 3) (s : State) : Result := s.vbits classI (fun w x y => intBits w (intOf w true x / 2 ^ (y % w))) g d a b l

/-! ## Compare and select (R145, R146) -/

/-- One comparison of R145: the condition and the flags; cc is 0 EQ, 1 NE, 2 LT, 3 LE, 4 GT, 5 GE, 6 UN. -/
def vcond (cc : BitVec 3) (f : Bool) (a b : FVal) : Bool × BitVec 32 :=
  let un := a.isNaN || b.isNaN
  let ordered : Bool := match cc.toNat with
    | 0 => a.eqv b
    | 1 => !a.eqv b
    | 2 => a.lt b
    | 3 => a.lt b || a.eqv b
    | 4 => b.lt a
    | 5 => b.lt a || a.eqv b
    | _ => false
  let c := if un then cc = 1 || cc = 6 else ordered
  let nv := (a.isSignalling || b.isSignalling) || (f && un && 2 ≤ cc.toNat && cc.toNat ≤ 5)
  (c, flagIf nv flagNV ||| flagIf (a.isNar || b.isNar) flagNR)

/-- VCMP: an inactive element receives false (R145). -/
def execVcmp (g : Guard) (c d : BitVec 3) (a b : BitVec 5) (l : BitVec 3) (s : State) : Result :=
  s.mainSlot g fun s =>
    let x := s.vreg a
    let y := s.vreg b
    let m := s.lmask l
    let t := x.tag
    s.tagCheck (t = y.tag && (classF t || classI t || classT t)) fun s =>
    s.substCheck t (activeCodes m x ++ activeCodes m y) fun s =>
    let rs := (List.range (tagN t)).map fun i =>
      if active m (tagW t) i then vcond c (classF t) (readElem t s.efmt (x.code i)) (readElem t s.efmt (y.code i)) else (false, 0)
    (s.orFlags (rs.foldl (fun f r => f ||| r.2) 0)).setLm d (maskOf (tagW t) (rs.map (·.1)))

/-- VSEL: LM selects between the sources (R146). -/
def execVsel (g : Guard) (d a b : BitVec 5) (l : BitVec 3) (s : State) : Result :=
  s.mainSlot g fun s =>
    let x := s.vreg a
    let y := s.vreg b
    s.tagCheck (x.tag = y.tag) fun s =>
    s.vmap d x.tag false (fun _ => true) fun i _ =>
      ((if active (s.lmask l) (tagW x.tag) i then x.code i else y.code i), 0)

end Sys2Proof.Machine
end

