-- ==== Sys2Proof/Machine/VectorConv.lean ====
section
/-!
DEFINITION. V-slot conversions, block scales, reductions and scans (R147 to R152).
-/
namespace Sys2Proof.Machine

/-! ## Conversions (R147, R148) -/

/-- Whether VCVT to tag `f` with part number `p` accepts a source tag (R147). -/
def cvtOk (a f : BitVec 4) (p : Nat) : Bool :=
  convExists a f && p < max (tagW a) (tagW f) / min (tagW a) (tagW f)

/-- VCVT: widening takes part `p` of the source, narrowing writes part `p` of the destination (R147). -/
def execVcvt (g : Guard) (d a : BitVec 5) (f : BitVec 4) (p : BitVec 3) (s : State) : Result :=
  s.mainSlot g fun s =>
    let x := s.vreg a
    let ns := tagN x.tag
    let nd := tagN f
    s.tagCheck (cvtOk x.tag f p.toNat) fun s =>
    let off := if nd < ns then p.toNat * nd else 0
    let base := if ns < nd then p.toNat * ns else 0
    let n := min ns nd
    s.substCheck x.tag ((List.range n).map fun i => x.code (off + i)) fun s =>
    s.vmap d f (convDraws x.tag f) (fun i => decide (base ≤ i ∧ i < base + n)) fun i rm =>
      convElem x.tag f s.efmt (undrawnMode s.core.cur.preSh.frm x.tag rm) (x.code (off + i - base))

/-- VCVT.bits: the bytes unchanged under another tag (R148). -/
def execVcvtBits (g : Guard) (d a : BitVec 5) (f : BitVec 4) (s : State) : Result :=
  s.mainSlot g fun s =>
    let x := s.vreg a
    s.vmap d f false (fun _ => true) fun i _ => (field x.bits (i * tagW f) (tagW f), 0)

/-! ## Block scales (R149, R150) -/

/-- The values of block `j` of 32 elements. -/
def VReg.blockVals (v : VReg) (j : Nat) : List FVal :=
  (List.range 32).map fun i => readElem v.tag 0 (v.code (32 * j + i))

/-- VSCL: the E8M0 scale of each block of 32 elements (R149). -/
def State.vscl (s : State) (emax : Int) (g : Guard) (d a : BitVec 5) : Result :=
  s.mainSlot g fun s =>
    let x := s.vreg a
    s.tagCheck (classF x.tag) fun s =>
    let nb := tagN x.tag / 32
    s.vmap d tagE8M0 false (fun _ => true) fun i _ =>
      if i < nb then
        match blockScale emax (x.blockVals i) with
        | some e => (e, 0)
        | none => (0xFF, flagNV)
      else (0, 0)

/-- VSCL.t8 (R149). -/
def execVsclT8 (g : Guard) (d a : BitVec 5) (s : State) : Result := s.vscl 12 g d a

/-- VSCL.t6 (R149). -/
def execVsclT6 (g : Guard) (d a : BitVec 5) (s : State) : Result := s.vscl 8 g d a

/-- VQNT: each element divided by its block's scale and encoded by `FRM.RM` (R150). -/
def State.vqnt (s : State) (t : BitVec 4) (g : Guard) (d a b : BitVec 5) (p : BitVec 3) : Result :=
  s.mainSlot g fun s =>
    let x := s.vreg a
    let y := s.vreg b
    let n := tagN x.tag
    s.tagCheck (classF x.tag && y.tag = tagE8M0 && p.toNat < tagW x.tag / 8) fun s =>
    s.vmap d t true (fun i => decide (p.toNat * n ≤ i ∧ i < p.toNat * n + n)) fun i rm =>
      let k := i - p.toNat * n
      let e := y.code (k / 32)
      if e = 0xFF then (0, 0) else tapEncode (tagTapered t) rm (unscale e (readElem x.tag 0 (x.code k)))

/-- VQNT.t8 (R150). -/
def execVqntT8 (g : Guard) (d a b : BitVec 5) (p : BitVec 3) (s : State) : Result := s.vqnt tagT8 g d a b p

/-- VQNT.t6 (R150). -/
def execVqntT6 (g : Guard) (d a b : BitVec 5) (p : BitVec 3) (s : State) : Result := s.vqnt tagT6 g d a b p

/-! ## Reductions (R151) -/

/-- One level of the tree: neighbours added pairwise, each addition rounded, in increasing order. -/
def treeLevel (frm : BitVec 32) : List Nat → Word → List Nat × BitVec 32 × Word
  | a :: b :: l, seed =>
    let (rm, seed) := drawMode frm seed
    let (c, fl) := Fmt.finish fmtFP32 rm (FVal.add rm (fmtFP32.decode a) (fmtFP32.decode b))
    let (r, fl', seed) := treeLevel frm l seed
    (c :: r, fl ||| fl', seed)
  | l, seed => (l, 0, seed)

/-- The tree over a list of `2 ^ levels` FP32 codes. -/
def treeSum (frm : BitVec 32) : Nat → List Nat → Word → Nat × BitVec 32 × Word
  | 0, l, seed => (l.headD 0, 0, seed)
  | k + 1, l, seed =>
    let (l, fl, seed) := treeLevel frm l seed
    let (x, fl', seed) := treeSum frm k l seed
    (x, fl ||| fl', seed)

/-- A register of tag `t` whose element 0 is `x` and whose other elements are zero (R151). -/
def oneElem (t : BitVec 4) (x : Nat) : VReg := ⟨BitVec.ofNat 2048 (x % 2 ^ tagW t), t⟩

/-- VREDADD (R151). -/
def State.vredadd (s : State) (sat : Bool) (g : Guard) (d a : BitVec 5) (l : BitVec 3) : Result :=
  s.mainSlot g fun s =>
    let x := s.vreg a
    let m := s.lmask l
    let t := x.tag
    s.tagCheck (classI t || (classF t && !sat)) fun s =>
    if classF t then
      let leaves := (List.range (tagN t)).map fun i =>
        if active m (tagW t) i then fmtFP32.ofVal .rne (readElem t 0 (x.code i)) else (0, 0)
      let wide := if t = tagFP32 then (List.range 64).map fun i => (if active m 32 i then x.code i else 0, (0 : BitVec 32)) else leaves
      let (r, fl, seed) := treeSum s.core.cur.preSh.frm (tagN t).log2 (wide.map (·.1)) s.core.sh.seed
      ((s.mapSh fun r => { r with seed := seed }).orFlags (wide.foldl (fun f e => f ||| e.2) fl)).setV d (oneElem tagFP32 r)
    else
      s.substCheck t (activeCodes m x) fun s =>
      let rt := if t = tagI64 then tagI64 else tagI32
      let sum := ((activeCodes m x).map (readInt t s.efmt)).foldl (· + ·) 0
      let (r, fl) := intFinish rt s.efmt sat sum
      (s.orFlags fl).setV d (oneElem rt r)

/-- VREDADD (R151). -/
def execVredadd (g : Guard) (d a : BitVec 5) (l : BitVec 3) (s : State) : Result := s.vredadd false g d a l

/-- VREDADD.s (R151). -/
def execVredaddS (g : Guard) (d a : BitVec 5) (l : BitVec 3) (s : State) : Result := s.vredadd true g d a l

/-- What a reduction over no active element gives (R151). -/
def pickEmpty (wantMax : Bool) (t : BitVec 4) (efmt : BitVec 32) : Nat :=
  if classT t then (if wantMax then 2 ^ tagTapered t - 1 else 2 ^ (tagTapered t - 1) - 1)
  else
    match tagIeee t with
    | some f => f.infBits wantMax
    | none =>
      let (lo, hi) := intRange t efmt
      intBits (tagInt t) (if wantMax then lo else hi)

/-- VREDMAX and VREDMIN (R151). -/
def State.vredpick (s : State) (wantMax : Bool) (g : Guard) (d a : BitVec 5) (l : BitVec 3) : Result :=
  s.mainSlot g fun s =>
    let x := s.vreg a
    let t := x.tag
    s.tagCheck (classF t || classI t || classT t) fun s =>
    let codes := activeCodes (s.lmask l) x
    s.substCheck t codes fun s =>
    match codes with
    | [] => s.setV d (oneElem t (pickEmpty wantMax t s.efmt))
    | c :: cs =>
      let r := cs.foldl (fun (acc : Nat × BitVec 32) y =>
        let (z, fl) := pickElem wantMax t s.efmt acc.1 y
        (z, acc.2 ||| fl)) (pickElem wantMax t s.efmt c c)
      (s.orFlags r.2).setV d (oneElem t r.1)

/-- VREDMAX (R151). -/
def execVredmax (g : Guard) (d a : BitVec 5) (l : BitVec 3) (s : State) : Result := s.vredpick true g d a l

/-- VREDMIN (R151). -/
def execVredmin (g : Guard) (d a : BitVec 5) (l : BitVec 3) (s : State) : Result := s.vredpick false g d a l

/-! ## Scans (R152) -/

/-- The running code after element `x` is added. -/
def scanStep (t : BitVec 4) (efmt : BitVec 32) (rm : RMode) (run x : Nat) : Nat × BitVec 32 :=
  match tagIeee t with
  | some f => Fmt.finish f rm (FVal.add rm (f.decode run) (f.decode x))
  | none => intFinish t efmt false (intOf (tagInt t) (tagSigned t efmt) run + readInt t efmt x)

/-- The scan from element `i` onward: the running code before and after each element. -/
def scanFrom (frm efmt : BitVec 32) (m : BitVec 256) (v : VReg) : Nat → Nat → Nat → Word → List (Nat × Nat) × BitVec 32 × Word
  | 0, _, _, seed => ([], 0, seed)
  | n + 1, i, run, seed =>
    if active m (tagW v.tag) i then
      let (rm, seed) := if classF v.tag then drawMode frm seed else (.rne, seed)
      let (r, fl) := scanStep v.tag efmt rm run (v.code i)
      let (l, fl', seed) := scanFrom frm efmt m v n (i + 1) r seed
      ((run, r) :: l, fl ||| fl', seed)
    else
      let (l, fl', seed) := scanFrom frm efmt m v n (i + 1) run seed
      ((run, run) :: l, fl', seed)

/-- VSCAN (R152): the running value starts as -0 for F and 0 for I. -/
def State.vscan (s : State) (excl : Bool) (g : Guard) (d a : BitVec 5) (l : BitVec 3) : Result :=
  s.mainSlot g fun s =>
    let x := s.vreg a
    let t := x.tag
    let m := s.lmask l
    s.tagCheck (classF t || classI t) fun s =>
    s.substCheck t (activeCodes m x) fun s =>
    let start := if classF t then 2 ^ (tagW t - 1) else 0
    let (rs, fl, seed) := scanFrom s.core.cur.preSh.frm s.efmt m x (tagN t) 0 start s.core.sh.seed
    let codes := if excl then 0 :: (rs.drop 1).map (·.1) else rs.map (·.2)
    ((s.mapSh fun r => { r with seed := seed }).orFlags fl).setV d ⟨BitVec.ofNat 2048 (packElems (tagW t) codes), t⟩

/-- VSCAN (R152). -/
def execVscan (g : Guard) (d a : BitVec 5) (l : BitVec 3) (s : State) : Result := s.vscan false g d a l

/-- VSCAN.x, exclusive (R152). -/
def execVscanX (g : Guard) (d a : BitVec 5) (l : BitVec 3) (s : State) : Result := s.vscan true g d a l

end Sys2Proof.Machine
end

