-- ==== Sys2Proof/Machine/VectorMove.lean ====
section
/-!
DEFINITION. V-slot moves of elements, lane masks, tile registers, checks and sketch bounds (R153 to R165).
-/
namespace Sys2Proof.Machine

/-! ## Moving elements (R153 to R159) -/

/-- VBCAST: the low w bits of the value into every active element (R154). -/
def execVbcast (g : Guard) (d f : BitVec 5) (r : BitVec 6) (l : BitVec 3) (s : State) : Result :=
  s.mainSlot g fun s =>
    let t := f.setWidth 4
    s.vmap d t false (active (s.lmask l) (tagW t)) fun _ _ => ((s.vscalar t r).toNat % 2 ^ tagW t, 0)

/-- The element index that an 8-bit field names: modulo the element count (R155). -/
def elemIndex (t : BitVec 4) (i : BitVec 8) : Nat := i.toNat % tagN t

/-- VEXT: an element into a scalar register, sign-extended when it is a signed integer (R155). -/
def execVext (g : Guard) (i : BitVec 8) (a : BitVec 5) (r : BitVec 6) (s : State) : Result :=
  s.mainSlot g fun s =>
    let x := s.vreg a
    let c := x.code (elemIndex x.tag i)
    s.setS r (if tagInt x.tag ≠ 0 then BitVec.ofInt 64 (intOf (tagInt x.tag) (tagSigned x.tag s.efmt) c) else BitVec.ofNat 64 c)

/-- VINS: the low w bits of the value into one element, every other byte and the tag kept (R155). -/
def execVins (g : Guard) (d : BitVec 5) (i : BitVec 8) (r : BitVec 6) (s : State) : Result :=
  s.mainSlot g fun s =>
    let t := (s.vreg d).tag
    s.vmap d t false (fun j => j = elemIndex t i) fun _ _ => ((s.vscalar t r).toNat % 2 ^ tagW t, 0)

/-- VPERM: `vb` carries an I-class tag or RAW of the width of `va`, which is not I4 (R156). -/
def execVperm (g : Guard) (d a b : BitVec 5) (l : BitVec 3) (s : State) : Result :=
  s.mainSlot g fun s =>
    let x := s.vreg a
    let y := s.vreg b
    s.tagCheck (x.tag ≠ tagI4 && (classI y.tag || y.tag = tagRAW) && tagW x.tag = tagW y.tag) fun s =>
    s.vmap d x.tag false (active (s.lmask l) (tagW x.tag)) fun i _ => (x.code (y.code i % tagN x.tag), 0)

/-- VSLIDE: a positive k moves elements toward element 0 (R157). -/
def execVslide (g : Guard) (d a : BitVec 5) (r : BitVec 6) (l : BitVec 3) (s : State) : Result :=
  s.mainSlot g fun s =>
    let x := s.vreg a
    let k := (s.vscalarS r).toInt
    s.vmap d x.tag false (active (s.lmask l) (tagW x.tag)) fun i _ =>
      (if 0 ≤ (i : Int) + k ∧ (i : Int) + k < tagN x.tag then x.code ((i : Int) + k).toNat else 0, 0)

/-- `vhash` of R159. -/
def vhash (a b : BitVec 32) : BitVec 32 :=
  let h := a + b.rotateLeft 11 * 0x2C1B3C6D#32
  let h := h ^^^ (h >>> 15)
  let h := h * 0x297A2D39#32
  h ^^^ (h >>> 12)

/-- VHASH: each source is tagged I32 or FP32 (R159). -/
def execVhash (g : Guard) (d a b : BitVec 5) (l : BitVec 3) (s : State) : Result :=
  s.mainSlot g fun s =>
    let x := s.vreg a
    let y := s.vreg b
    s.tagCheck ((x.tag = tagI32 || x.tag = tagFP32) && (y.tag = tagI32 || y.tag = tagFP32)) fun s =>
    s.vmap d tagI32 false (active (s.lmask l) 32) fun i _ =>
      ((vhash (BitVec.ofNat 32 (x.code i)) (BitVec.ofNat 32 (y.code i))).toNat, 0)

/-- VIOTA: value + i modulo 2^w (R158). -/
def execViota (g : Guard) (d f : BitVec 5) (r : BitVec 6) (l : BitVec 3) (s : State) : Result :=
  s.mainSlot g fun s =>
    let t := f.setWidth 4
    s.vmap d t false (active (s.lmask l) (tagW t)) fun i _ => (((s.vscalarS r).toNat + i) % 2 ^ tagW t, 0)

/-! ## Lane masks (R160, R161) -/

/-- LMAND (R160). -/
def execLmand (g : Guard) (d a b : BitVec 3) (s : State) : Result :=
  s.mainSlot g fun s => s.setLm d (s.lmask a &&& s.lmask b)

/-- LMANDN (R160). -/
def execLmandn (g : Guard) (d a b : BitVec 3) (s : State) : Result :=
  s.mainSlot g fun s => s.setLm d (s.lmask a &&& ~~~(s.lmask b))

/-- LMOR (R160). -/
def execLmor (g : Guard) (d a b : BitVec 3) (s : State) : Result :=
  s.mainSlot g fun s => s.setLm d (s.lmask a ||| s.lmask b)

/-- LMXOR (R160). -/
def execLmxor (g : Guard) (d a b : BitVec 3) (s : State) : Result :=
  s.mainSlot g fun s => s.setLm d (s.lmask a ^^^ s.lmask b)

/-- LMNOT (R160). -/
def execLmnot (g : Guard) (d a : BitVec 3) (s : State) : Result :=
  s.mainSlot g fun s => s.setLm d (~~~(s.lmask a))

/-- Indexes of the set elements of width `8 · 2^k` bits, in increasing order (R161). -/
def setElems (m : BitVec 256) (k : BitVec 2) : List Nat :=
  (List.range (256 / 2 ^ k.toNat)).filter fun i => m.getLsbD (i * 2 ^ k.toNat)

/-- LMCNT (R161). -/
def execLmcnt (g : Guard) (k : BitVec 2) (a : BitVec 3) (r : BitVec 6) (s : State) : Result :=
  s.mainSlot g fun s => s.setS r (BitVec.ofNat 64 (setElems (s.lmask a) k).length)

/-- LMFF: the lowest set element, or the element count when none is set (R161). -/
def execLmff (g : Guard) (k : BitVec 2) (a : BitVec 3) (r : BitVec 6) (s : State) : Result :=
  s.mainSlot g fun s => s.setS r (BitVec.ofNat 64 ((setElems (s.lmask a) k).headD (256 / 2 ^ k.toNat)))

/-! ## Tile registers (R162, R163) -/

/-- Row `r` of a tile. -/
def TReg.row (t : TReg) (r : Nat) : VBits := t.bits.extractLsb' (2048 * r) 2048

/-- The tile with row `r` replaced. -/
def TReg.setRow (t : TReg) (r : Nat) (x : VBits) : TReg := { t with bits := setField t.bits (2048 * r) 2048 x.toNat }

/-- TWR: one row; the tile takes the source's tag (R28, R162). -/
def execTwr (g : Guard) (v : BitVec 5) (t : BitVec 2) (i : BitVec 6) (s : State) : Result :=
  s.mainSlot g fun s =>
    let x := s.vreg v
    s.setT t { (s.treg t).setRow i.toNat (cleanBits x.tag x.bits) with tag := x.tag }

/-- TZERO: all rows zero under tag `f` (R162). -/
def execTzero (g : Guard) (t : BitVec 2) (f : BitVec 4) (s : State) : Result :=
  s.mainSlot g fun s => s.setT t ⟨0, f⟩

/-- Column `c` of a tile: the 32-bit granule `c` of every row (R163). -/
def TReg.column (t : TReg) (c : Nat) : VBits :=
  BitVec.ofNat 2048 (packElems 32 ((List.range 64).map fun r => field (t.row r) (32 * c) 32))

/-- Writes `vd` with 256 bytes of a tile tagged `t`, converted to `f` unless `f` is 0 or `t` (R163); a conversion substitutes
the reserved code of an I8 or I16 tile as VCVT does (R53, R138). DESIGN CHOICE: log 119. -/
def State.tileRead (s : State) (d : BitVec 5) (bits : VBits) (t f : BitVec 4) : State :=
  if f = 0 || f = t then s.vmap d t false (fun _ => true) fun i _ => (elemCode bits t i, 0)
  else
    s.tagCheck (t ≠ tagRAW && tagW t = tagW f && convExists t f) fun s =>
    s.substCheck t ((List.range (tagN t)).map (elemCode bits t)) fun s =>
    s.vmap d f (convDraws t f) (fun _ => true) fun i rm => convElem t f s.efmt (undrawnMode s.core.cur.preSh.frm t rm) (elemCode bits t i)

/-- TRDC (R163). -/
def execTrdc (g : Guard) (v : BitVec 5) (t : BitVec 2) (i : BitVec 6) (f : BitVec 4) (s : State) : Result :=
  s.mainSlot g fun s => s.tileRead v ((s.treg t).column i.toNat) (s.treg t).tag f

/-- TRDR (R163). DEDUCED: log 25. -/
def execTrdr (g : Guard) (v : BitVec 5) (t : BitVec 2) (i : BitVec 6) (f : BitVec 4) (s : State) : Result :=
  s.mainSlot g fun s => s.tileRead v ((s.treg t).row i.toNat) (s.treg t).tag f

/-! ## Checks and sketch bounds (R164, R165) -/

/-- VCHK of two vector registers: the tags and every byte whose mask bit is set (R164). -/
def execVchk (g : Guard) (a b : BitVec 5) (l : BitVec 3) (s : State) : Result :=
  s.mainSlot g fun s =>
    let x := s.vreg a
    let y := s.vreg b
    let m := s.lmask l
    if x.tag = y.tag && (List.range 256).all fun j => !m.getLsbD j || byteOf x.bits j == byteOf y.bits j then s
    else s.raise .checkMismatch 0 0

/-- VCHK of two lane masks (R164). -/
def execVchkLm (g : Guard) (a b : BitVec 3) (s : State) : Result :=
  s.mainSlot g fun s => if s.lmask a = s.lmask b then s else s.raise .checkMismatch 0 0

/-- The FP32 bound of one SKETCH entry: `p` and `n` are the sixteen positive and negative sums, `hi` and `lo` the group maxima and
minima (R165). -/
def sketchBound (p n : List FVal) (hi lo : List Nat) : Nat × BitVec 32 :=
  if anyNonFinite (p ++ n) then (fmtFP32.cnan, flagNV)
  else if (hi ++ lo).any fun c => c = 0x80 then (fmtFP32.infBits false, flagNR)
  else
    let terms := (p.zip hi ++ n.zip lo).map fun x => Dy.mul x.1.dy (tapDecode 8 x.2).dy
    fmtFP32.ofVal .rup ((terms.foldl Dy.add ⟨0, 0⟩).toF false)

/-- VSKB (R165). -/
def execVskb (g : Guard) (d a b : BitVec 5) (s : State) : Result :=
  s.mainSlot g fun s =>
    let x := s.vreg a
    let y := s.vreg b
    s.tagCheck (x.tag = tagRAW && y.tag = tagFP32) fun s =>
    let lane := fun k => fmtFP32.decode (y.code k)
    let p := (List.range 16).map lane
    let n := (List.range 16).map fun k => lane (16 + k)
    s.vmap d tagFP32 false (fun _ => true) fun i _ =>
      if i < 4 then
        sketchBound p n ((List.range 16).map fun k => x.code (64 * i + 8 + k)) ((List.range 16).map fun k => x.code (64 * i + 24 + k))
      else (0, 0)

end Sys2Proof.Machine
end

