-- ==== Sys2Proof/Machine/Translate.lean ====
section
/-!
DEFINITION. Address translation: page tables and the walk (R334 to R337), the translation caches (R339), page attributes (R189)
and the miss of an access (R341).
-/
namespace Sys2Proof.Machine

/-! ## Leaves and attributes (R189, R336) -/

def leafV (e : BitVec 64) : Bool := e.getLsbD 63
def leafLeaf (e : BitVec 64) : Bool := e.getLsbD 62
def leafW (e : BitVec 64) : Bool := e.getLsbD 61
def leafSC (e : BitVec 64) : Bool := e.getLsbD 60
def leafCMP (e : BitVec 64) : Bool := e.getLsbD 59
def leafONCE (e : BitVec 64) : Bool := e.getLsbD 58
def leafRC (e : BitVec 64) : Bool := e.getLsbD 57
def leafPIN (e : BitVec 64) : Bool := e.getLsbD 56
/-- ADDR << 8: the physical address of the next table or of the page. -/
def leafBase (e : BitVec 64) : Nat := field e 8 37 * 256

/-- The columns of R189's table; `qrec` is QPUSH's record. -/
inductive Access where
  | load | store | atom | once | queue | qrec
  deriving DecidableEq, Repr

/-- ACCESS of a translation record: 0 read, 1 write, 2 atomic or queue (R342). -/
def Access.code : Access → BitVec 2
  | .load => 0
  | .store => 1
  | .qrec => 0
  | _ => 2

/-- The trap that a valid leaf's attributes give an access (R189): CMP_ACCESS first, then PROT. -/
def attrTrap (e : BitVec 64) (a : Access) : Option Cause :=
  if leafCMP e then some .cmpAccess
  else
    let noW := !leafW e && (match a with | .load => false | .qrec => false | _ => true)
    let once := match a with
      | .load => false
      | .once => !leafONCE e
      | _ => leafONCE e
    let rc := leafRC e && (match a with | .load => false | _ => true)
    if noW || once || rc then some .prot else none

/-- log2 of the page size of a leaf found at a level (R336). -/
def pageBits (level : BitVec 2) : Nat := if level = 1 then 30 else if level = 2 then 21 else 16

/-- The physical address of a virtual address in a cached page. -/
def TlbEntry.phys (t : TlbEntry) (va : Nat) : Nat := leafBase t.leaf + va % 2 ^ pageBits t.level

/-- Whether a cached translation holds an address. -/
def TlbEntry.covers (t : TlbEntry) (asid : BitVec 8) (va : Nat) : Bool :=
  t.asid = asid && va / 2 ^ pageBits t.level = t.va.toNat / 2 ^ pageBits t.level

/-! ## The walk (R336, R337) -/

/-- The index of an address into the table of a level. -/
def walkIndex (va : Nat) (level : Nat) : Nat :=
  match level with
  | 0 => va / 2 ^ 39 % 8192
  | 1 => va / 2 ^ 30 % 512
  | 2 => va / 2 ^ 21 % 512
  | _ => va / 2 ^ 16 % 32

/-- Alignment in bytes of the table that an entry of a level names. -/
def tableAlign (level : Nat) : Nat := if level = 0 then 4096 else if level = 1 then 4096 else 256

/-- Whether a physical address names existing memory (R335). -/
def physExists (pa : Nat) : Bool := Config.stackPresent (BitVec.ofNat 6 (pa / 2 ^ 39)) (BitVec.ofNat 3 (pa / 2 ^ 36))

/-- Whether a valid entry of a level is malformed (R337). -/
def malformed (e : BitVec 64) (level : Nat) : Bool :=
  let leaf := leafLeaf e
  let reserved := field e 45 11 ≠ 0 || field e 0 8 ≠ 0
  let rule := (level = 0 && leaf) || (level = 3 && !leaf)
  let attrs := !leaf && field e 56 6 ≠ 0
  let align := leafBase e % (if leaf then 2 ^ pageBits (BitVec.ofNat 2 level) else tableAlign level) ≠ 0
  let three := (leafCMP e && leafONCE e) || (leafCMP e && leafRC e) || (leafONCE e && leafRC e)
  reserved || rule || attrs || align || three || (leafSC e && leafRC e) || !physExists (leafBase e)

/-- What a walk finds: a leaf with its level, a fault with reason, level and entry address, a poisoned granule (R337), or an entry whose
home holds the read (R338, R405). -/
inductive WalkRes where
  | ok (leaf : BitVec 64) (level : BitVec 2)
  | fault (reason level entry : Nat)
  | poison (pa : Nat)
  | wait (pa : Nat)
  deriving DecidableEq, Repr

/-- The walk of the access `key` from a table at `a`, over the levels that are left. -/
def State.walkFrom (s : State) (key : HeldAcc) (va : Nat) : Nat → Nat → Nat → WalkRes
  | 0, level, _ => .fault 1 level 0
  | n + 1, level, a =>
    let pe := a + 8 * walkIndex va level
    if s.homeHeld key pe then .wait pe
    else if s.poisoned pe 8 then .poison pe
    else
      let e := BitVec.ofNat 64 (s.homeRead pe 8)
      if !leafV e then .fault 0 level pe
      else if malformed e level then .fault 1 level pe
      else if level = 3 || leafLeaf e then .ok e (BitVec.ofNat 2 level)
      else s.walkFrom key va n (level + 1) (leafBase e)

/-- The ASID table entry of an address space, when it is live and well formed (R334). -/
def State.asidEntry (s : State) (asid : BitVec 8) : Option Nat :=
  let t := s.homeRead (s.astBase.toNat + 16 * asid.toNat) 16
  if t / 2 ^ 63 % 2 = 1 && t / 2 ^ 64 = 0 && t / 2 ^ 45 % 2 ^ 18 = 0 && t % 2 ^ 16 = 0 then some (t / 2 ^ 16 % 2 ^ 29 * 65536)
  else none

/-- `walk` of R337, for the access `key`. -/
def State.pageWalk (s : State) (key : HeldAcc) (asid : BitVec 8) (va : Nat) : WalkRes :=
  if 2 ^ 52 ≤ va then .fault 2 0 0
  else if s.homeHeld key (s.astBase.toNat + 16 * asid.toNat) then .wait (s.astBase.toNat + 16 * asid.toNat)
  else if s.poisoned (s.astBase.toNat + 16 * asid.toNat) 16 then .poison (s.astBase.toNat + 16 * asid.toNat)
  else match s.asidEntry asid with
    | none => .fault 3 0 0
    | some root => s.walkFrom key va 4 0 root

/-! ## Translation caches (R339) -/

/-- A lookup in a translation cache. -/
def tlbFind (l : List TlbEntry) (asid : BitVec 8) (va : Nat) : Option TlbEntry := l.find? fun t => t.covers asid va

/-- A cache of `n` entries after an entry is put in: without room the oldest entry leaves, and with `keepPin` an entry without
PIN leaves first (R338). DESIGN CHOICE: log 21. -/
def tlbPut (n : Nat) (keepPin : Bool) (t : TlbEntry) (l : List TlbEntry) : List TlbEntry :=
  let l := l.filter fun x => x ≠ t
  let l := if l.length < n then l
    else
      match (if keepPin then l.findIdx? (fun x => !leafPIN x.leaf) else none) with
      | some i => l.eraseIdx i
      | none => l.drop 1
  l ++ [t]

/-- A cached translation that serves an access of the focused core: its own micro-TLB, of the slots or of the copy engines, or its
die's last-level TLB. -/
def State.tlb (s : State) (copy : Bool) (asid : BitVec 8) (va : Nat) : Option TlbEntry :=
  if 2 ^ 52 ≤ va then none
  else match tlbFind (if copy then s.core.ctlb else s.core.utlb) asid va with
    | some t => some t
    | none => tlbFind (s.lltlb.read (dieOf s.coreTile)) asid va

/-- Caches a translation in the focused core's micro-TLB and its die's last-level TLB. -/
def State.tlbFill (s : State) (copy : Bool) (t : TlbEntry) : State :=
  let d := dieOf s.coreTile
  let s := { s with lltlb := s.lltlb.write d (tlbPut 2048 true t (s.lltlb.read d)) }
  s.mapCore fun c => if copy then { c with ctlb := tlbPut 64 false t c.ctlb } else { c with utlb := tlbPut 64 false t c.utlb }

/-! ## Misses (R341) -/

/-- Whether a miss is that of the same unit on the same 64 KiB page. -/
def Walk.same (w : Walk) (tile : BitVec 7) (ctx : BitVec 2) (unit : BitVec 3) (cmd : Nat) (va : Nat) : Bool :=
  w.tile = tile && w.ctx = ctx && w.unit = unit && w.cmd = cmd && w.va.toNat / 65536 = va / 65536

/-- Records a miss of a unit of the focused core, unless it is already recorded. -/
def State.miss (s : State) (ctx : BitVec 2) (unit : BitVec 3) (cmd : Nat) (va : BitVec 64) (a : Access) (progress : Nat) : State :=
  if s.walks.any fun w => w.same s.coreTile ctx unit cmd va.toNat then s
  else { s with
    walks := s.walks ++ [⟨s.nextWalk, s.coreTile, ctx, unit, cmd, s.core.asid, va, a.code, progress, none⟩]
    nextWalk := s.nextWalk + 1 }

/-- Whether two misses share a walk: one die, one ASID, one 64 KiB page (R339). -/
def Walk.shares (w v : Walk) : Bool :=
  dieOf w.tile = dieOf v.tile && w.asid = v.asid && w.va.toNat / 65536 = v.va.toNat / 65536

/-- The misses that take the walkers of a die or wait for one, the first of each page, oldest first. -/
def State.pagesMissed (s : State) (d : BitVec 2) : List Walk :=
  (s.walks.filter fun w => w.token.isNone && dieOf w.tile = d).foldl
    (fun (l : List Walk) w => if l.any w.shares then l else l ++ [w]) []

/-- Whether one of the 64 walkers of its die serves a miss (R339). DEDUCED: log 99. -/
def State.hasWalker (s : State) (w : Walk) : Bool := ((s.pagesMissed (dieOf w.tile)).take 64).any w.shares

/-- The token of a miss that has faulted. -/
def State.missToken (s : State) (ctx : BitVec 2) (unit : BitVec 3) (cmd : Nat) (va : BitVec 64) : Option Nat :=
  match s.walks.find? fun w => w.same s.coreTile ctx unit cmd va.toNat with
  | some w => w.token
  | none => none

/-- The slot in issue holds its bundle at a miss (R341). -/
def State.holdMiss (s : State) (unit : BitVec 3) (va : BitVec 64) (a : Access) : State :=
  let ctx := s.core.cur.ctx
  (s.miss ctx unit 0 va a 0).holdFor (match s.missToken ctx unit 0 va with | some t => .stall t | none => .walk)

end Sys2Proof.Machine
end

