-- ==== Sys2Proof/Machine/Access.lean ====
section
/-!
DEFINITION. Shared operations of the memory instructions: scratchpad addresses, banks and windows (R187, R190, R194, R350),
device accesses (R187 to R189, R191), the holding buffer (R40, R372) and requests.
-/
namespace Sys2Proof.Machine

/-! ## Scratchpad addresses (R187) -/

/-- Where a scratchpad access of `n` bytes lies: the local range, or a member's window and the offset in it. -/
inductive SpadLoc where
  | local_ (a : Nat)
  | window (m : BitVec 2) (off : Nat)
  | outside
  deriving DecidableEq, Repr

def spadLoc (a n : Nat) : SpadLoc :=
  if a + n ≤ 0x200000 then .local_ a
  else if 0x800000 ≤ a && a + n ≤ 0x1000000 && a / 0x200000 = (a + n - 1) / 0x200000 then
    .window (BitVec.ofNat 2 (a / 0x200000)) (a % 0x200000)
  else .outside

/-! ## Banks (R190, R350) -/

/-- `spad_bank` of R350. -/
def spadBank (p : Nat) (key : BitVec 32) : Nat :=
  let g := (p / 2 ^ 11 % 32 * (2 * field key 0 5 + 1) + p / 2 ^ 16 % 32 * (2 * field key 5 5 + 1) + field key 10 5) % 32
  (p / 64 % 32) ^^^ g

/-- The 64-byte lines of placed bytes that an access of `n` bytes at `a` under a layout touches. -/
def spadLines (a n l : Nat) : List Nat :=
  ((List.range ((a % 64 + n + 63) / 64)).map fun i => spadMap (a - a % 64 + 64 * i) l)

/-- Claims the banks of an access in the bundle in issue: an access waits a cycle for each earlier claim on its bank in the cycle, and waits
of one bundle run together (R190, DEDUCED). -/
def State.claim (s : State) (tile : BitVec 7) (a n l : Nat) : State :=
  let key := (s.coreAt tile).ckey
  s.mapCur fun c => (spadLines a n l).foldl (fun (c : Issue) p =>
    let b := tile.toNat * 32 + spadBank p key
    { c with claims := b :: c.claims, extra := max c.extra (c.claims.filter (· = b)).length }) c

/-! ## Registers that a bundle leaves pending (R74) -/

/-- A result of the bundle in issue is ready `n` cycles after issue (R105, R140, R192). -/
def State.readyIn (s : State) (r : RegId) (n : Nat) : State :=
  s.mapCore fun c => { c with busy := c.busy ++ [⟨c.cur.ctx, r, c.cyc.toNat + n⟩] }

/-! ## Device addresses -/

/-- The physical address of a virtual address, for an access of `n` bytes that lies in one page. -/
def State.physOf (s : State) (va : Nat) : Option (Nat × BitVec 64) :=
  (s.tlb false s.core.asid va).map fun t => (t.phys va, t.leaf)

/-- The virtual addresses at which an access of `n` bytes enters a 64-byte block. -/
def blockStarts (va n : Nat) : List Nat := ((List.range ((va % 64 + n + 63) / 64)).map fun i => max va (va - va % 64 + 64 * i))

/-- The first address of an access that no cached translation covers. -/
def State.firstMiss (s : State) (va n : Nat) : Option Nat := (blockStarts va n).find? fun a => (s.physOf a).isNone

/-- The first attribute trap of an access, with its address (R189). -/
def State.firstTrap (s : State) (va n : Nat) (acc : Access) : Option (Cause × Nat) :=
  (blockStarts va n).findSome? fun a =>
    match s.physOf a with
    | some (_, e) => (attrTrap e acc).map fun c => (c, a)
    | none => none

/-- Whether any page of an access carries SC. -/
def State.anySC (s : State) (va n : Nat) : Bool :=
  (blockStarts va n).any fun a => match s.physOf a with | some (_, e) => leafSC e | none => false

/-- What a cached translation gives of its page. -/
def TlbEntry.use (t : TlbEntry) : PageUse := ⟨leafRC t.leaf, leafONCE t.leaf, t.level⟩

/-- The page of each piece of an access (R189, R339). -/
def State.piecePages (s : State) (va n : Nat) : List PageUse :=
  (blockStarts va n).filterMap fun a => (s.tlb false s.core.asid a).map TlbEntry.use

/-- The pieces of an access: offset within it and physical address, one for each 64-byte block. -/
def State.pieces (s : State) (va n : Nat) : List (Nat × BitVec 45) :=
  (blockStarts va n).filterMap fun a => (s.physOf a).map fun p => (a - va, BitVec.ofNat 45 p.1)

/-- Device requests of a core in flight, in its window of 2,048; window accesses, barrier arrivals and TRIGGER are none (R16, R191). -/
def Core.deviceReqs (c : Core) : Nat :=
  (c.reqs.filter fun r => match r.kind with
    | .winLoad _ _ => false
    | .winVLoad _ _ => false
    | .winStore => false
    | .gather _ => r.x = 0
    | .barrier => false
    | .trigger => false
    | _ => true).length

/-- The name under which home holds a device access of a command of the focused core. -/
def State.cmdKey (s : State) (k : Cmd) : HeldAcc := .cmd s.coreTile (if s.core.q1.any (·.id = k.id) then 1 else 0) k.id k.progress

/-- Whether a home holds the present access of a command: in a quiesced channel, or because no home takes it yet. -/
def State.cmdHeld (s : State) (k : Cmd) : Bool :=
  s.stalled.contains (s.cmdKey k) || s.quiesces.any fun q => q.held.contains (s.cmdKey k)

/-- Device accesses of the focused core in flight: its requests, and the accesses of its copy engines that a home holds (R16, R354, R405,
R419). -/
def State.deviceReqs (s : State) : Nat :=
  s.core.deviceReqs + ((s.core.q0 ++ s.core.q1).filter s.cmdHeld).length

/-- Whether a VATOM has elements to apply that lie on an SC page or are not translated. -/
def State.vatomOpen (s : State) (r : Req) : Bool :=
  r.result.isNone && (r.addrs.drop r.progress).any fun e => match s.physOf e.2.toNat with
    | some (_, leaf) => leafSC leaf
    | none => true

/-- Whether the context in issue has an access of an earlier bundle that its later ones must not pass: an SC access that has not performed, or a
gather, scatter or VATOM whose elements are not yet translated (R191, R195, R254). DEDUCED: log 26. -/
def State.orderHeld (s : State) : Bool :=
  let n := s.core.cur.ctx
  s.core.reqs.any fun r =>
    r.ctx = n && r.id < s.core.cur.firstId && !r.discard && (r.sc || (match r.kind with
      | .scatter _ => true
      | .gather _ => r.x = 0 && decide (r.pas.length < r.addrs.length)
      | .vatom _ _ => s.vatomOpen r
      | _ => false))

/-- What holds back a device access of the context in issue: the window of requests, or an earlier access. -/
def State.accessHeld (s : State) : Bool := decide (2048 ≤ s.deviceReqs) || s.orderHeld

/-- A device access of `n` bytes at `va` in a unit of the slot in issue, checked by R187 to R189; `k` is given whether a page
carries SC. -/
def State.device (s : State) (unit : BitVec 3) (va : Word) (n align : Nat) (acc : Access) (k : Bool → State → State) : State :=
  if va.toNat % align ≠ 0 then s.raise .align va 0
  else
    match s.firstMiss va.toNat n with
    | some a => s.holdMiss unit (BitVec.ofNat 64 a) acc
    | none =>
      match s.firstTrap va.toNat n acc with
      | some (c, a) => s.raise c (BitVec.ofNat 64 a) 0
      | none => if s.accessHeld then s.holdFor .order else k (s.anySC va.toNat n) s

/-- Whether the context's earlier irrevocable operation still lacks its second checkpoint (R199). -/
def State.irrevPending (s : State) : Bool := s.ctx.irrevOut && !s.ctx.ckDone

/-- An irrevocable operation of the slot in issue: its context takes a checkpoint before the bundle (R199). -/
def State.irrevocable (s : State) (k : State → State) : State :=
  if s.irrevPending then s.holdFor .order
  else if s.ctx.ckDone then k (s.mapCtx fun x => { x with irrevOut := true })
  else s.needCk .irrevBefore

/-! ## Holding buffer (R40) -/

/-- Overlays the bytes of an entry on a list of bytes that lies at physical address `pa`. -/
def HEntry.overlay (e : HEntry) (pa : Nat) (bs : List (Option Byte)) : List (Option Byte) :=
  bs.zipIdx.map fun x =>
    let a := pa + x.2
    if e.pa.toNat ≤ a && a < e.pa.toNat + 64 && e.mask.getLsbD (a - e.pa.toNat) then some (byteOf e.bytes (a - e.pa.toNat)) else x.1

/-- Bytes that entries, oldest first, forward to a load of `n` bytes at `pa` (R191). -/
def forwardFrom (es : List HEntry) (pa n : Nat) : List (Option Byte) :=
  es.foldl (fun bs e => e.overlay pa bs) (List.replicate n none)

/-- The entries that a load of the bundle in issue sees: those of its context as they stood before the bundle (R72, R191). -/
def State.entriesSeen (s : State) : List HEntry := s.ctx.released ++ s.core.cur.part

/-- Bytes that a context still forwards to an element of its gather at `pa`: those of the entries that the gather's bundle found and that have
not performed since; an SC gather takes every byte at home (R195). -/
def Ctx.forwardTo (x : Ctx) (r : Req) (pa n : Nat) : List (Option Byte) :=
  if r.sc then List.replicate n none
  else forwardFrom (r.fwd.filter fun e => (x.released ++ x.part).any fun f => f.pa = e.pa && f.phase = e.phase) pa n

/-- A store of bytes of one block into a context's partition: it merges into the phase's entry of the block (R40). -/
def Ctx.withhold (x : Ctx) (asid : BitVec 8) (vpn : BitVec 36) (cls : BitVec 4) (pa : Nat) (bs : List (Nat × Byte)) : Ctx :=
  let block := BitVec.ofNat 45 (pa - pa % 64)
  let mask := bs.foldl (fun (m : BitVec 64) b => m ||| BitVec.ofNat 64 (2 ^ (pa % 64 + b.1))) 0
  let put := fun (old : BitVec 512) => bs.foldl (fun (w : BitVec 512) b => setByte w (pa % 64 + b.1) b.2) old
  let e : HEntry := match x.part.find? fun e => e.pa = block with
    | some e =>
      { e with
        mask := e.mask ||| mask
        bytes := put e.bytes
        cls := cls
        seq := x.storeSeq
        vpns := if e.vpns.contains vpn then e.vpns else e.vpns ++ [vpn]
        fences := x.fences.length }
    | none => ⟨block, mask, put 0, cls, x.storeSeq, x.phase, asid, [vpn], x.fences.length⟩
  { x with part := (x.part.filter fun f => f.pa ≠ block) ++ [e], storeSeq := x.storeSeq + 1 }

/-- Withholds the bytes of a store whose pieces are translated; byte `j` is written when `mask` has bit `j`. -/
def State.withhold (s : State) (va : Nat) (pieces : List (Nat × BitVec 45)) (cls : BitVec 4) (bits : VBits) (mask : BitVec 256)
    (n : Nat) : State :=
  pieces.foldl (fun (s : State) p =>
    let len := min (64 - p.2.toNat % 64) (n - p.1)
    let bs := ((List.range len).filter fun j => mask.getLsbD (p.1 + j)).map fun j => (j, byteOf bits (p.1 + j))
    if bs.isEmpty then s
    else s.mapCtx fun x => x.withhold s.core.asid (BitVec.ofNat 36 ((va + p.1) / 65536)) cls p.2.toNat bs) s

/-! ## Requests -/

/-- A request of the slot in issue with nothing filled in. -/
def State.request (s : State) (kind : ReqKind) (cls : BitVec 4) : Req :=
  { id := s.core.nextId, ctx := s.core.cur.ctx, slot := s.core.cur.slot, phase := s.ctx.phase, mphase := s.core.main.phase,
    kind := kind, cls := cls, dc := none, va := 0, pa := 0, dst := 0, x := 0, y := 0, bits := 0, mask := 0, addrs := [], pas := [],
    progress := 0, irrev := false, sc := false, pages := [], fwd := [], result := none, asid := s.core.asid, waiting := false,
    discard := false }

/-- Sends a request; a load counts on its dependence counter at issue (R84). -/
def State.send (s : State) (r : Req) : State :=
  let s := s.mapCore fun c => { c with reqs := c.reqs ++ [r], nextId := c.nextId + 1 }
  match r.dc with
  | some c => s.mapRegs fun p => { p with dc := p.dc.write c (p.dc.read c + 1) }
  | none => s

/-- Bytes of a forward list as a register with its mask. -/
def packForward (bs : List (Option Byte)) : VBits × BitVec 256 :=
  (ofBytes 2048 (bs.map fun b => b.getD 0), BitVec.ofNat 256 (packElems 1 (bs.map fun b => if b.isSome then 1 else 0)))

/-- The bytes that the context's entries forward to a load with the given pieces; on an SC page every byte is read at home (R191). -/
def State.forward (s : State) (sc : Bool) (pieces : List (Nat × BitVec 45)) (n : Nat) : VBits × BitVec 256 :=
  if sc then (0, 0)
  else packForward ((pieces.map fun p => forwardFrom s.entriesSeen p.2.toNat (min (64 - p.2.toNat % 64) (n - p.1))).flatten)

/-- The counter of a class (R84). -/
def dcOf (q : BitVec 4) : BitVec 3 := q.setWidth 3

end Sys2Proof.Machine
end

