-- ==== Sys2Proof/Machine/Nest.lean ====
section
/-!
DEFINITION. Descriptors: their fields (R34), units (R219), the points of a nest (R220), the sides of a command, and the banks that a queued
command may write (R190, R250, R350).
-/
namespace Sys2Proof.Machine

/-! ## Fields (R34) -/

def descSStride (d : BitVec 512) (i : Nat) : Int := intOf 22 true (field d (56 * i) 22)
def descDStride (d : BitVec 512) (i : Nat) : Int := intOf 22 true (field d (56 * i + 22) 22)
def descSBase (d : BitVec 512) : Nat := field d 336 52
def descDBase (d : BitVec 512) : Nat := field d 388 52
def descDUnit (d : BitVec 512) : Nat := field d 448 2
def descSUnit (d : BitVec 512) : Nat := field d 450 2
def descVchk (d : BitVec 512) : Bool := d.getLsbD 452
def descDec (d : BitVec 512) : Nat := field d 453 2
def descQnt (d : BitVec 512) : Nat := field d 455 2
def descMcast (d : BitVec 512) : BitVec 4 := d.extractLsb' 457 4
def descPadHi (d : BitVec 512) (i : Nat) : Bool := d.getLsbD (461 + i)
def descPadLo (d : BitVec 512) (i : Nat) : Bool := d.getLsbD (467 + i)
def descPads (d : BitVec 512) : Nat := field d 461 12
def descLayout (d : BitVec 512) : Nat := field d 473 3
def descFmt (d : BitVec 512) : Nat := field d 476 4
def descVersion (d : BitVec 512) : Nat := field d 480 32

/-- A stride unit in bytes: 1, 64, 4,096 or 65,536. -/
def strideUnit (u : Nat) : Nat := if u = 0 then 1 else if u = 1 then 64 else if u = 2 then 4096 else 65536

/-- The size E of a unit (R219). -/
def unitSize (fmt : Nat) : Nat :=
  match fmt with
  | 1 => 4 | 8 => 4 | 2 => 2 | 3 => 2 | 7 => 2 | 5 => 3 | 11 => 8 | _ => 1

/-! ## Points (R220) -/

/-- A point of a nest: its source and destination sums and whether it is a pad point. -/
structure Point where
  s : Int
  t : Int
  pad : Bool
  deriving DecidableEq, Repr

/-- The index of dimension `i` at the `k`-th point, dimension 0 innermost. -/
def nestIndex (d : BitVec 512) (k i : Nat) : Nat :=
  k / ((List.range i).map (descCount d)).foldl (· * ·) 1 % descCount d i

/-- The `k`-th point of `walk(d)`. -/
def nestPoint (d : BitVec 512) (k : Nat) : Point :=
  (List.range 6).foldl (fun (p : Point) i =>
    let x := nestIndex d k i
    { s := p.s + x * descSStride d i * strideUnit (descSUnit d)
      t := p.t + x * descDStride d i * strideUnit (descDUnit d)
      pad := p.pad || (descPadLo d i && x = 0) || (descPadHi d i && x + 1 = descCount d i) })
    ⟨descSBase d, descDBase d, false⟩

/-- A scratchpad side uses bits 23 to 0 of its sum (R220). -/
def spadAddr (x : Int) : Nat := (x % 2 ^ 24).toNat

/-- The byte that a scratchpad address names under a layout: its offset in the local range or in a window is mapped (R220). -/
def placed (a l : Nat) : Nat := a / 0x200000 * 0x200000 + spadMap (a % 0x200000) l

/-! ## The sides of a command -/

/-- The layout of the source and of the destination (R221). -/
def sideLayouts (d : BitVec 512) (sdev ddev ls : Bool) : Nat × Nat :=
  let l := descLayout d
  ((if !sdev && (ddev || ls) then l else 0), (if !ddev && (sdev || !ls) then l else 0))

/-- Base of the scales of a row (R224): the indices of `d`, the strides of `d1`. -/
def scaleBase (d d1 : BitVec 512) (point : Nat) : Int :=
  ((List.range 5).foldl (fun (n : Int) i =>
    n + nestIndex d point (i + 1) * descDStride d1 (i + 1) * strideUnit (descDUnit d1)) (descDBase d1 : Int))

/-- Offset and length of a part of a block slot whose rows hold `w` elements (R230). -/
def gathPart (w : Nat) (p : BitVec 2) : Nat × Nat :=
  match p.toNat with
  | 0 => (0, 16 * w)
  | 1 => (16 * w, 16 * w)
  | 2 => (32 * w, w)
  | _ => (0, 33 * w)

/-! ### Transfer words (R236) -/

def linkChan (w : Word) : BitVec 8 := w.extractLsb' 52 8
def linkPort (w : Word) : BitVec 4 := w.extractLsb' 48 4
def linkLen (w : Word) : Nat := field w 32 16
def linkAddr (w : Word) : Nat := field w 0 24

/-! ## Banks of queued commands (R190, R250) -/

/-- Where `n` bytes of the scratchpad side of a command of tile `own` lie: the tile, the offset, the number and the layout. -/
def spadSpan (own : BitVec 7) (a : Int) (n l : Nat) : List (BitVec 7 × Nat × Nat × Nat) :=
  match spadLoc (spadAddr a) n with
  | .local_ off => [(own, off, n, l)]
  | .window m off => [(quadMate own m, off, n, l)]
  | .outside => []

/-- The units of a command that are still to come, of `n` in all. -/
def Cmd.ahead (k : Cmd) (n : Nat) : List Nat := (List.range n).drop k.progress

/-- The blocks of a CPYQ: the index of the first element of the row, the number of the block in it and its elements (R224). -/
def quantBlocks (d : BitVec 512) : List (Nat × Nat × Nat) :=
  let n0 := descCount d 0
  ((List.range (descProduct d / n0)).map fun r => (List.range ((n0 + 31) / 32)).map fun b => (r * n0, b, min 32 (n0 - 32 * b))).flatten

/-- The codes and the scales that a CPYQ to scratchpad has still to write. The block in hand stands in `buf` from its first element until its
codes are written, and then its scale (R224). -/
def Cmd.quantAhead (k : Cmd) (own : BitVec 7) (l : Nat) : List (BitVec 7 × Nat × Nat × Nat) :=
  let t8 := descQnt k.d0 = 1
  ((quantBlocks k.d0).map fun (first, b, n) =>
    let last := first + 32 * b + n
    let codes := spadSpan own ((nestPoint k.d0 first).t + (if t8 then 32 * b else 24 * b)) (if t8 then n else 3 * ((n + 3) / 4)) l
    let scale := spadSpan own (scaleBase k.d0 k.d1 first + b) 1 l
    if k.progress < last || (k.progress = last && 1 < k.buf.length) then codes ++ scale
    else if k.progress = last && !k.buf.isEmpty then scale else []).flatten

/-- The scratchpad bytes that a command of tile `own` has still to write (R190). A chunk of a CPYX counts with the bytes of the longest one. -/
def Cmd.toWrite (k : Cmd) (own : BitVec 7) : List (BitVec 7 × Nat × Nat × Nat) :=
  let pts := fun (e l : Nat) => ((k.ahead (descProduct k.d0)).map fun p => spadSpan own (nestPoint k.d0 p).t e l).flatten
  let row := fun (j : Nat) => (descDBase k.d0 : Int) + j * descDStride k.d0 0 * strideUnit (descDUnit k.d0)
  let received := fun (done : Nat) => spadSpan own ((linkAddr k.link + done : Nat) : Int) (64 * linkLen k.link - done) 0
  let next := match k.i with
    | .cpy _ _ _ _ sdev ddev ls => if ddev = 1 then [] else pts (unitSize (descFmt k.d0)) (sideLayouts k.d0 (sdev = 1) false (ls = 1)).2
    | .cpym .. =>
      let rs := ((List.range 4).filter fun i => (descMcast k.d0).getLsbD i).map fun i => quadMate own (BitVec.ofNat 2 i)
      ((k.ahead (descProduct k.d0)).map fun p =>
        rs.map fun t => (t, spadAddr (nestPoint k.d0 p).t % 0x200000, unitSize (descFmt k.d0), descLayout k.d0)).flatten
    | .cpyq _ _ _ _ sdev ddev ls => if ddev = 1 then [] else k.quantAhead own (sideLayouts k.d0 (sdev = 1) false (ls = 1)).2
    | .cpyx _ _ _ _ _ ddev =>
      if ddev = 1 then []
      else ((k.ahead (descProduct k.d0)).map fun c => spadSpan own (row c) (if descDec k.d0 = 1 then 4096 else 1024) (descLayout k.d0)).flatten
    | .gath _ _ _ _ w p =>
      let grans := (gathPart (32 * (w.toNat + 1)) p).2 / 32
      ((k.ahead (descCount k.d0 0 * grans)).map fun i => spadSpan own (row (i / grans) + 32 * (i % grans : Nat)) 32 (descLayout k.d0)).flatten
    | .drain _ _ _ _ _ cv => pts (if cv = 0 then 4 else if cv = 1 || cv = 2 then 2 else 1) (descLayout k.d0)
    | .lrecv .. => if k.progress = 0 then received 0 else []
    | .lrxadd .. => received (k.progress - 1)
    | _ => []
  k.pend.map (fun b => (b.1, b.2.1, 1, 0)) ++ (if k.done then [] else next)

/-- Whether a command of tile `own` may still write bank `b` of the scratchpad of tile `t`, whose bank key is `key` (R190). -/
def Cmd.mayWrite (k : Cmd) (own t : BitVec 7) (key : BitVec 32) (b : Nat) : Bool :=
  (k.toWrite own).any fun w => w.1 = t && (spadLines w.2.1 w.2.2.1 w.2.2.2).any fun p => spadBank p key = b

/-- The commands that may write a tile's scratchpad: those queued in its quad, with their tiles. -/
def State.quadCmds (s : State) (t : BitVec 7) : List (BitVec 7 × Cmd) :=
  ([0#2, 1#2, 2#2, 3#2].map fun m => let p := quadMate t m; ((s.coreAt p).q0 ++ (s.coreAt p).q1).map fun k => (p, k)).flatten

/-- May-alias: an engine command already queued against a bank of a tile that the access touches has not yet written it, be it a command of
that tile or one of a quad mate that writes through a window (R190); one queued since the access began to wait is not covered (R250). DEDUCED: log 129. -/
def State.aliasHeld (s : State) (tile : BitVec 7) (a n l : Nat) : Bool :=
  let key := (s.coreAt tile).ckey
  let covered := fun (k : BitVec 7 × Cmd) => match s.ctx.queued with | some l => l.contains (k.1, k.2.id) | none => true
  (spadLines a n l).any fun p => (s.quadCmds tile).any fun k => covered k && k.2.mayWrite k.1 tile key (spadBank p key)

end Sys2Proof.Machine
end

