-- ==== Sys2Proof/Machine/Mem.lean ====
section
/-!
DEFINITION. Loads, stores, gathers, scatters and vector atomics of the S and V slots (R187 to R196).
-/
namespace Sys2Proof.Machine

/-! ## Scratchpad accesses (R190, R193) -/

/-- A scratchpad access of `n` bytes at `va`: alignment, range, window and may-alias checks, bank claims; then `kl` for the local
scratchpad or `kw` for a window (R187, R188, R190). DEDUCED: log 29. -/
def State.spadAccess (s : State) (va : Word) (n align l : Nat) (ma : Bool) (kl : Nat → State → State)
    (kw : BitVec 2 → Nat → State → State) : State :=
  if va.toNat % align ≠ 0 then s.raise .align va 0
  else
    match spadLoc va.toNat n with
    | .outside => s.raise .spadRange va 0
    | .local_ a =>
      if ma && s.aliasHeld s.coreTile a n l then s.holdFor (.wait false) else kl a (s.claim s.coreTile a n l)
    | .window m off =>
      match s.windowTrap m with
      | some c => s.raise c va 0
      | none =>
        let p := quadMate s.coreTile m
        if ma && s.aliasHeld p off n l then s.holdFor (.wait false) else kw m off (s.claim p off n l)

/-- A value of `8 n` bits, sign- or zero-extended (R190). -/
def extendLoad (n : Nat) (sx : Bool) (x : Nat) : Word :=
  if sx then BitVec.ofInt 64 (intOf (8 * n) true x) else BitVec.ofNat 64 x

/-- Poisoned scratchpad data raises DATA_UE at the consuming bundle (R380). -/
def State.spadRead (s : State) (a n : Nat) (k : State → State) : State :=
  if s.core.spadPoisoned a n then s.raise .dataUe 0 0 else k s

/-- Whether one of the lines that a row access at `a` under a layout reads is poisoned (R193, R380). -/
def Core.rowPoisoned (c : Core) (a l : Nat) : Bool := (spadLines a 256 l).any fun p => c.spadPoisoned p 1

/-- Poisoned lines of a row raise DATA_UE. -/
def State.lineRead (s : State) (a l : Nat) (k : State → State) : State := if s.core.rowPoisoned a l then s.raise .dataUe 0 0 else k s

/-- LDS (R190). -/
def execLds (g : Guard) (d a : BitVec 6) (m : BitVec 1) (z : BitVec 2) (e : BitVec 1) (s : State) : Result :=
  s.guarded g fun s =>
    let n := 2 ^ z.toNat
    s.spadAccess (s.sreg a) n n 0 (m = 1)
      (fun x s => s.spadRead x n fun s => s.setS d (extendLoad n (e = 1) (Memory.readLE s.core.spad x n)))
      (fun w off s =>
        s.send { s.request (.winLoad n (e = 1)) 0 with va := s.sreg a, dst := d, x := w.setWidth 64, pa := BitVec.ofNat 45 off })

/-- STS (R190). -/
def execSts (g : Guard) (d a : BitVec 6) (m : BitVec 1) (z : BitVec 2) (s : State) : Result :=
  s.guarded g fun s =>
    let n := 2 ^ z.toNat
    s.spadAccess (s.sreg a) n n 0 (m = 1)
      (fun x s => s.mapCore fun c => c.spadWrite x (bytesOf (s.sreg d) n))
      (fun w off s =>
        s.send { s.request .winStore 0 with
          va := s.sreg a, x := w.setWidth 64, pa := BitVec.ofNat 45 off, bits := (s.sreg d).setWidth 2048,
          mask := BitVec.ofNat 256 (2 ^ n - 1) })

/-- The bytes of a register loaded under a tag: bits 7 and 6 of every byte are zero for T6 (R193). -/
def loadedV (t : BitVec 4) (bits : VBits) : VReg := ⟨cleanBits t bits, t⟩

/-- VLD (R193). -/
def execVld (g : Guard) (v : BitVec 5) (a : BitVec 6) (f : BitVec 4) (m : BitVec 1) (l : BitVec 3) (s : State) : Result :=
  s.mainSlot g fun s =>
    s.spadAccess (s.sreg a) 256 64 l.toNat (m = 1)
      (fun x s => s.lineRead x l.toNat fun s => s.setV v (loadedV f (ofBytes 2048 (s.core.spadRow x l.toNat))))
      (fun w off s =>
        s.send { s.request (.winVLoad f l) 0 with va := s.sreg a, dst := v.setWidth 6, x := w.setWidth 64, pa := BitVec.ofNat 45 off })

/-- VST: each byte whose mask bit is set (R193). -/
def execVst (g : Guard) (v : BitVec 5) (a : BitVec 6) (k : BitVec 3) (m : BitVec 1) (l : BitVec 3) (s : State) : Result :=
  s.mainSlot g fun s =>
    s.spadAccess (s.sreg a) 256 64 l.toNat (m = 1)
      (fun x s => s.mapCore fun c => c.spadRowWrite x l.toNat (s.vreg v).bits (s.lmask k))
      (fun w off s =>
        s.send { s.request .winStore 0 with
          va := s.sreg a, x := w.setWidth 64, y := l.setWidth 64, pa := BitVec.ofNat 45 off, bits := (s.vreg v).bits, mask := s.lmask k })

/-! ## Device accesses (R191, R193) -/

/-- A device load of `n` bytes into the register `dst`, counted on the counter of its class. On an SC page it is irrevocable. The bytes that
the context's own entries forward are taken at issue. DESIGN CHOICE: log 106. -/
def State.deviceLoad (s : State) (unit : BitVec 3) (va : Word) (n align : Nat) (q : BitVec 4) (kind : ReqKind) (dst : BitVec 6) :
    State :=
  s.device unit va n align .load fun sc s =>
    let go := fun (s : State) =>
      let ps := s.pieces va.toNat n
      let (bits, mask) := s.forward sc ps n
      s.send { s.request kind q with
        dc := some (dcOf q), va := va, dst := dst, bits := bits, mask := mask, pas := ps.map fun p => (p.1, p.2), irrev := sc, sc := sc,
        pages := s.piecePages va.toNat n }
    if sc then s.irrevocable go else go s

/-- A device store of the bytes of `bits` that `mask` marks: withheld, or on an SC page irrevocable. -/
def State.deviceStore (s : State) (unit : BitVec 3) (va : Word) (n align : Nat) (q : BitVec 4) (bits : VBits) (mask : BitVec 256) :
    State :=
  s.device unit va n align .store fun sc s =>
    let ps := s.pieces va.toNat n
    if sc then s.irrevocable fun s =>
      s.send { s.request .store q with va := va, bits := bits, mask := mask, pas := ps.map fun p => (p.1, p.2), irrev := true, sc := true }
    else s.withhold va.toNat ps q bits mask n

/-- The unit number of a V slot in issue: 2 for V0 and 3 for V1 (R342). -/
def State.vunit (s : State) : BitVec 3 := if s.core.cur.slot = 4 then 3 else 2

/-- LDG (R191). -/
def execLdg (g : Guard) (d a : BitVec 6) (q : BitVec 4) (z : BitVec 2) (e : BitVec 1) (s : State) : Result :=
  s.guarded g fun s => s.deviceLoad 0 (s.sreg a) (2 ^ z.toNat) (2 ^ z.toNat) q (.load (2 ^ z.toNat) (e = 1)) d

/-- STG (R191). -/
def execStg (g : Guard) (d a : BitVec 6) (q : BitVec 4) (z : BitVec 2) (s : State) : Result :=
  s.guarded g fun s =>
    s.deviceStore 0 (s.sreg a) (2 ^ z.toNat) (2 ^ z.toNat) q ((s.sreg d).setWidth 2048) (BitVec.ofNat 256 (2 ^ 2 ^ z.toNat - 1))

/-- VLDG (R193). -/
def execVldg (g : Guard) (v : BitVec 5) (a : BitVec 6) (f q : BitVec 4) (s : State) : Result :=
  s.mainSlot g fun s => s.deviceLoad s.vunit (s.sreg a) 256 64 q (.vload f) (v.setWidth 6)

/-- VSTG (R193). -/
def execVstg (g : Guard) (v : BitVec 5) (a : BitVec 6) (k : BitVec 3) (q : BitVec 4) (s : State) : Result :=
  s.mainSlot g fun s => s.deviceStore s.vunit (s.sreg a) 256 64 q (s.vreg v).bits (s.lmask k)

/-! ## Indexed accesses (R195, R196) -/

/-- The addresses of the active elements of an indexed access, in increasing order (R195). -/
def elemAddrs (base : Word) (t : BitVec 4) (x : VReg) (act : Nat → Bool) : List (Nat × BitVec 64) :=
  ((List.range (tagN t)).filter act).map fun i => (i, base + BitVec.ofNat 64 (field x.bits (i * tagW t) (tagW t) * (tagW t / 8)))

/-- The tag rule of VGATH and VSCAT (R195). -/
def indexTags (t x : BitVec 4) : Bool :=
  t ≠ tagI4 && t ≠ tagRAW && ((classI x && tagW x = tagW t) || (x = tagRAW && tagW t = 8))

/-- The first trap among the elements of a scratchpad gather or scatter, with its address (R187, R188). -/
def State.elemTrap (s : State) (n : Nat) (l : List (Nat × BitVec 64)) : Option (Cause × BitVec 64) :=
  l.findSome? fun e =>
    if e.2.toNat % n ≠ 0 then some (.align, e.2)
    else match spadLoc e.2.toNat n with
      | .outside => some (.spadRange, e.2)
      | .local_ _ => none
      | .window m _ => (s.windowTrap m).map fun c => (c, e.2)

/-- Claims the bank of an element of a scratchpad gather or scatter. -/
def State.claimElem (s : State) (n : Nat) (e : Nat × BitVec 64) : State :=
  match spadLoc e.2.toNat n with
  | .local_ a => s.claim s.coreTile a n 0
  | .window m off => s.claim (quadMate s.coreTile m) off n 0
  | .outside => s

/-- Whether an element lies in a window. -/
def elemWindow (n : Nat) (e : Nat × BitVec 64) : Bool := match spadLoc e.2.toNat n with | .window _ _ => true | _ => false

/-- VGATH from scratchpad: local elements are read at issue and elements in windows at their peers (R195). -/
def execVgath (g : Guard) (v x : BitVec 5) (a : BitVec 6) (k : BitVec 2) (s : State) : Result :=
  s.mainSlot g fun s =>
    let d := s.vreg v
    let t := d.tag
    let n := tagW t / 8
    let es := elemAddrs (s.sreg a) t (s.vreg x) fun i => active (s.lmask (k.setWidth 3)) (tagW t) i
    s.tagCheck (indexTags t (s.vreg x).tag) fun s =>
    match s.elemTrap n es with
    | some (c, va) => s.raise c va 0
    | none =>
      if es.any fun e => s.core.spadPoisoned e.2.toNat n then s.raise .dataUe 0 0
      else
        let s := es.foldl (fun (s : State) e => s.claimElem n e) s
        let s := s.vmap v t false (fun i => es.any fun e => e.1 = i && !elemWindow n e) fun i _ =>
          match es.find? fun e => e.1 = i with
          | some e => (Memory.readLE s.core.spad e.2.toNat n, 0)
          | none => (0, 0)
        if es.any (elemWindow n) then
          s.send { s.request (.gather t) 0 with dst := v.setWidth 6, addrs := es.filter (elemWindow n), x := 1 }
        else s

/-- VSCAT to scratchpad: elements apply in increasing order (R195). -/
def execVscat (g : Guard) (v x : BitVec 5) (a : BitVec 6) (k : BitVec 2) (s : State) : Result :=
  s.mainSlot g fun s =>
    let d := s.vreg v
    let t := d.tag
    let n := tagW t / 8
    let es := elemAddrs (s.sreg a) t (s.vreg x) fun i => active (s.lmask (k.setWidth 3)) (tagW t) i
    s.tagCheck (indexTags t (s.vreg x).tag) fun s =>
    match s.elemTrap n es with
    | some (c, va) => s.raise c va 0
    | none =>
      let s := es.foldl (fun (s : State) e => s.claimElem n e) s
      es.foldl (fun (s : State) e =>
        let bs := leBytes n (d.code e.1)
        match spadLoc e.2.toNat n with
        | .local_ p => s.mapCore fun c => c.spadWrite p bs
        | .window m off =>
          s.send { s.request .winStore 0 with
            va := e.2, x := m.setWidth 64, pa := BitVec.ofNat 45 off, bits := ofBytes 2048 bs, mask := BitVec.ofNat 256 (2 ^ n - 1) }
        | .outside => s) s

/-- The elements of a device access that are already translated, in order, up to the first that is not. -/
def State.translateElems (s : State) (l : List (Nat × BitVec 64)) : List (Nat × BitVec 45) :=
  (l.map fun e => (e.1, s.physOf e.2.toNat)).takeWhile (·.2.isSome) |>.filterMap fun e => e.2.map fun p => (e.1, BitVec.ofNat 45 p.1)

/-- The pages of the elements that are already translated, up to the first that is not (R189, R339). -/
def State.elemPages (s : State) (l : List (Nat × BitVec 64)) : List PageUse :=
  (l.map fun e => s.tlb false s.core.asid e.2.toNat).takeWhile (·.isSome) |>.filterMap fun t => t.map TlbEntry.use

/-- The first trap of the elements of a device access: alignment of each (R188), then the attributes of the pages that are
translated, up to the first element that is not (R189). -/
def State.deviceElemTrap (s : State) (n : Nat) (acc : Access) (l : List (Nat × BitVec 64)) : Option (Cause × BitVec 64) :=
  match l.find? fun e => e.2.toNat % n ≠ 0 with
  | some e => some (.align, e.2)
  | none =>
    (l.takeWhile fun e => (s.physOf e.2.toNat).isSome).findSome? fun e =>
      match s.physOf e.2.toNat with
      | some (_, leaf) => (attrTrap leaf acc).map fun c => (c, e.2)
      | none => none

/-- Whether an element lies on a page with SC. -/
def State.elemSC (s : State) (l : List (Nat × BitVec 64)) : Bool :=
  l.any fun e => match s.physOf e.2.toNat with | some (_, leaf) => leafSC leaf | none => false

/-- VGATH.g: a load of class 0 counted once on dc0; its elements are translated in order and it parks at a fault (R195). -/
def execVgathG (g : Guard) (v x : BitVec 5) (a : BitVec 6) (k : BitVec 2) (s : State) : Result :=
  s.mainSlot g fun s =>
    let t := (s.vreg v).tag
    let n := tagW t / 8
    let es := elemAddrs (s.sreg a) t (s.vreg x) fun i => active (s.lmask (k.setWidth 3)) (tagW t) i
    s.tagCheck (indexTags t (s.vreg x).tag) fun s =>
    match s.deviceElemTrap n .load es with
    | some (c, va) => s.raise c va 0
    | none =>
      if s.accessHeld then s.holdFor .order
      else
        s.send { s.request (.gather t) 0 with
          dc := some 0, dst := v.setWidth 6, addrs := es, pas := s.translateElems es, pages := s.elemPages es, fwd := s.entriesSeen, sc := s.elemSC es }

/-- VSCAT.g: withheld in element order when every element is translated and none lies on an SC page; else it goes on as a request
(R195). -/
def execVscatG (g : Guard) (v x : BitVec 5) (a : BitVec 6) (k : BitVec 2) (s : State) : Result :=
  s.mainSlot g fun s =>
    let d := s.vreg v
    let t := d.tag
    let n := tagW t / 8
    let es := elemAddrs (s.sreg a) t (s.vreg x) fun i => active (s.lmask (k.setWidth 3)) (tagW t) i
    s.tagCheck (indexTags t (s.vreg x).tag) fun s =>
    match s.deviceElemTrap n .store es with
    | some (c, va) => s.raise c va 0
    | none =>
      if s.accessHeld then s.holdFor .order
      else
        let ps := s.translateElems es
        if ps.length = es.length && !s.elemSC es then
          (es.zip ps).foldl (fun (s : State) e => s.mapCtx fun c =>
            c.withhold s.core.asid (BitVec.ofNat 36 (e.1.2.toNat / 65536)) 0 e.2.2.toNat ((leBytes n (d.code e.1.1)).zipIdx.map fun b => (b.2, b.1))) s
        else
          s.send { s.request (.scatter t) 0 with bits := d.bits, addrs := es, pas := ps, pages := s.elemPages es, sc := s.elemSC es }

/-- VATOM: irrevocable, class 0; elements apply one by one (R196). -/
def execVatom (g : Guard) (v x : BitVec 5) (a : BitVec 6) (p : BitVec 3) (s : State) : Result :=
  s.mainSlot g fun s =>
    let d := s.vreg v
    let t := d.tag
    let n := tagW t / 8
    let es := elemAddrs (s.sreg a) t (s.vreg x) fun _ => true
    s.tagCheck ((t = tagI32 || t = tagI64) && classI (s.vreg x).tag && tagW (s.vreg x).tag = tagW t) fun s =>
    match s.deviceElemTrap n .atom es with
    | some (c, va) => s.raise c va 0
    | none =>
      if s.accessHeld then s.holdFor .order
      else s.irrevocable fun s =>
        s.send { s.request (.vatom p t) 0 with dst := v.setWidth 6, bits := d.bits, addrs := es, irrev := true, sc := s.elemSC es }

end Sys2Proof.Machine
end

