-- ==== Sys2Proof/Machine/Sync.lean ====
section
/-!
DEFINITION. The D slot: waits and marks (R197), fences (R200), atomics (R201), once-cell instructions (R203), barriers (R205 to
R207), queues and launches (R208 to R210), and digest instructions (R239 to R246).
-/
namespace Sys2Proof.Machine

/-! ## Counters and marks (R197) -/

/-- WAITDC. -/
def execWaitdc (g : Guard) (c : BitVec 3) (v : BitVec 12) (s : State) : Result :=
  s.guarded g fun s => if (s.core.cur.pre.dc.read c).toNat ≤ v.toNat || v.toNat ≥ 2048 then s else s.holdFor (.wait true)

/-- The valid marks of a mark set (R33). -/
def marksOf (ms : BitVec 21) : List (BitVec 6) :=
  ((List.range 3).filter fun i => ms.getLsbD (18 + i)).map fun i => ms.extractLsb' (6 * i) 6

/-- The commands in flight that produce a mark. -/
def Core.producers (c : Core) (m : BitVec 6) : List Cmd := (c.q0 ++ c.q1).filter fun k => k.mark = m

/-- Whether a pending mark is pending only on gated commands of context `n` (R214). -/
def Core.onlyGated (c : Core) (n : BitVec 2) (m : BitVec 6) : Bool :=
  let ks := (c.producers m).filter fun k => k.ctx = n && k.gated
  ks.length = c.sh.mpend.read m && !ks.isEmpty

/-- Waits until one of the marks is ready; when every pending one is pending only on gated commands of the context, a checkpoint
comes first (R197, R214). -/
def State.waitMarks (s : State) (ms : List (BitVec 6)) : State :=
  let r := s.core.cur.preSh
  if ms.isEmpty || ms.any (fun m => r.mready.getLsbD m.toNat) then s
  else
    let pend := ms.filter fun m => r.mpend.read m ≠ 0
    if !pend.isEmpty && pend.all (fun m => s.core.onlyGated s.core.cur.ctx m) && !s.ctx.ckDone then
      s.needCk .gatedWait
    else s.holdFor (.wait true)

/-- WAITM. -/
def execWaitm (g : Guard) (k : BitVec 6) (s : State) : Result := s.guarded g fun s => s.waitMarks [k]

/-- WAITANY. -/
def execWaitany (g : Guard) (j : BitVec 4) (s : State) : Result := s.guarded g fun s => s.waitMarks (marksOf (s.mset j))

/-- FFRM: the lowest ready mark of the set, or 64. -/
def execFfrm (g : Guard) (d : BitVec 6) (j : BitVec 4) (s : State) : Result :=
  s.guarded g fun s =>
    let ready := (marksOf (s.mset j)).filter fun m => s.core.cur.preSh.mready.getLsbD m.toNat
    s.setS d (BitVec.ofNat 64 (ready.foldl (fun n m => min n m.toNat) 64))

/-- Notes marks that a tail has written (R288). -/
def State.noteMarks (s : State) (bits : BitVec 64) : State :=
  if s.core.cur.ctx = 0 then s else s.mapCore fun c => { c with tailMarks := c.tailMarks ||| bits }

/-- The bits of a list of marks. -/
def markBits (ms : List (BitVec 6)) : BitVec 64 := ms.foldl (fun (b : BitVec 64) m => b ||| BitVec.ofNat 64 (2 ^ m.toNat)) 0

/-- Clears the bits of marks; pending commands go on (R197). -/
def State.clearMarks (s : State) (ms : List (BitVec 6)) : State :=
  let off := ~~~(markBits ms)
  (s.mapSh fun r => { r with mready := r.mready &&& off, mstale := r.mstale &&& off, merr := r.merr &&& off }).noteMarks (markBits ms)

/-- MCLR mK. -/
def execMclr (g : Guard) (k : BitVec 6) (s : State) : Result := s.guarded g fun s => s.clearMarks [k]

/-- MCLR msJ. -/
def execMclrSet (g : Guard) (j : BitVec 4) (s : State) : Result := s.guarded g fun s => s.clearMarks (marksOf (s.mset j))

/-! ## Fences (R200, R252, R255) -/

/-- Whether a request is a device access of its context's program order; a KVAPP acts after its release, as an engine does. -/
def Req.isDevice (r : Req) : Bool :=
  match r.kind with
  | .winLoad _ _ => false
  | .winVLoad _ _ => false
  | .winStore => false
  | .barrier => false
  | .trigger => false
  | .wstat => false
  | .gather _ => r.x = 0
  | .kvapp _ => false
  | _ => true

/-- Whether a request is an earlier device access, of a class in the mask, that has not performed. -/
def Req.inMask (r : Req) (n : BitVec 2) (mask : BitVec 16) : Bool :=
  r.ctx = n && r.isDevice && r.result.isNone && mask.getLsbD r.cls.toNat

/-- Whether accesses before a fence of scope `core` of context `n` have still to perform: requests, and stores that checkpoints have
released (R255). -/
def Core.fenceOpen (c : Core) (n : BitVec 2) (f : CoreFence) : Bool :=
  (c.reqs.any fun r => r.id < f.next && r.inMask n f.mask) ||
    (c.ctx n).released.any fun e => e.phase < f.phase && f.mask.getLsbD e.cls.toNat

/-- The fence of scope `core` with mask `m` that context `n` has reached. -/
def Core.fenceHere (c : Core) (n : BitVec 2) (m : BitVec 16) : CoreFence :=
  ⟨m, c.nextId, (c.ctx n).phase, c.main.storeSeq, c.tail0.storeSeq, c.tail1.storeSeq⟩

/-- Whether context `n` stored an entry, or stored to it again, after a fence. -/
def CoreFence.precedes (f : CoreFence) (n : BitVec 2) (e : HEntry) : Bool :=
  decide ((if n = 0 then f.seq0 else if n = 1 then f.seq1 else f.seq2) ≤ e.seq)

/-- Whether a gather or scatter with an element on an SC page has still to take its first checkpoint (R195). -/
def Req.scWaits (r : Req) : Bool :=
  r.sc && !r.irrev && (match r.kind with | .gather _ => r.x = 0 | .scatter _ => true | _ => false)

/-- Whether an indexed access has elements that have not left the core: they are not translated, or wait for a checkpoint (R195, R196,
R255). -/
def State.staysBack (s : State) (r : Req) : Bool :=
  match r.kind with
  | .scatter _ => !r.irrev
  | .gather _ => r.x = 0 && (r.pas.length < r.addrs.length || r.scWaits)
  | .vatom _ _ => s.vatomOpen r
  | _ => false

/-- CFENCE: one of scope `core` completes once the earlier accesses of its classes have left the core, and what comes later keeps its
order; a wider one holds the context until they have performed, and its window stores at their peers. Withheld stores are ordered by their
release. Of the fence's own bundle, the requests of the S and V slots count as earlier for scope `core` and not for a wider one. DESIGN
CHOICE: log 104. -/
def execCfence (g : Guard) (m : BitVec 16) (sc : BitVec 3) (s : State) : Result :=
  s.guarded g fun s =>
    let n := s.core.cur.ctx
    let reqs := s.core.reqs.filter fun r => r.inMask n m && r.id < s.core.cur.firstId
    let stores := s.ctx.released.any fun e => m.getLsbD e.cls.toNat
    let wins := s.core.reqs.any fun r => r.ctx = n && r.id < s.core.cur.firstId && (match r.kind with | .winStore => true | _ => false)
    let note := fun (s : State) => s.mapCtx fun x => { x with fences := x.fences ++ [m] }
    if sc = 1 then
      if reqs.any s.staysBack then s.holdFor .order
      else (note s).mapCtx fun x =>
        { x with coreFences := (x.coreFences ++ [s.core.fenceHere n m]).filter (s.core.fenceOpen n) }
    else if reqs.isEmpty && !stores && !wins then note s
    else s.holdFor .order

/-- Whether device access or command number `id` of the core waits for a fence of scope `core` of any of the core's contexts: it follows the
fence's earlier accesses on their path, whatever its class, and cannot overtake them (R200, R255). -/
def Core.behindFence (c : Core) (id : Nat) : Bool :=
  [0#2, 1#2, 2#2].any fun n => (c.ctx n).coreFences.any fun f => f.next ≤ id && c.fenceOpen n f

/-! ## Atomics (R201) -/

/-- ATOM of operation `op`: an irrevocable device access of the doubleword at `sA`. -/
def State.atom (s : State) (op : BitVec 4) (d a : BitVec 6) (q : BitVec 4) : State :=
  let va := s.sreg a
  s.device 1 va 8 8 .atom fun sc s => s.irrevocable fun s =>
    s.send { s.request (.atom op) q with
      dc := some (dcOf q), va := va, dst := d, x := s.sreg d, y := s.sreg (d + 1),
      pas := (s.pieces va.toNat 8).map fun p => (p.1, p.2), irrev := true, sc := sc }

def execAtomAdd (g : Guard) (d a : BitVec 6) (q : BitVec 4) (_c : BitVec 3) (s : State) : Result := s.guarded g (·.atom 0 d a q)
def execAtomMin (g : Guard) (d a : BitVec 6) (q : BitVec 4) (_c : BitVec 3) (s : State) : Result := s.guarded g (·.atom 1 d a q)
def execAtomMax (g : Guard) (d a : BitVec 6) (q : BitVec 4) (_c : BitVec 3) (s : State) : Result := s.guarded g (·.atom 2 d a q)
def execAtomMinz (g : Guard) (d a : BitVec 6) (q : BitVec 4) (_c : BitVec 3) (s : State) : Result := s.guarded g (·.atom 3 d a q)
def execAtomMaxz (g : Guard) (d a : BitVec 6) (q : BitVec 4) (_c : BitVec 3) (s : State) : Result := s.guarded g (·.atom 4 d a q)
def execAtomAnd (g : Guard) (d a : BitVec 6) (q : BitVec 4) (_c : BitVec 3) (s : State) : Result := s.guarded g (·.atom 5 d a q)
def execAtomOr (g : Guard) (d a : BitVec 6) (q : BitVec 4) (_c : BitVec 3) (s : State) : Result := s.guarded g (·.atom 6 d a q)
def execAtomXor (g : Guard) (d a : BitVec 6) (q : BitVec 4) (_c : BitVec 3) (s : State) : Result := s.guarded g (·.atom 7 d a q)
def execAtomXchg (g : Guard) (d a : BitVec 6) (q : BitVec 4) (_c : BitVec 3) (s : State) : Result := s.guarded g (·.atom 8 d a q)
def execAtomCas (g : Guard) (d a : BitVec 6) (q : BitVec 4) (_c : BitVec 3) (s : State) : Result := s.guarded g (·.atom 9 d a q)

/-- The new value of the `w`-bit location under an atomic operation (R196, R201). -/
def atomNew (op w old x y : Nat) : Nat :=
  let lt := intOf w true old < intOf w true x
  match op with
  | 0 => (old + x) % 2 ^ w
  | 1 => if lt then old else x
  | 2 => if lt then x else old
  | 3 => min old x
  | 4 => max old x
  | 5 => old &&& x
  | 6 => old ||| x
  | 7 => old ^^^ x
  | 8 => x
  | _ => if old = x then y else old

/-! ## Once-cell instructions (R203, R364) -/

/-- The cell of an address: VA[51:5] (R360). -/
def cellOf (va : Word) : BitVec 47 := va.extractLsb' 5 47

/-- A request of a once-cell instruction: 0 PROPOSE, 1 OCREAD, 2 OCRECYCLE; x the proposed value, y the generation. -/
def State.sendOnce (s : State) (op : BitVec 2) (d : BitVec 6) (va : Word) (q : BitVec 4) (sc irrev : Bool) : State :=
  s.send { s.request (.once op) q with
    dc := some (dcOf q), va := va, dst := d, x := s.sreg d, y := (s.sreg (d + 1)) &&& 0xFFFFFFFF#64,
    pas := (s.pieces va.toNat 32).map fun p => (p.1, p.2), irrev := irrev, sc := sc }

def State.onceInstr (s : State) (op : BitVec 2) (d a : BitVec 6) (q : BitVec 4) : State :=
  let va := s.sreg a
  s.device 1 va 32 32 .once fun sc s => s.irrevocable fun s => s.sendOnce op d va q sc true

/-- PROPOSE. -/
def execPropose (g : Guard) (d a : BitVec 6) (q : BitVec 4) (_c : BitVec 3) (s : State) : Result := s.guarded g (·.onceInstr 0 d a q)

/-- OCRECYCLE. -/
def execOcrecycle (g : Guard) (d a : BitVec 6) (q : BitVec 4) (_c : BitVec 3) (s : State) : Result := s.guarded g (·.onceInstr 2 d a q)

/-- The status word of R203. -/
def onceStatus (gen : BitVec 32) (wctx : BitVec 2) (wtile : BitVec 13) (status : BitVec 3) : Word :=
  gen ++ wctx ++ 0#13 ++ wtile ++ 0#1 ++ status

/-- OCREAD: a hit in the once-cache answers 6 cycles after issue and touches no counter (R360); on an SC page one that misses is
irrevocable, and one that hits makes no access and takes no checkpoint. DESIGN CHOICE: log 105. -/
def execOcread (g : Guard) (d a : BitVec 6) (q : BitVec 4) (_c : BitVec 3) (s : State) : Result :=
  s.guarded g fun s =>
    let va := s.sreg a
    let gen := (s.sreg (d + 1)).setWidth 32
    s.device 1 va 32 32 .once fun sc s =>
      match s.core.once.find? fun e => e.asid = s.core.asid && e.cell = cellOf va && e.gen = gen with
      | some e =>
        ((((s.setS d e.value).setS (d + 1) (onceStatus gen e.wctx e.wtile 5)).readyIn (.s d) 6).readyIn (.s (d + 1)) 6).mapCore fun c =>
          { c with once := (c.once.filter fun f => f ≠ e) ++ [e] }
      | none => if sc then s.irrevocable fun s => s.sendOnce 1 d va q true true else s.sendOnce 1 d va q false false

/-! ## Barriers (R205 to R207) -/

/-- The gang of an identifier that has members on tiles: a saved team whose identifier was given out again has none. -/
def State.liveGang (s : State) (id : BitVec 16) : Option Gang :=
  s.gangs.find? fun g => g.gang = id && g.tiles.any fun t => !g.gone.contains t

/-- The member's arrivals, with those on their way. -/
def State.myArrivals (s : State) (scope : BitVec 3) (id : BitVec 4) : Nat :=
  (s.myBarrier scope id).count s.coreTile +
    (s.core.reqs.filter fun r => (match r.kind with | .barrier => true | _ => false) &&
      r.x = id.setWidth 64 && r.y = scope.setWidth 64).length

/-- A quad barrier of a team that is not bound quad-aligned takes PROT (R205). -/
def State.quadBarrier (s : State) (scope : BitVec 3) (k : State → State) : State :=
  if scope = 2 && !bindQalign (s.bind s.coreTile) then s.raise .prot 0 0 else k s

/-- Whether a member of the gang of the focused core is still to be restored (R349). -/
def State.restoring (s : State) : Bool :=
  match s.gangOf s.coreTile with
  | some g => g.tiles.any fun t => bindState (s.bind t) = 2 && bindResume (s.bind t) ≠ 0 && !(s.coreAt t).bound
  | none => false

/-- The arrival of BARA and BAR: a further one holds while the member is a phase ahead (R205); it follows every device access of earlier bundles
(R206). -/
def State.arrive (s : State) (scope : BitVec 3) (id : BitVec 4) (k : State → State) : State :=
  s.quadBarrier scope fun s =>
    if s.restoring || s.orderHeld || s.myArrivals scope id ≥ (s.myBarrier scope id).phase + 2 then s.holdFor .order
    else s.irrevocable fun s =>
      k (s.send { s.request .barrier 0 with x := id.setWidth 64, y := scope.setWidth 64, irrev := true })

/-- The wait of BARW and BAR: it completes with the phase of the member's last arrival, and writes pd false when that phase was
poisoned (R205, R207). -/
def State.barWait (s : State) (p : BitVec 6) (id : BitVec 4) (scope : BitVec 3) : State :=
  s.quadBarrier scope fun s =>
    let b := s.myBarrier scope id
    let need := s.myArrivals scope id
    if s.restoring || b.phase < need then s.holdFor (.wait true)
    else s.setP p (need = 0 || (match b.poisoned with | some k => decide (need ≤ k) | none => true))

/-- BARA. -/
def execBara (g : Guard) (i : BitVec 4) (sc : BitVec 3) (s : State) : Result := s.guarded g fun s => s.arrive sc i id

/-- BARW. -/
def execBarw (g : Guard) (p : BitVec 6) (i : BitVec 4) (sc : BitVec 3) (s : State) : Result := s.guarded g fun s => s.barWait p i sc

/-- BAR: its arrival, and then its BARW part, which the bundle issues again alone (R199). -/
def execBar (g : Guard) (p : BitVec 6) (i : BitVec 4) (sc : BitVec 3) (s : State) : Result :=
  if s.ctx.barwOnly then .next (s.barWait p i sc)
  else s.guarded g fun s => s.arrive sc i fun s => s.mapCtx fun x => { x with barwOnly := true, barWaiting := true }

/-! ## Queues and launches (R208 to R210) -/

/-- POPW: irrevocable. -/
def execPopw (g : Guard) (d a : BitVec 6) (s : State) : Result :=
  s.guarded g fun s =>
    let va := s.sreg a
    s.device 1 va 64 64 .queue fun sc s => s.irrevocable fun s =>
      s.send { s.request (.pop false) 0 with va := va, dst := d, y := s.core.asid.setWidth 64, pas := (s.pieces va.toNat 64).map fun p => (p.1, p.2), irrev := true, sc := sc }

/-- POPW.b: it goes out, irrevocably, only when its home takes an item for it or answers CLOSED (R199). -/
def execPopwB (g : Guard) (d a : BitVec 6) (s : State) : Result :=
  s.guarded g fun s =>
    let va := s.sreg a
    s.device 1 va 64 64 .queue fun sc s =>
      if s.irrevPending then s.holdFor .order
      else if s.ctx.ckDone then
        s.send { s.request (.pop true) 0 with va := va, dst := d, y := s.core.asid.setWidth 64, pas := (s.pieces va.toNat 64).map fun p => (p.1, p.2), sc := sc }
      else s.needCk .irrevBefore

/-- PUSHW and PUSHW.c. -/
def State.pushw (s : State) (close : Bool) (d a : BitVec 6) : State :=
  let va := s.sreg a
  s.device 1 va 64 64 .queue fun sc s => s.irrevocable fun s =>
    s.send { s.request (.push close) 0 with
      va := va, dst := d, x := s.sreg d, y := s.core.asid.setWidth 64, pas := (s.pieces va.toNat 64).map fun p => (p.1, p.2), irrev := true, sc := sc }

def execPushw (g : Guard) (d a : BitVec 6) (s : State) : Result := s.guarded g (·.pushw false d a)
def execPushwC (g : Guard) (d a : BitVec 6) (s : State) : Result := s.guarded g (·.pushw true d a)

/-- QPUSH. -/
def execQpush (g : Guard) (d a q : BitVec 6) (s : State) : Result :=
  s.guarded g fun s =>
    let va := s.sreg a
    s.device 1 va 128 128 .qrec fun sc s => s.irrevocable fun s =>
      s.send { s.request (.qpush q) 0 with
        va := va, dst := d, y := s.core.asid.setWidth 64, pas := (s.pieces va.toNat 128).map fun p => (p.1, p.2), irrev := true, sc := sc }

/-- Whether context `k` waits in a POPW.b, whose item no home has taken yet. -/
def Core.popOut (c : Core) (k : BitVec 2) : Bool :=
  c.reqs.any fun r => r.ctx = k && !r.discard && (match r.kind with | .pop b => b | _ => false)

/-- Whether another context of the core has still to take a checkpoint that it has reached, which a TRIGGER may have brought, or the second
one of an irrevocable operation or of a POPW.b that waits, which releases the stores of its bundle. -/
def Core.triggerOpen (c : Core) (n : BitVec 2) : Bool :=
  [0#2, 1#2, 2#2].any fun k => k ≠ n && (c.ctx k).run = .running &&
    ((c.ctx k).ck.isSome || (((c.ctx k).irrevOut || c.popOut k) && !(c.ctx k).part.isEmpty))

/-- TRIGGER: its first checkpoint is one of every context of the member, which releases the stores withheld before it (R209). DEDUCED:
log 87. -/
def execTrigger (g : Guard) (s : State) : Result :=
  s.guarded g fun s =>
    if s.irrevPending || s.orderHeld || s.core.triggerOpen s.core.cur.ctx then s.holdFor .order
    else if s.ctx.ckDone then
      (s.mapCtx fun x => { x with irrevOut := true }).send { s.request .trigger 0 with irrev := true }
    else s.needCk .trigger

/-- WSTAT: it reads no device memory and counts on dc0 (R210). -/
def execWstat (g : Guard) (d a : BitVec 6) (s : State) : Result :=
  s.guarded g fun s =>
    if 2048 ≤ s.deviceReqs then s.holdFor .order
    else s.send { s.request .wstat 0 with dc := some 0, dst := d, x := (s.sreg a) &&& 0x1FFF#64 }

/-! ## Digest instructions (R239 to R246) -/

/-- DIGQ: the bundle commits, and the command goes on and parks at a translation fault (R240, R341). -/
def execDigq (g : Guard) (d a c : BitVec 6) (s : State) : Result :=
  s.guarded g fun s =>
    let dst := (s.sreg d).toNat % 2 ^ 24
    let m : BitVec 6 := (s.sreg d).extractLsb' 24 6
    let n := c.toNat + 1
    if dst % 64 ≠ 0 then s.raise .align (BitVec.ofNat 64 dst) 0
    else if dst + 64 * n > 0x200000 then s.raise .spadRange (BitVec.ofNat 64 dst) 0
    else if s.accessHeld then s.holdFor .order
    else ((s.mapSh (·.markIssue m)).noteMarks (markBits [m])).send
      { s.request (.digq n m) 0 with va := s.sreg a, x := BitVec.ofNat 64 dst }

/-- DIGB (R241). -/
def execDigb (g : Guard) (t a : BitVec 6) (k : BitVec 5) (s : State) : Result :=
  s.guarded g fun s =>
    let va := s.sreg a
    s.device 1 va 1 1 .load fun _ s =>
      s.send { s.request (.digb k) 0 with dc := some 0, va := va, x := s.sreg t, pas := (s.pieces va.toNat 1).map fun p => (p.1, p.2) }

/-- DIGRS (R242). -/
def execDigrs (g : Guard) (d a c : BitVec 6) (s : State) : Result :=
  s.guarded g fun s =>
    let va := s.sreg a
    s.device 1 va 1 1 .load fun _ s =>
      s.send { s.request (.digrs (c.toNat + 1)) 0 with
        dc := some 0, va := va, dst := d, pas := (s.pieces va.toNat 1).map fun p => (p.1, p.2) }

/-- KVAPP: gated, so nothing of it happens before the next checkpoint of its context (R244, R246). -/
def execKvapp (g : Guard) (d a p : BitVec 6) (s : State) : Result :=
  s.guarded g fun s =>
    let va := s.sreg a
    if va.toNat % 64 ≠ 0 then s.raise .align va 0
    else if va.toNat + 64 > 0x200000 then s.raise .spadRange va 0
    else if 2048 ≤ s.deviceReqs then s.holdFor .order
    else s.send { s.request (.kvapp p) 0 with va := va, dst := d }

end Sys2Proof.Machine
end

