-- ==== Sys2Proof/Machine/Matrix.lean ====
section
/-!
DEFINITION. The M slot (R166 to R186) and the matrix engine behind it: operand streams, the matrix queue, the group arithmetic of
R57 to R60, and the commits at ready ticks (R76, R173).
-/
namespace Sys2Proof.Machine

/-! ## Ticks (R75, R169, R171) -/

/-- The pipeline tick of the next bundle: SCHED and the ticks that matrix waits ran ahead of it. DEDUCED: log 36. -/
def Core.mtick (c : Core) : Nat := c.sched.toNat + c.mOff

/-! ## Operand formats (R166, R169, R174) -/

/-- The tag of an operand format code. -/
def mTag (f : BitVec 3) : BitVec 4 :=
  match f.toNat with
  | 0 => tagT8 | 1 => tagT6 | 2 => tagI8 | 3 => tagI4 | 4 => tagBF16 | _ => tagFP16

/-- The width in the stream. -/
def mWidth (f : BitVec 3) : Nat := if f = 3 then 4 else if f.toNat < 4 then 8 else 16

/-- Integer formats. -/
def mInt (f : BitVec 3) : Bool := f = 2 || f = 3

/-- Half clocks per k-step (R169). -/
def mHalves (sparse : Bool) (a b : BitVec 3) : Nat :=
  let n := if mWidth a = 16 || mWidth b = 16 then 4 else if a = 3 && b = 3 then 1 else 2
  if sparse then n / 2 else n

/-- The pipeline depth P (R169). -/
def mDepth (a : BitVec 3) : Nat := if mInt a then 18 else 24

/-- The group size G (R57). -/
def mGroup (a b : BitVec 3) : Nat := 64 / min (mWidth a) (mWidth b)

/-! ## Entries of the matrix queue -/

def MEntry.sparse (e : MEntry) : Bool := match e.kind with | .mmas => true | _ => false

/-- The tick in which k-step `j` is processed: of two clocks of a step it takes its lines in the first, before the bundle of that tick issues
(R170). DESIGN CHOICE: log 88. -/
def MEntry.due (e : MEntry) (j : Nat) : Nat := e.start + j * mHalves e.sparse e.af e.bf / 2

/-- Stored k-steps of A that the steps through `j` need: an MMAS takes both of a group at the group's first step (R176). -/
def MEntry.aSteps (e : MEntry) (j : Nat) : Nat := if e.sparse then min (e.k / 2) (2 * (j / 4) + 2) else j + 1

/-- Lines that `n` k-steps of `rows` elements of `w` bits fill (R166). -/
def dataLines (n rows w : Nat) : Nat := (n * rows * w + 2047) / 2048

/-- Whether scale lines precede the blocks of A and of B (R167). -/
def MEntry.scaled (e : MEntry) (b : Bool) : Bool := !mInt e.af && e.efmt.getLsbD (if b then 7 else 6)

/-- Element `n` of a stream of `w`-bit elements in lines. -/
def streamCode (ls : List VBits) (w n : Nat) : Nat := field (ls.getD (n * w / 2048) 0) (n * w % 2048) w

/-- Takes lines from a FIFO for one k-step: a scale line if one is due, then `n` data lines. `none` when they are not all held;
else whether the tags are right, the lines, and the FIFO with them retained (R31, R168). -/
def Fifo.take (f : Fifo) (scale : Bool) (n : Nat) (tag : BitVec 4) : Option (Bool × List VBits × List VBits × Fifo) :=
  let k := if scale then 1 else 0
  let ls := f.held.take (k + n)
  if ls.length < k + n then none
  else some ((ls.take k).all (fun l => l.tag = tagE8M0) && (ls.drop k).all (fun l => l.tag = tag),
    (ls.take k).map (·.bits), (ls.drop k).map (·.bits), ⟨f.held.drop (k + n), f.retained ++ ls⟩)

/-- The lines that the next k-step of an entry takes from `FA` and `FB`. -/
def MEntry.takes (e : MEntry) (fa fb : Fifo) :
    Option ((Bool × List VBits × List VBits × Fifo) × (Bool × List VBits × List VBits × Fifo)) :=
  let j := e.steps
  match fa.take (e.scaled false && j % 32 = 0) (dataLines (e.aSteps j) 128 (mWidth e.af) - e.aLines.length) (mTag e.af),
        fb.take (e.scaled true && j % 32 = 0) (dataLines (j + 1) 256 (mWidth e.bf) - e.bLines.length) (mTag e.bf) with
  | some a, some b => some (a, b)
  | _, _ => none

/-- Whether the entry has consumed its last line, and leaves the queue (R169). -/
def MEntry.fed (e : MEntry) : Bool :=
  e.aLines.length = dataLines (e.aSteps (e.k - 1)) 128 (mWidth e.af) && e.bLines.length = dataLines e.k 256 (mWidth e.bf) &&
    !((e.scaled false || e.scaled true) && decide (e.steps ≤ (e.k - 1) / 32 * 32))

/-- The entry whose k-step is due by the pipeline's tick. -/
def Core.dueEntry (c : Core) : Option MEntry :=
  match c.mq with
  | e :: _ => (match e.kind with
    | .flush => none
    | _ => if e.due e.steps ≤ c.mtick then some e else none)
  | [] => none

/-- The engine starves: a k-step is due and a line that it needs has not arrived (R170). -/
def Core.starves (c : Core) : Bool :=
  match c.dueEntry with
  | some e => (e.takes c.fa c.fb).isNone
  | none => false

/-- A flush at the head of the queue has come to its start tick (R183). -/
def Core.flushDue (c : Core) : Bool :=
  match c.mq with
  | e :: _ => (match e.kind with
    | .flush => decide (e.start ≤ c.mtick)
    | _ => false)
  | [] => false

/-! ## Group arithmetic (R57 to R60) -/

def FVal.isInf : FVal → Bool
  | .inf _ => true
  | _ => false

def FVal.isZero : FVal → Bool
  | .zero _ => true
  | _ => false

/-- The sum of a group's products, exact or special, and the flags (R59). Infinite products of both signs beside a NaN operand record no NV.
DESIGN CHOICE: log 117. -/
def groupSum (l : List (FVal × FVal)) : FVal × BitVec 4 :=
  let nar := l.any fun p => p.1.isNar || p.2.isNar
  let nan := l.any fun p => p.1.isNaN || p.2.isNaN
  let fin := l.filter fun p => !(p.1.isNaN || p.2.isNaN)
  let zinf := fin.any fun p => (p.1.isZero && p.2.isInf) || (p.1.isInf && p.2.isZero)
  let infs := (fin.filter fun p => p.1.isInf || p.2.isInf).map fun p => p.1.isNeg != p.2.isNeg
  let fl := (if nar then mNR else 0) ||| (if zinf then mNV else 0)
  if nan || zinf then (.nan false, fl)
  else if infs.contains true && infs.contains false then (.nan false, fl ||| mNV)
  else match infs with
    | n :: _ => (.inf n, fl)
    | [] => ((fin.foldl (fun (d : Dy) p => d.add (p.1.dy.mul p.2.dy)) ⟨0, 0⟩).toF false, fl)

/-- One float group added to an accumulator element: one rounding to nearest even; a zero sum contributes +0 for any scale but 0xFF
(R57, R58). -/
def groupFloat (acc : Nat) (l : List (FVal × FVal)) (sa sb : Nat) : Nat × BitVec 4 :=
  let (s, fl) := groupSum l
  let t : FVal :=
    if sa = 0xFF || sb = 0xFF then .nan false
    else match s with
      | .fin n m e => .fin n m (e + ((sa : Int) - 127) + ((sb : Int) - 127))
      | .zero _ => .zero false
      | x => x
  let a := fmtFP32.decode acc
  let (r, _) := FVal.add .rne a t
  let (bits, f) := fmtFP32.ofVal .rne r
  let nv := r.isNaN && !a.isNaN && !t.isNaN
  (bits, fl ||| (if f &&& flagOF ≠ 0 then mOV else 0) ||| (if nv then mNV else 0))

/-- One integer group added with a clamp (R60). -/
def groupInt (acc : Nat) (l : List (Int × Int)) : Nat × BitVec 4 :=
  let s := l.foldl (fun (n : Int) p => n + p.1 * p.2) 0
  let (lo, hi) := fullRange 32
  let (x, f) := satInt lo hi (intOf 32 true acc + s)
  (intBits 32 x, if f ≠ 0 then mSAT else 0)

/-- A list cut into runs of `n`. -/
def chunksOf {α : Type} (n : Nat) : Nat → List α → List (List α)
  | 0, _ => []
  | k + 1, l => l.take n :: chunksOf n k (l.drop n)

/-- The dense positions of an MMAS: for k-step `k`, the stored k-step that lies there, if any (R176). -/
def denseAt (lit : BitVec 32) (k : Nat) : Option Nat :=
  let g := k / 4
  if field lit (4 * g) 2 = k % 4 then some (2 * g)
  else if field lit (4 * g + 2) 2 = k % 4 then some (2 * g + 1)
  else none

/-- Row `i` of A over the dense k-steps, as codes; absent positions of an MMAS hold zero. -/
def MEntry.rowA (e : MEntry) (i : Nat) : List Nat :=
  (List.range e.k).map fun k =>
    if e.sparse then
      match denseAt e.lit k with
      | some n => streamCode e.aLines (mWidth e.af) (128 * n + i)
      | none => 0
    else streamCode e.aLines (mWidth e.af) (128 * k + i)

/-- Column `j` of B over the k-steps, as codes. -/
def MEntry.colB (e : MEntry) (j : Nat) : List Nat :=
  (List.range e.k).map fun k => streamCode e.bLines (mWidth e.bf) (256 * k + j)

/-- One element of `mma_update` (R57). -/
def MEntry.element (e : MEntry) (acc : Nat) (i : Nat) (row : List Nat) (j : Nat) (col : List Nat) : Nat × BitVec 4 :=
  let g := mGroup e.af e.bf
  let n := (e.k + g - 1) / g
  if mInt e.af then
    let rd := fun (f : BitVec 3) (x : Nat) => readInt (mTag f) e.efmt x
    (chunksOf g n ((row.map (rd e.af)).zip (col.map (rd e.bf)))).foldl (fun (a : Nat × BitVec 4) l =>
      let (x, f) := groupInt a.1 l
      (x, a.2 ||| f)) (acc, 0)
  else
    let rd := fun (f : BitVec 3) (x : Nat) => readElem (mTag f) e.efmt x
    ((chunksOf g n ((row.map (rd e.af)).zip (col.map (rd e.bf)))).zipIdx).foldl (fun (a : Nat × BitVec 4) l =>
      let blk := l.2 * g / 32
      let sa := if e.scaled false then (byteOf (e.aScales.getD blk 0) i).toNat else 127
      let sb := if e.scaled true then (byteOf (e.bScales.getD blk 0) j).toNat else 127
      let (x, f) := groupFloat a.1 l.1 sa sb
      (x, a.2 ||| f)) (acc, 0)

/-- Element `n` of an accumulator's bits, n = 256 row + column (R29). -/
def accElem (b : BitVec 1048576) (n : Nat) : Nat := field b (32 * n) 32

/-- The accumulator bits and the flags that an MMA or MMAS commits (R174, R176). -/
def MEntry.result (e : MEntry) : BitVec 1048576 × BitVec 4 :=
  let cols := (List.range 256).map e.colB
  let l := ((List.range 128).map fun i =>
    let row := e.rowA i
    cols.zipIdx.map fun c => e.element (accElem e.base (256 * i + c.2)) i row c.2 c.1).flatten
  (BitVec.ofNat 1048576 (packElems 32 (l.map (·.1))), l.foldl (fun f x => f ||| x.2) 0)

/-! ## Events of the engine -/

/-- Reserved integer codes among the first `n` elements of a stream, in the lines from number `old` on (R53). -/
def reservedIn (efmt : BitVec 32) (f : BitVec 3) (ls : List VBits) (old n : Nat) : Bool :=
  let w := mWidth f
  let m := old * 2048 / w
  (List.range (min n (ls.length * 2048 / w) - m)).any fun i => reservedCode (mTag f) efmt (streamCode ls w (m + i))

/-- Whether the lines that `e'` has consumed beyond those of `e` hold a reserved integer code that is read under SUBST 0 (R53, R168). -/
def MEntry.reserved (e e' : MEntry) : Bool :=
  efmtSubst e.efmt = 0 && mInt e.af &&
    (reservedIn e.efmt e.bf e'.bLines e.bLines.length (256 * e.k) ||
      reservedIn e.efmt e.af e'.aLines e.aLines.length (128 * e.aSteps (e.k - 1)))

/-- Whether a line that leaves a FIFO is poisoned (R380). -/
def Fifo.tookBad (f g : Fifo) : Bool := (f.held.take (f.held.length - g.held.length)).any (·.bad)

/-- The k-step that is due consumes its lines. Its traps are those of the main context (R168, R380). An MMA's write joins the pending ones
when its entry leaves the queue, and of two with one ready tick the earlier in the list commits first. DESIGN CHOICE: log 88. -/
def State.kStep (s : State) : State :=
  match s.core.dueEntry with
  | none => s
  | some e =>
    match e.takes s.core.fa s.core.fb with
    | none => s
    | some ((okA, sa, la, fa), (okB, sb, lb, fb)) =>
      if s.core.fa.tookBad fa || s.core.fb.tookBad fb then s.takeTrap ⟨.dataUe, 7, 0, 0⟩ 0 s.core.main.ix
      else if okA && okB then
        let e' := { e with aLines := e.aLines ++ la, bLines := e.bLines ++ lb, aScales := e.aScales ++ sa, bScales := e.bScales ++ sb }
        if e.reserved e' then s.takeTrap ⟨.swTrap, 7, 0, detailReserved⟩ 0 s.core.main.ix
        else
          let e' := { e' with steps := e.steps + 1 }
          s.mapCore fun c =>
            { c with
              fa := fa, fb := fb
              mq := if e'.fed then c.mq.drop 1 else e' :: c.mq.drop 1
              apend := if e'.fed then c.apend ++ [⟨e'.acc, e'.ready, .mma e', e'.phase⟩] else c.apend }
      else s.takeTrap ⟨.tagMismatch, 7, 0, 0⟩ 0 s.core.main.ix

/-- MATRIX_K_STEP (R166 to R170). -/
def execMatrixKStep (s : State) : Result := .next (s.focus s.ev.tile).kStep

/-- MFLUSH_EFFECT: the flush at the head of the queue, at its start tick (R183). -/
def execMflushEffect (s : State) : Result :=
  .next <| (s.focus s.ev.tile).mapCore fun c =>
    match c.mq with
    | e :: q => match e.kind with
      | .flush =>
        if e.start ≤ c.mtick then
          let drop := fun (f : Fifo) (b : Bool) => if b then (⟨[], f.retained ++ f.held⟩ : Fifo) else f
          { c with
            mq := q
            fa := drop c.fa e.flushA
            fb := drop c.fb e.flushB
            sh := match e.mpc with | some x => { c.sh with mpc := x } | none => c.sh }
        else c
      | _ => c
    | [] => c

/-- Whether a pending write is an MMA's. -/
def AccPend.isMma (p : AccPend) : Bool := match p.write with | .mma _ => true | _ => false

/-- The pending write that commits first: the least ready tick, then the earliest queued. -/
def firstPend : List AccPend → Option AccPend
  | [] => none
  | p :: l => match firstPend l with
    | some q => if q.ready < p.ready then some q else some p
    | none => some p

/-- The pending write whose ready tick has come. -/
def Core.readyPend (c : Core) : Option AccPend :=
  match firstPend c.apend with
  | some p => if p.ready ≤ c.mtick then some p else none
  | none => none

/-- The codes of a segment that MPUSH writes (R179); widening a signalling NaN raises no matrix flag. DESIGN CHOICE: log 89. -/
def pushCodes (v : VReg) : List Nat :=
  if v.tag = tagFP32 || v.tag = tagI32 then (List.range 64).map fun i => elemCode v.bits v.tag i
  else (List.range 128).map fun i => (fmtFP32.ofVal .rne (readElem v.tag 0 (elemCode v.bits v.tag i))).1

/-- MFMT of every element (R182). -/
def fmtBits (ty : AccTy) (a : Acc) : BitVec 1048576 × BitVec 4 :=
  if a.ty = ty then (a.bits, 0)
  else
    let l := (List.range 32768).map fun n =>
      match ty with
      | .fp32 => ((fmtFP32.ofVal .rne (valOfInt (intOf 32 true (accElem a.bits n)))).1, (0 : BitVec 4))
      | .i32 =>
        let (x, f) := toIntSat .rne (fullRange 32).1 (fullRange 32).2 (fmtFP32.decode (accElem a.bits n))
        (intBits 32 x, matrixFlags f)
    (BitVec.ofNat 1048576 (packElems 32 (l.map (·.1))), l.foldl (fun f x => f ||| x.2) 0)

/-- An accumulator and the flags after a pending write commits: it becomes plain live (R29, R173). -/
def AccWrite.commit (w : AccWrite) (a : Acc) : Acc × BitVec 4 :=
  match w with
  | .mma e => let (b, f) := e.result; (⟨.live, (if mInt e.af then .i32 else .fp32), b⟩, f)
  | .zero ty => (⟨.live, ty, 0⟩, 0)
  | .push row seg v fresh =>
    let l := pushCodes v
    let base := 256 * row.toNat + l.length * seg.toNat
    let bits := l.zipIdx.foldl (fun (b : BitVec 1048576) x => setField b (32 * (base + x.2)) 32 x.1) (if fresh then 0 else a.bits)
    (⟨.live, (if v.tag = tagI32 then .i32 else .fp32), bits⟩, 0)
  | .fmt ty o => let (b, f) := fmtBits ty o; (⟨.live, ty, b⟩, f)

/-- Whether a write of accumulator `a` rewrites a line of it whole (R381). -/
def AccWrite.covers (w : AccWrite) (a : BitVec 2) (l : PLine) : Bool :=
  match l with
  | .acc b r => b = a && (match w with | .push row _ _ fresh => fresh && row ≠ r | _ => true)
  | _ => false

/-- Whether a line of an accumulator that an instruction reads is poisoned: of row `row`, or of any (R380). An empty accumulator reads as
zero. -/
def Core.accBad (c : Core) (a : BitVec 2) (row : Option (BitVec 7)) : Bool :=
  (c.acc.read a).st ≠ .empty && c.linePoison.any fun l => match l with
    | .acc b r => b = a && (match row with | some x => x = r | none => true)
    | _ => false

/-- Commits the pending write whose ready tick has come, when it is one of those asked for (R76, R173). -/
def Core.commitAcc (c : Core) (mma : Bool) : Core :=
  match c.readyPend with
  | some p =>
    if p.isMma = mma then
      let (a, f) := p.write.commit (c.acc.read p.acc)
      { c with
        acc := c.acc.write p.acc a, apend := c.apend.erase p, linePoison := c.linePoison.filter fun l => !p.write.covers p.acc l
        sh := { c.sh with mflags := c.sh.mflags ||| f } }
    else c
  | none => c

/-- ACCUMULATOR_COMMIT: an MMA or MMAS (R76, R173). -/
def execAccumulatorCommit (s : State) : Result := .next ((s.focus s.ev.tile).mapCore (·.commitAcc true))

/-- M_ACC_COMMIT: an MZERO, MPUSH or MFMT (R177 to R182). -/
def execMAccCommit (s : State) : Result := .next ((s.focus s.ev.tile).mapCore (·.commitAcc false))

/-! ## Instructions -/

/-- Whether a DRAIN of the accumulator that an earlier bundle issued has not completed (R29, R72). -/
def Core.drains (c : Core) (a : BitVec 2) : Bool :=
  (c.q0 ++ c.q1).any fun k => decide (k.id < c.cur.firstId) && match k.i with
    | .drain _ _ _ _ x _ => x = a
    | _ => false

/-- An instruction that writes a retired accumulator waits for the DRAINs issued before it (R29). -/
def State.accFree (s : State) (a : BitVec 2) (k : State → State) : State :=
  if (s.core.acc.read a).st = .retired && s.core.drains a then s.holdFor (.wait false) else k s

/-- A full matrix queue is a matrix wait, before the instruction is at issue (R171). -/
def State.queueM (s : State) (k : State → State) : State := if s.core.mq.length ≥ 32 then s.holdFor .matrix else k s

/-- Puts an entry in the matrix queue at its start, busy and ready ticks (R169). -/
def State.enqueueM (s : State) (e : MEntry) (busy depth : Nat) : State :=
  s.mapCore fun c =>
    let start := max c.mtick c.mEnd
    { c with
      mq := c.mq ++ [{ e with start := start, busy := busy, ready := start + busy + depth }]
      mEnd := start + busy }

/-- An entry with nothing filled in. -/
def MEntry.blank (kind : MKind) (phase : Nat) : MEntry :=
  { kind := kind, acc := 0, k := 0, af := 0, bf := 0, efmt := 0, base := 0, lit := 0, start := 0, busy := 0, ready := 0, steps := 0,
    aLines := [], bLines := [], aScales := [], bScales := [], flushA := false, flushB := false, mpc := none, phase := phase }

/-- MMA and MMAS at issue: the accumulator is observed then (R172, R174). -/
def State.mma (s : State) (sparse z : Bool) (c : BitVec 2) (k9 : BitVec 9) (a b : BitVec 3) (lit : BitVec 32)
    (f : State → State) : State :=
  let acc := s.core.acc.read c
  let k := k9.toNat + 1
  let ty : AccTy := if mInt a then .i32 else .fp32
  if !z && acc.st ≠ .empty && acc.ty ≠ ty then s.raise .tagMismatch 0 0
  else if !z && s.core.accBad c none then s.raise .dataUe 0 0
  else f <|
    s.enqueueM { MEntry.blank (if sparse then .mmas else .mma) s.core.main.phase with
      acc := c, k := k, af := a, bf := b, efmt := s.efmt, base := if z || acc.st = .empty then 0 else acc.bits, lit := lit }
      ((k * mHalves sparse a b + 1) / 2) (mDepth a)

/-- MMA (R174). -/
def execMma (g : Guard) (c : BitVec 2) (k : BitVec 9) (a b : BitVec 3) (s : State) : Result :=
  s.mainSlot g fun s => s.accFree c fun s => s.queueM fun s => s.mma false false c k a b 0 id

/-- MMA.z (R174). -/
def execMmaZ (g : Guard) (c : BitVec 2) (k : BitVec 9) (a b : BitVec 3) (s : State) : Result :=
  s.mainSlot g fun s => s.accFree c fun s => s.queueM fun s => s.mma false true c k a b 0 id

/-- Whether the nibbles of a literal word that an MMAS of length `k` reads have LO below HI (R176). -/
def literalOk (m : BitVec 32) (k : Nat) : Bool := (List.range (k / 4)).all fun g => field m (4 * g) 2 < field m (4 * g + 2) 2

/-- MMAS reads the literal word at MPC and advances MPC (R175, R176). -/
def State.mmas (s : State) (z : Bool) (c : BitVec 2) (k : BitVec 9) (a b : BitVec 3) : State :=
  let lits := match s.core.overlay with | some o => o.lits | none => []
  match lits[s.core.sh.mpc.toNat]? with
  | none => s.raise .illegalEnc 0 0
  | some m =>
    if literalOk m (k.toNat + 1) then s.mma true z c k a b m fun s => s.mapSh fun r => { r with mpc := r.mpc + 1 }
    else s.raise .illegalEnc 0 0

/-- MMAS (R176). -/
def execMmas (g : Guard) (c : BitVec 2) (k : BitVec 9) (a b : BitVec 3) (s : State) : Result :=
  s.mainSlot g fun s => s.accFree c fun s => s.queueM fun s => s.mmas false c k a b

/-- MMAS.z (R176). -/
def execMmasZ (g : Guard) (c : BitVec 2) (k : BitVec 9) (a b : BitVec 3) (s : State) : Result :=
  s.mainSlot g fun s => s.accFree c fun s => s.queueM fun s => s.mmas true c k a b

/-- A write of an M-ACC instruction commits `n` ticks after its issue (R169). -/
def State.pendAcc (s : State) (a : BitVec 2) (n : Nat) (w : AccWrite) : State :=
  s.mapCore fun c => { c with apend := c.apend ++ [⟨a, c.mtick + n, w, c.main.phase⟩] }

/-- The type that a type bit names. -/
def accTy (t : BitVec 1) : AccTy := if t = 1 then .i32 else .fp32

/-- MZERO (R178). -/
def execMzero (g : Guard) (c : BitVec 2) (t : BitVec 1) (s : State) : Result :=
  s.mainSlot g fun s => s.accFree c fun s => s.pendAcc c 2 (.zero (accTy t))

/-- MPUSH (R179). -/
def execMpush (g : Guard) (c : BitVec 2) (v : BitVec 5) (r : BitVec 7) (sg : BitVec 2) (s : State) : Result :=
  s.mainSlot g fun s =>
    s.accFree c fun s =>
    let x := s.vreg v
    let acc := s.core.acc.read c
    let wide := x.tag = tagFP32 || x.tag = tagI32
    let half := (x.tag = tagBF16 || x.tag = tagFP16) && sg.toNat < 2
    let ty : AccTy := if x.tag = tagI32 then .i32 else .fp32
    s.tagCheck ((wide || half) && (acc.st = .empty || acc.ty = ty)) fun s =>
      s.pendAcc c 3 (.push r sg x (acc.st = .empty))

/-- The destination tag of MPOP's and DRAIN's CV (R180); `none` where an I32 accumulator has none. -/
def popTag (ty : AccTy) (cv : Nat) : Option (BitVec 4) :=
  match ty, cv with
  | .fp32, 0 => some tagFP32
  | .fp32, 1 => some tagBF16
  | .fp32, 2 => some tagFP16
  | .fp32, _ => some tagT8
  | .i32, 0 => some tagI32
  | .i32, 1 => some tagI16
  | .i32, 2 => none
  | .i32, _ => some tagI8

/-- One accumulator element converted for MPOP or DRAIN, and the matrix flags (R180). -/
def popElem (ty : AccTy) (t : BitVec 4) (efmt : BitVec 32) (x : Nat) : Nat × BitVec 4 :=
  let src := if ty = .i32 then tagI32 else tagFP32
  let v := readElem src efmt x
  let (c, f) := writeElem t efmt .rne v
  (c, matrixFlags (f ||| flagIf v.isSignalling flagNV))

/-- MPOP reads the accumulator as observed at its issue tick (R180). -/
def execMpop (g : Guard) (c : BitVec 2) (v : BitVec 5) (r : BitVec 7) (sg w : BitVec 2) (s : State) : Result :=
  s.mainSlot g fun s =>
    let acc := s.core.acc.read c
    match popTag acc.ty w.toNat with
    | none => s.raise .tagMismatch 0 0
    | some t =>
      if s.core.accBad c (some r) then s.raise .dataUe 0 0 else
      let n := tagN t
      let l := (List.range n).map fun i => popElem acc.ty t s.efmt (accElem acc.bits (256 * r.toNat + n * sg.toNat + i))
      (s.setV v ⟨BitVec.ofNat 2048 (packElems (tagW t) (l.map (·.1))), t⟩).mapSh fun q =>
        { q with mflags := l.foldl (fun f x => f ||| x.2) q.mflags }

/-- MRET (R181). -/
def execMret (g : Guard) (c : BitVec 2) (s : State) : Result :=
  s.mainSlot g fun s => s.mapCore fun k =>
    let a := k.acc.read c
    if a.st = .live then { k with acc := k.acc.write c { a with st := .liveRet } } else k

/-- MFMT (R182). -/
def execMfmt (g : Guard) (c : BitVec 2) (t : BitVec 1) (s : State) : Result :=
  s.mainSlot g fun s =>
    let acc := s.core.acc.read c
    if acc.st = .empty then s
    else s.accFree c fun s => if s.core.accBad c none then s.raise .dataUe 0 0 else s.pendAcc c 130 (.fmt (accTy t) acc)

/-- MFLUSH (R183). -/
def execMflush (g : Guard) (b a : BitVec 1) (s : State) : Result :=
  s.mainSlot g fun s =>
    s.queueM fun s => s.enqueueM { MEntry.blank .flush s.core.main.phase with flushA := a = 1, flushB := b = 1 } 0 0

/-- MFLUSH.pc (R183). -/
def execMflushPc (g : Guard) (r : BitVec 6) (b a : BitVec 1) (s : State) : Result :=
  s.mainSlot g fun s =>
    s.queueM fun s => s.enqueueM { MEntry.blank .flush s.core.main.phase with
      flushA := a = 1, flushB := b = 1, mpc := some ((s.sreg r).setWidth 24) } 0 0

/-- MSTAT (R184). -/
def execMstat (g : Guard) (d : BitVec 6) (s : State) : Result :=
  s.mainSlot g fun s => s.setS d s.core.mstatus

/-- MSTAT.c: it then clears the flags (R184). -/
def execMstatC (g : Guard) (d : BitVec 6) (s : State) : Result :=
  s.mainSlot g fun s => (s.setS d s.core.mstatus).mapSh fun r => { r with mflags := 0 }

end Sys2Proof.Machine
end

