-- ==== Sys2Proof/Machine/Engine.lean ====
section
/-!
DEFINITION. The C slots: descriptor and mark-set writes (R216, R217), and the issue of engine commands: their checks, their snapshots,
their marks and their queues (R211, R214, R218, R236).
-/
namespace Sys2Proof.Machine

/-! ## Register writes (R216, R217) -/

/-- Bits of a descriptor that exist: bits 447 to 440 read as zero (R34). -/
def descMask (d : BitVec 512) : BitVec 512 := setField d 440 8 0

/-- A write of a descriptor register; a tail's is noted (R288). -/
def State.setD (s : State) (k : BitVec 4) (x : BitVec 512) : State :=
  let s := s.mapSh fun r => { r with d := r.d.write k (descMask x) }
  if s.core.cur.ctx = 0 then s else s.mapCore fun c => { c with tailD := c.tailD ||| BitVec.ofNat 16 (2 ^ k.toNat) }

/-- DLD. -/
def execDld (g : Guard) (d : BitVec 4) (a : BitVec 6) (s : State) : Result :=
  s.guarded g fun s =>
    let x := (s.sreg a).toNat
    if x % 64 ≠ 0 then s.raise .align (s.sreg a) 0
    else if x + 64 > 0x200000 then s.raise .spadRange (s.sreg a) 0
    else (s.claim s.coreTile x 64 0).spadRead x 64 fun s => s.setD d (BitVec.ofNat 512 (Memory.readLE s.core.spad x 64))

/-- The lowest bit and the width of a field of DSET (R217). -/
def dsetField (f : BitVec 5) : Nat × Nat :=
  let n := f.toNat
  if n = 0 then (336, 52) else if n = 1 then (388, 52) else if n = 2 then (480, 32) else if n = 3 then (448, 32)
  else if n < 10 then (56 * (n - 4) + 44, 12) else if n < 16 then (56 * (n - 10), 22) else (56 * (n - 16) + 22, 22)

/-- DSET. -/
def execDset (g : Guard) (d : BitVec 4) (a : BitVec 6) (f : BitVec 5) (s : State) : Result :=
  s.guarded g fun s => let (lo, w) := dsetField f; s.setD d (setField (s.dreg d) lo w (s.sreg a).toNat)

/-- DSET.add. -/
def execDsetAdd (g : Guard) (d : BitVec 4) (a : BitVec 6) (f : BitVec 5) (s : State) : Result :=
  s.guarded g fun s =>
    let (lo, w) := dsetField f
    s.setD d (setField (s.dreg d) lo w (field (s.dreg d) lo w + (s.sreg a).toNat))

/-- MSETW; a write of `ms0` is ignored (R33). -/
def execMsetw (g : Guard) (j : BitVec 4) (a : BitVec 6) (s : State) : Result :=
  s.guarded g fun s =>
    if j = 0 then s
    else
      let s := s.mapSh fun r => { r with ms := r.ms.write j ((s.sreg a).setWidth 21) }
      if s.core.cur.ctx = 0 then s else s.mapCore fun c => { c with tailMs := c.tailMs ||| BitVec.ofNat 16 (2 ^ j.toNat) }

/-! ## Commands (R211) -/

/-- Whether a consumed set makes its command gated: it names a mark that is pending only on gated commands of the context (R214). -/
def State.gatedSet (s : State) (ms : BitVec 21) : Bool := (marksOf ms).any fun m => s.core.onlyGated s.core.cur.ctx m

/-- Issues a command: snapshots, its mark, and the queue of its slot's engine, which holds 32 (R211). -/
def State.command (s : State) (i : Instr) (m : BitVec 6) (j : BitVec 4) (d0 d1 : BitVec 512) (link : Word) (gated : Bool)
    (snap : Option Acc := none) : State :=
  let c1 := s.core.cur.slot = 7
  if (if c1 then s.core.q1 else s.core.q0).length ≥ 32 then s.holdFor .queueFull
  else
    let k : Cmd :=
      { id := s.core.nextId, i := i, ctx := s.core.cur.ctx, phase := s.ctx.phase, mphase := s.core.main.phase, mark := m, ms := s.mset j,
        d0 := d0, d1 := d1, link := link, efmt := s.efmt, gated := gated || s.gatedSet (s.mset j), released := false, started := false,
        progress := 0, buf := [], pin := none, err := false, sent := false, done := false,
        vers := [], flags := 0, snap := snap, pend := [] }
    ((s.mapSh (·.markIssue m)).noteMarks (markBits [m])).mapCore fun c =>
      if c1 then { c with q1 := c.q1 ++ [k], nextId := c.nextId + 1 } else { c with q0 := c.q0 ++ [k], nextId := c.nextId + 1 }

/-! ## Checks at issue (R34, R218) -/

/-- What every command requires of a descriptor: DEC and QNT as given, and no reserved LAYOUT. -/
def descOk (d : BitVec 512) (dec qnt : Nat → Bool) : Bool := dec (descDec d) && qnt (descQnt d) && descLayout d < 5

/-- FP32, BF16 or FP16 (R224, R234). -/
def fmtFloat (f : Nat) : Bool := f = 1 || f = 2 || f = 3

/-- Dimensions 1 to 5 have COUNT 1. -/
def descFlat (d : BitVec 512) : Bool := (List.range 5).all fun i => descCount d (i + 1) = 1

/-- A failed check takes ILLEGAL_ENC. -/
def State.encCheck (s : State) (ok : Bool) (k : State → State) : State := if ok then k s else s.raise .illegalEnc 0 0

/-- CPY (R221). -/
def execCpy (g : Guard) (d : BitVec 4) (m : BitVec 6) (j : BitVec 4) (e f l : BitVec 1) (s : State) : Result :=
  s.guarded g fun s =>
    let x := s.dreg d
    s.encCheck (descOk x (· = 0) (· = 0) && descFmt x < 12 && !(e = 1 && f = 1 && descLayout x ≠ 0)) fun s =>
      s.command (.cpy g d m j e f l) m j x 0 0 (f = 1)

/-- CPYM (R222). -/
def execCpym (g : Guard) (d : BitVec 4) (m : BitVec 6) (j : BitVec 4) (e : BitVec 1) (s : State) : Result :=
  s.guarded g fun s =>
    let x := s.dreg d
    s.encCheck (descOk x (· = 0) (· = 0) && descFmt x < 12) fun s =>
      if bindQalign (s.bind s.coreTile) then s.command (.cpym g d m j e) m j x 0 0 false else s.raise .prot 0 0

/-- CPYQ (R224); `.sd` and `.dd` as for CPY (R221). -/
def execCpyq (g : Guard) (d : BitVec 4) (m : BitVec 6) (j : BitVec 4) (e f l : BitVec 1) (s : State) : Result :=
  s.guarded g fun s =>
    let x := s.dreg d
    s.encCheck (descOk x (· = 0) (fun n => n = 1 || n = 2) && fmtFloat (descFmt x) && !(e = 1 && f = 1 && descLayout x ≠ 0)) fun s =>
      s.command (.cpyq g d m j e f l) m j x (s.dreg (d + 1)) 0 (f = 1)

/-- CPYX (R225): bitmap-sparse only in C0. -/
def execCpyx (g : Guard) (d : BitVec 4) (m : BitVec 6) (j : BitVec 4) (e f : BitVec 1) (s : State) : Result :=
  s.guarded g fun s =>
    let x := s.dreg d
    s.encCheck (descOk x (fun n => n = 1 || (n = 2 && s.core.cur.slot = 6)) (· = 0) && descFlat x && descPads x = 0 && !descVchk x)
      fun s => s.command (.cpyx g d m j e f) m j x 0 0 (f = 1)

/-- GATH (R231). -/
def execGath (g : Guard) (d : BitVec 4) (m : BitVec 6) (j : BitVec 4) (w : BitVec 3) (p : BitVec 2) (s : State) : Result :=
  s.guarded g fun s =>
    let x := s.dreg d
    s.encCheck (descOk x (· = 3) (· = 0) && descFlat x) fun s =>
      s.command (.gath g d m j w p) m j x (s.dreg (d + 1)) 0 false

/-- FEED (R234). -/
def execFeed (g : Guard) (d : BitVec 4) (m : BitVec 6) (j : BitVec 4) (e : BitVec 1) (c : BitVec 3) (f : BitVec 1) (s : State) :
    Result :=
  s.guarded g fun s =>
    let x := s.dreg d
    s.encCheck (descOk x (· = 0) (· = 0) && descFmt x < 12 && (c = 0 || fmtFloat (descFmt x))) fun s =>
      s.command (.feed g d m j e c f) m j x 0 0 false

/-- DRAIN (R235): it drains the accumulator as it stands at issue (R76), before any effect of its own bundle's M slot (R72). DEDUCED: log 128. -/
def execDrain (g : Guard) (d : BitVec 4) (m : BitVec 6) (j : BitVec 4) (a : BitVec 2) (c : BitVec 3) (s : State) : Result :=
  s.guarded g fun s =>
    let x := s.dreg d
    s.encCheck (descOk x (· = 0) (· = 0) && descSUnit x = 0 && !descVchk x) fun s =>
      s.command (.drain g d m j a c) m j x 0 0 false (some (s.core.acc.read a))

/-- LSEND: irrevocable (R199, R237). -/
def execLsend (g : Guard) (a : BitVec 6) (m : BitVec 6) (j : BitVec 4) (s : State) : Result :=
  s.guarded g fun s => s.irrevocable fun s => s.command (.lsend g a m j) m j 0 0 (s.sreg a) false

/-- LRECV: posted when the next checkpoint releases it (R237). -/
def execLrecv (g : Guard) (a : BitVec 6) (m : BitVec 6) (j : BitVec 4) (s : State) : Result :=
  s.guarded g fun s => s.command (.lrecv g a m j) m j 0 0 (s.sreg a) true

/-- LRXADD: posted when the next checkpoint releases it (R237). -/
def execLrxadd (g : Guard) (a : BitVec 6) (m : BitVec 6) (j : BitVec 4) (f : BitVec 3) (s : State) : Result :=
  s.guarded g fun s => s.command (.lrxadd g a m j f) m j 0 0 (s.sreg a) true

end Sys2Proof.Machine
end

