-- ==== Sys2Proof/Machine/Digest.lean ====
section
/-!
DEFINITION. Reads and recomputes of digest entries: the blocks of a query (R239), entries of an address (R269), scans (R242, R267) and
DIGB's answer (R241).
-/
namespace Sys2Proof.Machine

/-- The region of an address space that holds a virtual address: its number and its record (R264, R267). -/
def State.regionOf (s : State) (asid : BitVec 8) (va : Nat) : Option (BitVec 8 × Region) :=
  ((List.range 256).map fun i => (BitVec.ofNat 8 i, Region.ofBits (s.regions.read (BitVec.ofNat 8 i)))).find? fun p =>
    (p.2.state = 1 || p.2.state = 2) && p.2.asid = asid.toNat && p.2.base ≤ va && va < p.2.base + p.2.nblk * p.2.block

/-- The entry of a block that its Sieve holds. -/
def State.digEntry (s : State) (region : BitVec 8) (block : Nat) : Option DigEntry :=
  s.digests.find? fun e => e.region = region && e.block = block

/-- The entry of the block that holds a virtual address (R239, R269). DEDUCED: log 43. -/
def State.entryAt (s : State) (asid : BitVec 8) (va : Nat) : BitVec 512 :=
  match s.regionOf asid va with
  | none => noRegionEntry
  | some (n, r) =>
    match s.digEntry n ((va - r.base) / r.block) with
    | some e => e.bytes
    | none => regionInvalid r 0

/-- The first byte and the size of the block that a query answers for an address: a region's block, or a 4 KiB span (R239). -/
def State.queryBlock (s : State) (asid : BitVec 8) (va : Nat) : Nat × Nat :=
  match s.regionOf asid va with
  | none => (va / 4096 * 4096, 4096)
  | some (_, r) => (r.base + (va - r.base) / r.block * r.block, r.block)

/-- The first bytes of the `n` blocks of a query (R239). -/
def State.queryBlocks (s : State) (asid : BitVec 8) : Nat → Nat → List Nat
  | _, 0 => []
  | va, n + 1 => let (a, z) := s.queryBlock asid va; a :: s.queryBlocks asid (a + z) n

/-- Where a block of a region lies, by its entry or else by a walk of the access `key`: its physical address, nothing when it is not
translated, or the address at which home holds the access (R267, R405). -/
def State.blockBase (s : State) (key : HeldAcc) (region : BitVec 8) (block : Nat) : Except Nat (Option Nat) :=
  let r := Region.ofBits (s.regions.read region)
  match s.digEntry region block with
  | some e => .ok (some e.pa.toNat)
  | none => match s.pageWalk key (BitVec.ofNat 8 r.asid) (r.base + block * r.block) with
    | .ok leaf level => .ok (some (leafBase leaf + (r.base + block * r.block) % 2 ^ pageBits level))
    | .wait pa => .error pa
    | _ => .ok none

/-- Where a block of a region lies now, for a step that reads its data: where its page is mapped, and while it is not mapped where its entry was
computed (R242, R267). -/
def State.blockNow (s : State) (key : HeldAcc) (region : BitVec 8) (block : Nat) : Except Nat (Option Nat) :=
  let r := Region.ofBits (s.regions.read region)
  match s.pageWalk key (BitVec.ofNat 8 r.asid) (r.base + block * r.block) with
  | .ok leaf level => .ok (some (leafBase leaf + (r.base + block * r.block) % 2 ^ pageBits level))
  | .wait pa => .error pa
  | _ => .ok ((s.digEntry region block).map fun e => e.pa.toNat)

/-- The address at which home holds an access to a whole block at `base`, if it does: a home step on the block needs all its channels (R405). -/
def State.blockHeld (s : State) (key : HeldAcc) (region : BitVec 8) (base : Except Nat (Option Nat)) : Option Nat :=
  let r := Region.ofBits (s.regions.read region)
  match base with
  | .error pa => some pa
  | .ok none => none
  | .ok (some a) => ((List.range (r.block / 256)).map fun j => a + 256 * j).find? (s.homeHeld key)

/-- Computes a block's entry from its data in one home step; poisoned data makes it region-INVALID (R242, R267, R380). -/
def State.scanBlock (s : State) (key : HeldAcc) (region : BitVec 8) (block : Nat) (keepVersion : Bool) : State :=
  let r := Region.ofBits (s.regions.read region)
  let old := s.digEntry region block
  match s.blockNow key region block with
  | .error _ => s
  | .ok none => s
  | .ok (some a) =>
    let version := match old with | some e => if keepVersion then (entVersion e.bytes).toNat else 0 | none => 0
    let e := if s.poisoned a r.block then regionInvalid r version
      else setField (scanEntry r fun j => Memory.read s.mem (a + j)) 32 32 version
    { s with digests := (s.digests.filter fun x => !(x.region = region && x.block = block)) ++
        [⟨region, block, homeOf a, BitVec.ofNat 45 a, e⟩] }

/-- DIGRS over `n` blocks from an address: the state and the number of blocks that lay in a region (R242). -/
def State.refresh (s : State) (key : HeldAcc) (asid : BitVec 8) (va n : Nat) : State × Nat :=
  (s.queryBlocks asid va n).foldl (fun (p : State × Nat) a =>
    match p.1.regionOf asid a with
    | some (k, r) => (p.1.scanBlock key k ((a - r.base) / r.block) true, p.2 + 1)
    | none => p) (s, 0)

/-- BELOW and ABOVE of DIGB (R241). -/
def boundsAnswer (e : BitVec 512) (t : Word) : Bool × Bool :=
  let fmt := field e 4 4
  let bad := field e 8 3 ≠ 0 || e.getLsbD 13 || field e 192 3 ≠ 0
  let tv := if isIntFmt fmt then valOfInt t.toInt else fmtFP64.decode t.toNat
  if bad || tv.isNaN then (false, false)
  else
    let lo := valOfField (isIntFmt fmt) (field e 64 64)
    let hi := valOfField (isIntFmt fmt) (field e 128 64)
    (!tv.lt hi, tv.lt lo)

end Sys2Proof.Machine
end

