-- ==== Sys2Proof/Machine/EngineRun.lean ====
section
/-!
DEFINITION. How engine commands start, run unit by unit, end and complete (R211 to R213, R219 to R237), and the writes of FEED lines and
multicast arrivals (R31, R223).
-/
namespace Sys2Proof.Machine

/-! ## What one unit of a command may meet (R213) -/

/-- Why a unit does not go on. -/
inductive EngStop where
  /-- A device address without a cached translation: the command parks (R213). -/
  | park (va : BitVec 64) (acc : Access)
  /-- A trap on the issuing context. -/
  | trap (c : Cause) (va : BitVec 64)
  /-- The command ends in error. -/
  | fail
  /-- Poisoned data: the command stops, with DATA_UE (R380). -/
  | poison
  /-- Home holds the device access at this physical address (R354, R405, R419). -/
  | hold (pa : Nat)
  /-- Nothing happens yet. -/
  | wait
  deriving DecidableEq, Repr

/-- Notes the version of the block that a device read meets, in the same home step (R243). -/
def State.noteVersion (s : State) (k : Cmd) (va : Nat) : Cmd :=
  if descVchk k.d0 then
    match s.regionOf s.core.asid va with
    | none => k
    | some (n, r) =>
      let b := (va - r.base) / r.block
      let v := entVersion (match s.digEntry n b with | some e => e.bytes | none => regionInvalid r 0)
      if k.vers.any fun x => x.region = n && x.block = b then
        { k with vers := k.vers.map fun x => if x.region = n && x.block = b then { x with v2 := v } else x }
      else { k with vers := k.vers ++ [⟨n, b, v, v⟩] }
  else k

/-- Whether a fence of scope `core`, or the window of 2,048 requests, bars a command's device access for now (R16, R200). -/
def State.engBarred (s : State) (k : Cmd) : Bool := s.core.behindFence k.id || 2048 ≤ s.deviceReqs && !s.turnOf (s.cmdKey k)

/-- The pieces of an engine's device access: address, physical address and length of each part within one block (R187, R189). -/
def State.engPieces (s : State) (k : Cmd) (va : Nat) (n : Nat) (acc : Access) : Except EngStop (List (Nat × Nat × Nat)) :=
  if s.engBarred k then .error .wait
  else
    (blockStarts va n).foldl (fun (r : Except EngStop (List (Nat × Nat × Nat))) a =>
      match r with
      | .error e => .error e
      | .ok l =>
        match s.tlb true s.core.asid a with
        | none => .error (.park (BitVec.ofNat 64 a) acc)
        | some t =>
          match attrTrap t.leaf acc with
          | some c => .error (.trap c (BitVec.ofNat 64 a))
          | none =>
            if s.homeHeld (s.cmdKey k) (t.phys a) then .error (.hold (t.phys a))
            else .ok (l ++ [(a, t.phys a, min (64 - a % 64) (va + n - a))])) (.ok [])

/-- Where a scratchpad side of a command lies: the tile and the placed bytes (R194, R220). -/
def State.engSpad (s : State) (a : Int) (n l : Nat) : Except EngStop (BitVec 7 × List Nat) :=
  let x := spadAddr a
  let bytes := fun (off : Nat) => (List.range n).map fun j => spadMap (off + j) l
  match spadLoc x n with
  | .outside => .error (.trap .spadRange (BitVec.ofNat 64 x))
  | .local_ off => .ok (s.coreTile, bytes off)
  | .window m off =>
    match s.windowTrap m with
    | some .fenced => .error .fail
    | some c => .error (.trap c (BitVec.ofNat 64 x))
    | none => .ok (quadMate s.coreTile m, bytes off)

/-- Whether context `n` of the focused core has a window store on its way to the scratchpad of tile `t`, one of those that `before` marks. -/
def State.winStoreOut (s : State) (n : BitVec 2) (t : BitVec 7) (before : Req → Bool) : Bool :=
  s.core.reqs.any fun q => q.ctx = n && before q && (match q.kind with | .winStore => quadMate s.coreTile (q.x.setWidth 2) = t | _ => false)

/-- Whether the issuing context has a window store on its way to the scratchpad of a tile, which a command reads after it: one of an earlier
bundle (R212), and for a gated command any made before the checkpoint that releases it (R214). -/
def State.storeOnWay (s : State) (k : Cmd) (t : BitVec 7) : Bool :=
  s.winStoreOut k.ctx t fun q => if k.gated then q.phase ≤ k.phase else q.id < k.id

/-- Reads `n` bytes of one side of a command. -/
def State.engRead (s : State) (k : Cmd) (dev : Bool) (a : Int) (n l : Nat) : Except EngStop (List Byte × Cmd) :=
  if dev then
    match s.engPieces k (BitVec.ofInt 64 a).toNat n .load with
    | .error e => .error e
    | .ok ps =>
      if ps.any fun p => s.poisoned p.2.1 p.2.2 then .error .poison
      else .ok ((ps.map fun p => Memory.readList s.mem p.2.1 p.2.2).flatten, ps.foldl (fun k p => s.noteVersion k p.1) k)
  else
    match s.engSpad a n l with
    | .error e => .error e
    | .ok (t, bs) =>
      let c := s.coreAt t
      if s.storeOnWay k t then .error .wait
      else if bs.any fun b => c.spadPoisoned b 1 then .error .poison else .ok (bs.map fun b => Memory.read c.spad b, k)

/-- Writes the bytes of a unit to one side of a command: to device memory in one home step (R277), or to scratchpad byte by byte, each
byte performing on its own in a later step of the engine (R248, R250). -/
def State.engWrite (s : State) (k : Cmd) (dev : Bool) (a : Int) (bs : List Byte) (l : Nat) : Except EngStop (State × Cmd) :=
  if dev then
    let va := (BitVec.ofInt 64 a).toNat
    match s.engPieces k va bs.length .store with
    | .error e => .error e
    | .ok ps => .ok (s.homeCells (ps.map fun p => ((bs.drop (p.1 - va)).take p.2.2).zipIdx.map fun b => (p.2.1 + b.2, b.1)).flatten, k)
  else
    match s.engSpad a bs.length l with
    | .error e => .error e
    | .ok (t, ps) => .ok (s, { k with pend := k.pend ++ (ps.zip bs).map fun b => (t, b.1, b.2) })

/-! ## Commands unit by unit -/

/-- What a unit leaves: the state, and the command with its progress. -/
abbrev UnitRes := Except EngStop (State × Cmd)

/-- One unit more is done. -/
def Cmd.next (k : Cmd) (n : Nat) : Cmd := { k with progress := k.progress + n }

/-- CPY: one point (R221). -/
def State.cpyUnit (s : State) (k : Cmd) (sdev ddev ls : Bool) : UnitRes :=
  let p := nestPoint k.d0 k.progress
  let e := unitSize (descFmt k.d0)
  let (lS, lD) := sideLayouts k.d0 sdev ddev ls
  match (if p.pad then .ok (List.replicate e 0, k) else s.engRead k sdev p.s e lS) with
  | .error x => .error x
  | .ok (bs, k) =>
    match s.engWrite k ddev p.t bs lD with
    | .error x => .error x
    | .ok (s, k) => .ok (s, k.next 1)

/-- The receivers of a CPYM (R222). -/
def State.receivers (s : State) (k : Cmd) : List (BitVec 2) :=
  ((List.range 4).filter fun i => (descMcast k.d0).getLsbD i).map fun i => BitVec.ofNat 2 i

/-- CPYM: one point, at every receiver that is not fenced or fused off (R222). A source address in a quad window takes SPAD_RANGE. DESIGN
CHOICE: log 90. -/
def State.cpymUnit (s : State) (k : Cmd) (sdev : Bool) : UnitRes :=
  let p := nestPoint k.d0 k.progress
  let e := unitSize (descFmt k.d0)
  let rs := s.receivers k
  let traps := rs.map s.windowTrap
  let off := spadAddr p.t % 0x200000
  if traps.any (· = some .prot) then .error (.trap .prot 0)
  else if !p.pad && !sdev && spadAddr p.s + e > 0x200000 then .error (.trap .spadRange (BitVec.ofNat 64 (spadAddr p.s)))
  else
    match (if p.pad then .ok (List.replicate e 0, k) else s.engRead k sdev p.s e 0) with
    | .error x => .error x
    | .ok (bs, k) =>
      let live := rs.filter fun m => (s.windowTrap m).isNone
      if !live.isEmpty && off + e > 0x200000 then .error (.trap .spadRange (BitVec.ofNat 64 (spadAddr p.t)))
      else
        let ws := live.map fun m => bs.zipIdx.map fun b => (quadMate s.coreTile m, spadMap (off + b.2) (descLayout k.d0), b.1)
        .ok (s, { k.next 1 with err := k.err || traps.any (·.isSome), pend := k.pend ++ ws.flatten })

/-- CPYQ: one element read into the block, or a whole block's codes written, or its scale (R224). The block's source bytes stand in
`buf`; once its codes are written, `buf` holds the scale alone. LAYOUT applies to the codes and to the scale. DESIGN CHOICE: log 126. -/
def State.cpyqUnit (s : State) (k : Cmd) (sdev ddev ls : Bool) : UnitRes :=
  let e := unitSize (descFmt k.d0)
  let n0 := descCount k.d0 0
  let (lS, lD) := sideLayouts k.d0 sdev ddev ls
  let last := k.progress - 1
  let first := last / n0 * n0
  let inRow := last % n0
  let blk := inRow / 32
  if k.buf.length = 1 then
    match s.engWrite k ddev (scaleBase k.d0 k.d1 first + blk) k.buf lD with
    | .error x => .error x
    | .ok (s, k) => .ok (s, { k with buf := [] })
  else if !k.buf.isEmpty && (inRow + 1 = n0 || inRow % 32 = 31) then
    let n := k.buf.length / e
    let fmt := BitVec.ofNat 4 (descFmt k.d0)
    let vals := (List.range n).map fun i => readElem fmt 0 (leNat ((k.buf.drop (i * e)).take e))
    let t8 := descQnt k.d0 = 1
    let (x, codes, fl) := quantiseBlock (if t8 then 8 else 6) (if t8 then 12 else 8) (vals ++ List.replicate (32 - n) (.zero false))
    let codes := codes.take n
    let out := if t8 then codes.map (BitVec.ofNat 8 ·) else leBytes (3 * ((n + 3) / 4)) (packElems 6 codes)
    let at_ := (nestPoint k.d0 first).t + (if t8 then 32 * blk else 24 * blk)
    match s.engWrite k ddev at_ out lD with
    | .error y => .error y
    | .ok (s, k) => .ok (s, { k with buf := [BitVec.ofNat 8 x], err := k.err || fl &&& flagNV ≠ 0 })
  else
    let p := nestPoint k.d0 k.progress
    match (if p.pad then .ok (List.replicate e 0, k) else s.engRead k sdev p.s e lS) with
    | .error x => .error x
    | .ok (bs, k) => .ok (s, { k.next 1 with buf := k.buf ++ bs })

/-! ### CPYX (R225 to R229) -/

/-- A tensor header's fields (R226). -/
structure TensorHeader where
  format : Nat
  esize : Nat
  nchunk : Nat
  total : Nat
  off : Nat
  ok : Bool

def tensorHeader (h : List Byte) : TensorHeader :=
  let f := fun (a n : Nat) => leNat ((h.drop a).take n)
  let fmt := f 0 2
  { format := fmt, esize := f 2 2, nchunk := f 4 4, total := f 8 8, off := f 16 8
    ok := (fmt = 1 || fmt = 2) && (h.drop 24).all (· = 0) && (if fmt = 1 then f 2 2 = 0 else (f 2 2 = 1 || f 2 2 = 2 || f 2 2 = 4)) }

/-- The symbol of a slot of the cumulative table, with its frequency and its first slot. -/
def ransSymbol (q : Nat) : List Nat → Nat → Nat → Option (Nat × Nat × Nat)
  | [], _, _ => none
  | f :: fs, c, sym => if q < c + f then some (sym, f, c) else ransSymbol q fs (c + f) (sym + 1)

/-- Decodes `n` bytes from position `p` onward: the bytes and the words left, or nothing for a malformed record (R227). -/
def ransDecode (freq : List Nat) : Nat → Nat → List Nat → List Nat → Option (List Byte × List Nat)
  | 0, _, _, words => some ([], words)
  | n + 1, p, states, words =>
    let x := states.getD (p % 32) 0
    match ransSymbol (x % 4096) freq 0 0 with
    | none => none
    | some (sym, f, c) =>
      let y := f * (x / 4096) + x % 4096 - c
      match (if y < 65536 then (match words with | w :: ws => some (y * 65536 + w, ws) | [] => none) else some (y, words)) with
      | none => none
      | some (y, words) =>
        match ransDecode freq n (p + 1) (states.set (p % 32) y) words with
        | none => none
        | some (out, rest) => some (BitVec.ofNat 8 sym :: out, rest)

/-- Numbers of `n` bytes each. -/
def leWords (n : Nat) (bs : List Byte) : List Nat := (chunksOf n (bs.length / n) bs).map leNat

/-- A rANS record of `len` output bytes (R227). -/
def ransRecord (freq : List Nat) (bs : List Byte) (len : Nat) : Option (List Byte) :=
  let states := leWords 4 (bs.take 128)
  if bs.length < 128 || bs.length % 2 ≠ 0 || freq.foldl (· + ·) 0 ≠ 4096 || states.any (· < 65536) then none
  else match ransDecode freq len 0 states (leWords 2 (bs.drop 128)) with
    | some (out, []) => some out
    | _ => none

/-- A bitmap-sparse record of `n` elements of `e` bytes (R228). -/
def sparseRecord (e : Nat) (bs : List Byte) (n : Nat) : Option (List Byte) :=
  let bit := fun (i : Nat) => (bs.getD (i / 8) 0).getLsbD (i % 8)
  let set_ := (List.range 256).filter bit
  if bs.length ≠ 32 + set_.length * e || set_.any (n ≤ ·) then none
  else some ((List.range n).map fun i =>
    if bit i then ((bs.drop (32 + ((List.range i).filter bit).length * e)).take e) else List.replicate e 0).flatten

/-- CPYX: one chunk, decoded whole and written whole (R225, R229). -/
def State.cpyxUnit (s : State) (k : Cmd) (sdev ddev : Bool) : UnitRes :=
  let base : Int := descSBase k.d0
  let chunk := field k.d0 0 22 + k.progress
  let rd := fun (k : Cmd) (a : Int) (n : Nat) => s.engRead k sdev a n 0
  match rd k base 64 with
  | .error x => .error x
  | .ok (h, k) =>
    let t := tensorHeader h
    let full := if t.format = 1 then 4096 else 256 * t.esize
    let last := (t.total : Int) - ((t.nchunk : Int) - 1) * full
    let out := if chunk + 1 = t.nchunk then last else full
    if !t.ok || t.format ≠ descDec k.d0 || t.nchunk ≤ chunk || last < 1 || full < last || (t.format = 2 && last.toNat % t.esize ≠ 0) then
      .error .fail
    else
      match (if t.format = 1 then rd k (base + 64) 512 else .ok ([], k)) with
      | .error x => .error x
      | .ok (fs, k) =>
        match rd k (base + (if t.format = 1 then 576 else 64) + 8 * chunk) 8 with
        | .error x => .error x
        | .ok (ix, k) =>
          let n := out.toNat
          let len := leNat (ix.drop 4)
          -- the longest record of a chunk: 32 states and at most a word for each byte, or a whole bitmap
          if len > 128 + 2 * 4096 then .error .fail
          else
            match rd k (base + t.off + leNat (ix.take 4)) len with
            | .error x => .error x
            | .ok (bs, k) =>
              match (if t.format = 1 then ransRecord (leWords 2 fs) bs n else sparseRecord t.esize bs (n / t.esize)) with
              | none => .error .fail
              | some o =>
                let dst := (descDBase k.d0 : Int) + k.progress * descDStride k.d0 0 * strideUnit (descDUnit k.d0)
                match s.engWrite k ddev dst o (if ddev then 0 else descLayout k.d0) with
                | .error x => .error x
                | .ok (s, k) => .ok (s, k.next 1)

/-! ### GATH (R230 to R233) -/

/-- The pool record of a command's POOL (R352). -/
def State.poolOf (s : State) (asid : BitVec 8) (base : Nat) : Option Pool :=
  s.pools.toList.find? fun p => p.valid && p.asid = asid && p.pool.toNat = base

/-- Keeps an entry of the block map cache, the least recently used leaving first (R232). -/
def Core.bmcPut (c : Core) (e : BmcEntry) : Core :=
  let l := c.bmc.filter fun x => !(x.asid = e.asid && x.va = e.va)
  { c with bmc := (if l.length < 256 then l else l.drop 1) ++ [e] }

/-- The entry of the block map cache for a table entry's address (R232). -/
def Core.bmcFind (c : Core) (va : Nat) : Option BmcEntry := c.bmc.find? fun e => e.asid = c.asid && e.va.toNat = va

/-- The table entry of a block read at home: it enters the block map cache, and the unit goes on from there in its next step; an entry that
names no block does not, and `k` goes on (R232). -/
def State.tableEntry (s : State) (k : Cmd) (va : Nat) (absent : Cmd → UnitRes) : UnitRes :=
  match s.engRead k true va 4 0 with
  | .error x => .error x
  | .ok (bs, k) =>
    let n := leNat bs
    let level := match s.tlb true s.core.asid va with | some t => t.level | none => 0
    if n = 0xFFFFFFFF then absent k
    else .ok (s.mapCore (·.bmcPut ⟨s.core.asid, BitVec.ofNat 52 va, level, BitVec.ofNat 32 n⟩), k)

/-- The pin of a block whose slot-state word lies at `pa` (R233, R352). -/
def State.pinStep (s : State) (k : Cmd) (pa : Nat) : UnitRes :=
  let word := s.homeRead pa 4
  if s.engBarred k then .error .wait
  else if s.homeHeld (s.cmdKey k) pa then .error (.hold pa)
  else if s.poisoned pa 4 then .error .poison
  else if word / 2 ^ 31 = 1 then .error .fail
  else if word % 65536 = 65535 then .error .wait
  else .ok (s.homeStepLE pa 4 (word + 1), { k with pin := some (BitVec.ofNat 45 pa) })

/-- The unpin of a block, a device access of the engine as its pin was (R16, R233). -/
def State.unpinUnit (s : State) (k : Cmd) (pa : Nat) : UnitRes :=
  if s.engBarred k then .error .wait
  else if s.homeHeld (s.cmdKey k) pa then .error (.hold pa)
  else .ok (s.unpinStep pa, { k with pin := none, buf := [] })

/-- GATH: one granule of 32 bytes; a block's first granule comes after its entry and its pin, and its unpin after its last granule is
written, for which a byte stands in `buf` (R231, R233). -/
def State.gathUnit (s : State) (k : Cmd) (w : Nat) (part : BitVec 2) : UnitRes :=
  let (off, len) := gathPart w part
  let grans := len / 32
  let j := k.progress / grans
  let g := k.progress % grans
  let pool := descSBase k.d0
  let tab := descSBase k.d1
  let dst := (descDBase k.d0 : Int) + j * descDStride k.d0 0 * strideUnit (descDUnit k.d0) + 32 * g
  let lay := descLayout k.d0
  match s.poolOf s.core.asid pool with
  | none => .error .fail
  | some r =>
    if pool % 8192 ≠ 0 || tab % 4 ≠ 0 then .error .fail
    else
      let zeros := fun (s : State) (k : Cmd) =>
        match s.engWrite k false dst (List.replicate 32 0) lay with
        | .error x => .error x
        | .ok (s, k) => .ok (s, k.next 1)
      let copy := fun (s : State) (k : Cmd) (pin : BitVec 45) =>
        let b := (pin.toNat - r.stateBase.toNat) / 4
        match s.engRead k true ((pool : Int) + 8192 * b + off + 32 * g) 32 0 with
        | .error x => .error x
        | .ok (bs, k) =>
          match s.engWrite k false dst bs lay with
          | .error x => .error x
          | .ok (s, k) => .ok (s, { k.next 1 with buf := if g + 1 = grans then [0] else [] })
      match k.pin with
      | some pin => if k.buf.isEmpty then copy s k pin else s.unpinUnit k pin.toNat
      | none =>
        if g ≠ 0 then zeros s k
        else
          let va := tab + 4 * (field k.d1 0 22 + j)
          match s.core.bmcFind va with
          | none => s.tableEntry k va (zeros s)
          | some e =>
            if r.nslot.toNat ≤ e.entry.toNat then .error .fail
            else (s.mapCore (·.bmcPut e)).pinStep k (r.stateBase.toNat + 4 * e.entry.toNat)

/-! ### FEED and DRAIN (R234, R235) -/

/-- The tag of a FEED's lines (R234). -/
def feedTag (d : BitVec 512) (cv : BitVec 3) : BitVec 4 :=
  match cv.toNat with
  | 1 => tagBF16
  | 2 => tagFP16
  | 3 => tagT8
  | 4 => tagT6
  | _ => BitVec.ofNat 4 (descFmt d)

/-- The line bytes of one source unit, and the matrix flags of its conversion (R234). -/
def feedBytes (d : BitVec 512) (cv : BitVec 3) (bs : List Byte) : List Byte × BitVec 4 :=
  let fmt := BitVec.ofNat 4 (descFmt d)
  if cv = 0 then
    if fmt = tagT6 then ((List.range 4).map fun i => BitVec.ofNat 8 (leNat bs / 64 ^ i % 64), 0) else (bs, 0)
  else
    let t := feedTag d cv
    let (c, f) := writeElem t 0 .rne (readElem fmt 0 (leNat bs))
    (leBytes (tagW t / 8) c, matrixFlags f)

/-- FEED: one unit into the line being built (R234). DEDUCED: log 42. -/
def State.feedUnit (s : State) (k : Cmd) (sdev : Bool) (cv : BitVec 3) : UnitRes :=
  if k.buf.length ≥ 256 then .error .wait
  else
    let p := nestPoint k.d0 k.progress
    let e := unitSize (descFmt k.d0)
    match (if p.pad then .ok (List.replicate e 0, k) else s.engRead k sdev p.s e (if sdev then 0 else descLayout k.d0)) with
    | .error x => .error x
    | .ok (bs, k) =>
      let (l, f) := feedBytes k.d0 cv bs
      .ok (s, { k.next 1 with buf := k.buf ++ l, flags := k.flags ||| f })

/-- The accumulator that a DRAIN reads, as it stood at the DRAIN's issue (R76): one that was retired, or live with retire-pending and
since retired by a checkpoint (R186). -/
def State.drainSource (s : State) (k : Cmd) (a : BitVec 2) : Except EngStop Acc :=
  match k.snap with
  | none => .error .fail
  | some x =>
    match x.st, (s.core.acc.read a).st with
    | .retired, _ => .ok x
    | .liveRet, .retired => .ok x
    | .liveRet, .empty => .error .fail
    | .liveRet, _ => .error .wait
    | _, _ => .error .fail

/-- DRAIN: one point of a retired accumulator (R186, R235). -/
def State.drainUnit (s : State) (k : Cmd) (a : BitVec 2) (cv : BitVec 3) : UnitRes :=
  match s.drainSource k a with
  | .error x => .error x
  | .ok acc =>
  match popTag acc.ty cv.toNat with
  | some t =>
    let p := nestPoint k.d0 k.progress
    if !p.pad && !(0 ≤ p.s && p.s < 32768) then .error .fail
    else if !p.pad && s.core.linePoison.contains (.acc a (BitVec.ofNat 7 (p.s.toNat / 256))) then .error .poison
    else
      let (c, f) := if p.pad then (0, 0) else popElem acc.ty t k.efmt (accElem acc.bits p.s.toNat)
      match s.engWrite k false p.t (leBytes (tagW t / 8) c) (descLayout k.d0) with
      | .error x => .error x
      | .ok (s, k) => .ok (s, { k.next 1 with flags := k.flags ||| f })
  | none => .error .fail

/-! ### Links (R236, R237) -/

/-- Whether a link command ends in error at start (R236). DEDUCED: log 41. -/
def State.linkBad (s : State) (w : Word) : Bool :=
  let p := (linkPort w).toNat
  p ≥ 12 || p / 3 ≠ (dieOf s.coreTile).toNat || (s.ports.read (linkPort w)).state ≠ 2 || field w 60 4 ≠ 0 || field w 24 8 ≠ 0 ||
    linkLen w > 32768 || linkAddr w % 64 ≠ 0

/-- Posts a link command (R237). One of length 0 that is also wrong in another field ends in error (R236). DESIGN CHOICE: log 124. -/
def State.linkUnit (s : State) (k : Cmd) (eng : BitVec 1) (send : Bool) : UnitRes :=
  if s.linkBad k.link then .error .fail
  else if linkLen k.link = 0 then .ok (s, { k with done := true })
  else if linkAddr k.link + 64 * linkLen k.link > 0x200000 then
    .error (.trap .spadRange (BitVec.ofNat 64 (linkAddr k.link)))
  else if s.linkWaits.any fun w => w.tile = s.coreTile && w.cmd = k.id then .error .wait
  else .ok ({ s with linkWaits := s.linkWaits ++ [⟨s.coreTile, eng, k.id, linkPort k.link, linkChan k.link, send⟩] }, k)

/-- The sum that LRXADD writes for one element, by its format operand (R238). -/
def linkSum (f : BitVec 3) (x y : Nat) : Nat :=
  let add := fun (m : Fmt) => (m.finish .rne (FVal.add .rne (m.decode x) (m.decode y))).1
  match f.toNat with
  | 0 => add fmtFP32
  | 1 => add fmtBF16
  | 2 => add fmtFP16
  | _ => (x + y) % 2 ^ 32

/-- Bytes of an element of LRXADD. -/
def linkElem (f : BitVec 3) : Nat := if f = 1 || f = 2 then 2 else 4

/-- LRXADD: the next element, in increasing address: the received element is added to the one in place (R238). `buf` holds what has been received
and not added yet. -/
def State.linkAddUnit (s : State) (k : Cmd) (f : BitVec 3) : UnitRes :=
  let z := linkElem f
  let a : Int := linkAddr k.link + (k.progress - 1)
  match s.engRead k false a z 0 with
  | .error x => .error x
  | .ok (old, k) =>
    match s.engWrite k false a (leBytes z (linkSum f (leNat old) (leNat (k.buf.take z)))) 0 with
    | .error x => .error x
    | .ok (s, k) => .ok (s, { k.next z with buf := k.buf.drop z })

/-! ## Running a queue -/

/-- Units of a command (R213). -/
def Cmd.total (k : Cmd) : Nat :=
  match k.i with
  | .gath _ _ _ _ w p => descCount k.d0 0 * ((gathPart (32 * (w.toNat + 1)) p).2 / 32)
  | .cpym .. => if descMcast k.d0 = 0 then 0 else descProduct k.d0
  | .lsend .. => 1
  | .lrecv .. => 1
  | .lrxadd .. => 1
  | _ => descProduct k.d0

/-- One unit of a running command of the focused core. -/
def State.unit (s : State) (k : Cmd) (eng : BitVec 1) : UnitRes :=
  match k.i with
  | .cpy _ _ _ _ e f l => s.cpyUnit k (e = 1) (f = 1) (l = 1)
  | .cpym _ _ _ _ e => s.cpymUnit k (e = 1)
  | .cpyq _ _ _ _ e f l => s.cpyqUnit k (e = 1) (f = 1) (l = 1)
  | .cpyx _ _ _ _ e f => s.cpyxUnit k (e = 1) (f = 1)
  | .gath _ _ _ _ w p => s.gathUnit k (32 * (w.toNat + 1)) p
  | .feed _ _ _ _ e c _ => s.feedUnit k (e = 1) c
  | .drain _ _ _ _ a c => s.drainUnit k a c
  | .lsend .. => s.linkUnit k eng true
  | .lrecv .. => s.linkUnit k eng false
  | .lrxadd _ _ _ _ f => if k.buf.isEmpty then s.linkUnit k eng false else s.linkAddUnit k f
  | _ => .error .fail

/-- Whether every unit is done and nothing is left in the command's buffer. -/
def Cmd.exhausted (k : Cmd) : Bool := k.total ≤ k.progress && k.buf.isEmpty && k.pend.isEmpty

def Core.queue (c : Core) (e : BitVec 1) : List Cmd := if e = 1 then c.q1 else c.q0
def Core.setQueue (c : Core) (e : BitVec 1) (q : List Cmd) : Core := if e = 1 then { c with q1 := q } else { c with q0 := q }
def Core.putCmd (c : Core) (e : BitVec 1) (k : Cmd) : Core := c.setQueue e ((c.queue e).map fun x => if x.id = k.id then k else x)

/-- The command that an engine runs, or the one that it may start: the first that is not a gated command awaiting its release (R211,
R214). -/
def Core.headCmd (c : Core) (e : BitVec 1) : Option Cmd :=
  match (c.queue e).find? (·.started) with
  | some k => some k
  | none => (c.queue e).find? fun k => !(k.gated && !k.released)

/-- Whether a command is a gated copy, which the first checkpoint of an irrevocable operation releases (R199, R214). -/
def Cmd.isGatedCopy (k : Cmd) : Bool :=
  k.gated && (match k.i with | .cpy .. => true | .cpym .. => true | .cpyq .. => true | .cpyx .. => true | _ => false)

/-- Whether a copy that context `n` issued before phase `ph`, and that a checkpoint has released, has still to complete (R199). -/
def Core.copiesOut (c : Core) (n : BitVec 2) (ph : Nat) : Bool :=
  (c.q0 ++ c.q1).any fun k => k.ctx = n && k.released && k.isGatedCopy && decide (k.phase < ph)

/-- Whether a command may start: its consumed marks are ready, none is its own, and the stores released with it have performed (R211,
R259); an LSEND comes after the stores and the gated copies that its first checkpoint released (R199). -/
def Core.mayStart (c : Core) (k : Cmd) : Bool :=
  (marksOf k.ms).all (fun m => m ≠ k.mark && c.sh.mready.getLsbD m.toNat) &&
    (!k.gated || (c.ctx k.ctx).released.all fun e => e.phase > k.phase) &&
    (match k.i with
     | .lsend .. => ((c.ctx k.ctx).released.all fun e => k.phase ≤ e.phase) && !c.copiesOut k.ctx k.phase
     | _ => true)

/-- The trap or record of a unit that does not go on. DEDUCED: log 40. -/
def State.engStop (s : State) (k : Cmd) (eng : BitVec 1) (x : EngStop) : State :=
  let unit : BitVec 8 := 4 + eng.setWidth 8
  let trap := fun (s : State) (c : Cause) (va : BitVec 64) => s.takeTrap ⟨c, unit, va, 0⟩ k.ctx (s.core.ctx k.ctx).ix
  match x with
  | .park va acc => s.miss k.ctx (4 + eng.setWidth 3) k.id va acc k.progress
  | .trap c va => trap s c va
  | .fail => s.mapCore (·.putCmd eng { k with err := true, done := true, buf := [] })
  | .poison => trap (s.mapCore (·.putCmd eng { k with err := true, done := true, buf := [] })) .dataUe 0
  | .hold pa => s.arriveHeld (s.cmdKey k) pa
  | .wait => s

/-- Some of the scratchpad bytes of a command's unit perform, a free choice of them (R248). A tile that has been fenced or fused off since
takes none: a CPYM goes on without it, with its error noted, and any other command ends in error; one that is no longer the team's gives
PROT (R213, R222, R399). -/
def State.engPerform (s : State) (k : Cmd) (eng : BitVec 1) : State :=
  let (barred, open_) := k.pend.partition fun w => s.byteGone w.1 = some .prot
  match (if s.core.frozen.isNone then barred.head? else none) with
  | some w => s.engStop k eng (.trap .prot (BitVec.ofNat 64 (0x800000 + 0x200000 * (memberOf w.1).toNat + w.2.1)))
  | none =>
    let (now, rest, s) := s.chooseSome open_
    let lost := now.any fun w => (s.byteGone w.1).isSome
    let s := now.foldl (fun (s : State) w =>
      if (s.byteGone w.1).isSome then s else s.setCoreAt w.1 ((s.coreAt w.1).spadPut true [(w.2.1, w.2.2)])) s
    s.mapCore (·.putCmd eng (match k.i, lost with
      | .cpym .., _ => { k with err := k.err || lost, pend := rest ++ barred }
      | _, true => { k with err := true, done := true, buf := [], pend := [] }
      | _, false => { k with pend := rest ++ barred }))

/-- Whether the units in hand of a core's commands go on: in a frozen core too, up to their boundaries (R384). -/
def Core.unitsLand (c : Core) : Bool := c.bound && (match c.save with | .writing => false | .waiting => false | _ => true)

/-- Whether the unit in hand of a command has bytes to perform. -/
def State.unitOpen (s : State) (k : Cmd) : Bool :=
  k.started && !k.done && k.pend.any fun w => s.core.frozen.isNone || s.byteGone w.1 ≠ some .prot

/-- Engines of a core run unless the core is frozen or its member is being saved (R344, R384). -/
def Core.enginesRun (c : Core) : Bool :=
  c.bound && c.frozen.isNone && (match c.save with | .writing => false | .waiting => false | _ => true)

/-- Starts the command at the head, or performs scratchpad bytes of its unit in hand, or does its next unit (R211, R248). DESIGN CHOICE:
log 35. -/
def State.engineStep (s : State) (eng : BitVec 1) : State :=
  match s.core.headCmd eng with
  | none => s
  | some k =>
    if s.core.unitsLand && s.unitOpen k then s.engPerform k eng
    else if !s.core.enginesRun || k.done then s
    else if !k.started then (if s.core.mayStart k then s.mapCore (·.putCmd eng { k with started := true }) else s)
    else if k.exhausted then s.mapCore (·.putCmd eng { k with done := true })
    else if k.total ≤ k.progress && (match k.i with | .feed .. => true | _ => false) then s
    else
      match s.unit k eng with
      | .error x => s.engStop k eng x
      | .ok (t, j) => (t.leaveHeld (s.cmdKey k)).mapCore (·.putCmd eng j)

/-- ENGINE_COMMAND_START: the step of an engine that starts a command, or goes on with one (R211, R213). -/
def execEngineCommandStart (s : State) : Result := .next ((s.focus s.ev.tile).engineStep s.ev.eng)

/-! ## Lines (R31, R234) -/

/-- A line enters a FIFO that has room; when only a retained line gives it, the oldest is dropped. -/
def Fifo.put (f : Fifo) (l : FLine) : Option (Fifo × Bool) :=
  if f.held.length ≥ 128 then none
  else if f.held.length + f.retained.length ≥ 128 then some (⟨f.held ++ [l], f.retained.drop 1⟩, true)
  else some (⟨f.held ++ [l], f.retained⟩, false)

/-- Whether a FEED has a line to write: a full one, or the last (R234). -/
def Cmd.lineDue (k : Cmd) : Bool :=
  match k.i with
  | .feed .. => k.started && !k.done && (k.buf.length ≥ 256 || (k.total ≤ k.progress && !k.buf.isEmpty))
  | _ => false

/-- Whether the FIFO of a FEED has room for a line (R31). -/
def Core.feedRoom (c : Core) (k : Cmd) : Bool :=
  match k.i with
  | .feed _ _ _ _ _ _ f => decide ((if f = 1 then c.fb else c.fa).held.length < 128)
  | _ => false

/-- Writes the next line of a FEED into its FIFO, padded at the end with zeros. A line of a tail's FEED stands outside the main context's
phases: a rollback of either context leaves it, and a FEED that the tail issues again delivers its lines again. DESIGN CHOICE: log 107. -/
def Core.feedLine (c : Core) (eng : BitVec 1) : Core :=
  match c.headCmd eng with
  | none => c
  | some k =>
    match k.i with
    | .feed _ _ _ _ _ cv f =>
      if c.enginesRun && k.lineDue then
        let phase := if k.ctx = 0 then k.phase + 1 else 0
        let line : FLine := ⟨feedTag k.d0 cv, ofBytes 2048 (k.buf.take 256), phase, false⟩
        match (if f = 1 then c.fb else c.fa).put line with
        | none => c
        | some (q, dropped) =>
          let c := c.putCmd eng { k with buf := k.buf.drop 256 }
          let c := if f = 1 then { c with fb := q } else { c with fa := q }
          if dropped && c.main.unprot = .safe then { c with main := { c.main with unprot := .fifo } } else c
      else c
    | _ => c

/-- FEED_LINE_WRITE (R31, R234). -/
def execFeedLineWrite (s : State) : Result := .next ((s.focus s.ev.tile).mapCore (·.feedLine s.ev.eng))

/-! ## Completion (R211, R223, R243) -/

/-- Whether the version reads of a command make it stale (R243). -/
def Cmd.isStale (k : Cmd) : Bool :=
  k.vers.any (fun x => x.v1 ≠ x.v2) ||
    (match k.vers with
     | x :: _ => descVersion k.d0 ≠ 0xFFFFFFFF && x.v1.toNat ≠ descVersion k.d0
     | [] => false)

/-- Whether a CPYM that is done still has to make its arrivals, or has one on its way. -/
def State.arriving (s : State) (k : Cmd) : Bool :=
  match k.i with
  | .cpym .. => s.arrivals.any fun a => a.2 = k.mark && quadOf a.1 = quadOf s.coreTile
  | _ => false

/-- The arrivals that a CPYM makes when its last byte is written (R223). -/
def State.arrivalsOf (s : State) (k : Cmd) : List (BitVec 7 × BitVec 6) :=
  match k.i with
  | .cpym .. =>
    if k.total = 0 || k.progress < k.total || k.sent then []
    else ((s.receivers k).filter fun m => (s.windowTrap m).isNone).map fun m => (quadMate s.coreTile m, k.mark)
  | _ => []

/-- The command at the head that is done completes: its flags, its pin and its mark. A CPYM first sends its arrivals and waits for
them. -/
def State.engineComplete (s : State) (eng : BitVec 1) : State :=
  match s.core.headCmd eng with
  | none => s
  | some k =>
    if !k.done then s
    else if !(s.arrivalsOf k).isEmpty then
      ({ s with arrivals := s.arrivals ++ s.arrivalsOf k }).mapCore (·.putCmd eng { k with sent := true })
    else if s.arriving k then s
    else if k.pin.isSome then
      match s.unpinUnit k (k.pin.getD 0).toNat with
      | .error x => s.engStop k eng x
      | .ok (t, j) => (t.leaveHeld (s.cmdKey k)).mapCore (·.putCmd eng j)
    else
      let bits : BitVec 2 := (if k.isStale then 1 else 0) ||| (if k.err then 2 else 0)
      s.mapCore fun c =>
        let c := c.setQueue eng ((c.queue eng).filter fun x => x.id ≠ k.id)
        (c.flagsDone k.flags k.mphase).markDone k.mark bits k.mphase

/-- ENGINE_COMMAND_COMPLETE (R32, R211). -/
def execEngineCommandComplete (s : State) : Result := .next ((s.focus s.ev.tile).engineComplete s.ev.eng)

/-- A multicast arrival sets the receiver's bit at once, in both register sets (R32, R223). -/
def Core.arrival (c : Core) (m : BitVec 6) : Core :=
  let bit := BitVec.ofNat 64 (2 ^ m.toNat)
  if c.bound then { c with sh := { c.sh with mready := c.sh.mready ||| bit }, mcast := c.mcast ||| bit } else c

/-- MULTICAST_ARRIVAL: one arrival on its way to a tile. -/
def execMulticastArrival (s : State) : Result :=
  .next <|
    match s.arrivals.find? fun a => a.1 = s.ev.tile with
    | none => s
    | some a => { s with arrivals := s.arrivals.erase a }.setCoreAt a.1 ((s.coreAt a.1).arrival a.2)

end Sys2Proof.Machine
end

