-- ==== Sys2Proof/Machine/Homes.lean ====
section
/-!
DEFINITION. What performs at homes and peers: the order in which requests may perform (R251 to R257), the home steps of atomics (R201),
once-cells (R358) and work queues (R332), window accesses (R262), released holding-buffer entries (R252), other writes (R278) and RDMA
(R263, R417).
-/
namespace Sys2Proof.Machine

/-! ## Accesses of agents at homes -/

/-- What a walk at home answers for an address: its physical address and leaf, the address at which home holds the walk, or nothing. -/
inductive PaRes where
  | ok (pa : Nat) (leaf : BitVec 64)
  | held (pa : Nat)
  | none

/-- The walk of the access `key` at home (R337). -/
def State.walkPa (s : State) (key : HeldAcc) (asid : BitVec 8) (va : Nat) : PaRes :=
  match s.pageWalk key asid va with
  | .ok leaf level => .ok (leafBase leaf + va % 2 ^ pageBits level) leaf
  | .wait pa => .held pa
  | _ => .none

/-- The access `key` at a home performs by `k`, or is held there in arrival order (R354, R405, R419). -/
def State.atHome (s : State) (key : HeldAcc) (pa : Nat) (k : State → State) : State :=
  if s.homeHeld key pa then s.arriveHeld key pa else k s

/-- The name under which home holds a request of the focused core. -/
def State.reqKey (s : State) (r : Req) : HeldAcc := .req s.coreTile r.id r.progress

/-- The state after `f` has run with the core of tile `t` in focus. -/
def State.onTile (s : State) (t : BitVec 7) (f : State → State) : State := (f (s.focus t)).focus s.coreTile

/-! ## The order of requests (R251 to R257, R262) -/

/-- Whether request `q` comes before `r` in program order and has not performed. -/
def Req.blocks (q r : Req) : Bool := q.ctx = r.ctx && q.id < r.id && q.discard = r.discard && q.result.isNone

/-- Whether a request is a pop of a work queue, after which every later device access comes (R332). -/
def Req.isPop (r : Req) : Bool := match r.kind with | .pop _ => true | _ => false

/-- Whether a request makes no access to memory, or none that program order covers. -/
def Req.isQuiet (r : Req) : Bool :=
  match r.kind with
  | .wstat => true
  | .barrier => true
  | .trigger => true
  | .kvapp _ => true
  | _ => false

/-- Whether a copy that a checkpoint of the request's context has released before it has still to complete; an SC gather or scatter closes its own
phase before it goes out (R195, R199). -/
def Core.copiesBefore (c : Core) (r : Req) : Bool :=
  c.copiesOut r.ctx (r.phase + match r.kind with | .gather _ => 1 | .scatter _ => 1 | _ => 0)

/-- Whether the requests and stores before a request allow it to perform: those of its class and those of an earlier phase, pops, SC
accesses, fences, and for an irrevocable one the stores and the copies released before it; the stores are for TRIGGER those of every context.
A gather or scatter of the same bundle that waits for its own first checkpoint stands behind an irrevocable one, whose second checkpoint that is
(R195, R199, R206, R209, R251, R254, R255). -/
def Core.mayPerform (c : Core) (r : Req) : Bool :=
  let goesOut := r.irrev || r.isPop
  let e := c.reqs.filter fun q => q.blocks r && !(goesOut && q.scWaits)
  let dev := e.filter Req.isDevice
  (match r.kind with
   | .barrier => e.all Req.isQuiet
   | .trigger => e.all Req.isQuiet
   | _ => if r.sc then dev.isEmpty else dev.all fun q => q.cls ≠ r.cls && q.phase = r.phase && !q.isPop && !q.sc) &&
  (!goesOut || ((c.ctx r.ctx).released.isEmpty && !c.copiesBefore r)) &&
  (match r.kind with | .trigger => c.main.released.isEmpty && c.tail0.released.isEmpty && c.tail1.released.isEmpty | _ => true) &&
  (r.isDevice && c.behindFence r.id) = false

/-- A request of the core by number. -/
def Core.req (c : Core) (id : Nat) : Option Req := c.reqs.find? fun r => r.id = id

/-- The core with a request replaced by a later version of itself. -/
def Core.putReq (c : Core) (r : Req) : Core := { c with reqs := c.reqs.map fun q => if q.id = r.id then r else q }

/-- The core without a request. -/
def Core.dropReq (c : Core) (id : Nat) : Core := { c with reqs := c.reqs.filter fun r => r.id ≠ id }

/-- The request that an event names, once nothing holds it back. DEDUCED: log 77. -/
def State.performable (s : State) (id : Nat) (k : Req → State) : State :=
  match s.core.req id with
  | some r => if r.result.isNone && s.core.mayPerform r then k r else s
  | none => s

/-- The single address of a request with one piece. -/
def Req.home (r : Req) : Nat := match r.pas with | p :: _ => p.2.toNat | [] => 0

/-- A home step found poisoned data: DATA_UE when the reply arrives (R380). -/
def Req.damaged (r : Req) : Req := { r with mask := 1 }

/-! ## Atomics (R201, R202, R196) -/

/-- One element of a VATOM or the doubleword of an ATOM at its home. -/
def State.atomAt (s : State) (pa n op x y : Nat) : Nat × State :=
  let old := s.homeRead pa n
  let new := atomNew op (8 * n) old x y
  (old, if op = 9 && old ≠ x then s else s.homeStepLE pa n new)

/-- The next element of an indexed access: its physical address and leaf once translated, else its miss is recorded with the element's index
(R341, R342). -/
def State.element (s : State) (r : Req) (acc : Access) (e : Nat × BitVec 64) (k : Nat → BitVec 64 → State) : State :=
  match s.physOf e.2.toNat with
  | some (pa, leaf) => k pa leaf
  | none => s.miss r.ctx 6 r.id e.2 acc e.1

/-- The unit of the trap of a request: that of its slot (R385). -/
def slotUnit (slot : BitVec 3) : BitVec 8 :=
  match slot.toNat with
  | 0 => 6 | 1 => 0 | 2 => 1 | 3 => 2 | 4 => 3 | 5 => 7 | 6 => 4 | _ => 5

/-- Whether a request outlasts its own trap: a KVAPP whose trap freezes its core, which a kill finds with the slot that it has popped (R383). -/
def State.outlasts (s : State) (r : Req) (c : Cause) : Bool :=
  (match r.kind with | .kvapp _ => true | _ => false) && (match c.cls with | .freeze => true | _ => false) && s.core.frozen.isNone

/-- A trap that a request meets after its bundle, on its context; the trap finds it among the core's requests, and then it is gone. DESIGN
CHOICE: log 48. -/
def State.reqTrap (s : State) (r : Req) (c : Cause) (va : BitVec 64) : State :=
  let t := s.takeTrap ⟨c, slotUnit r.slot, va, 0⟩ r.ctx (s.core.ctx r.ctx).ix
  if s.outlasts r c then t else t.mapCore (·.dropReq r.id)

/-- The home step of an atomic request. An element on an SC page makes a VATOM an SC access from there on (R254). -/
def State.atomStep (s : State) (r : Req) : State :=
  match r.kind with
  | .atom op =>
    s.atHome (s.reqKey r) r.home fun s =>
    if s.poisoned r.home 8 then s.mapCore (·.putReq { r.damaged with result := some (0, 0) })
    else
      let (old, s) := s.atomAt r.home 8 op.toNat r.x.toNat r.y.toNat
      s.mapCore (·.putReq { r with result := some (BitVec.ofNat 64 old, 0) })
  | .vatom op t =>
    let n := tagW t / 8
    match r.addrs[r.progress]? with
    | none => s.mapCore (·.putReq { r with result := some (0, 0) })
    | some e =>
      s.element r .atom e fun pa leaf =>
        match attrTrap leaf .atom with
        | some c => s.reqTrap r c e.2
        | none =>
          if leafSC leaf && !r.sc then s.mapCore (·.putReq { r with sc := true })
          else
            s.atHome (s.reqKey r) pa fun s =>
            if s.poisoned pa n then s.mapCore (·.putReq { r.damaged with result := some (0, 0) })
            else
            let (old, s) := s.atomAt pa n op.toNat (field r.bits (8 * n * e.1) (8 * n)) 0
            let r := { r with bits := setField r.bits (8 * n * e.1) (8 * n) old, progress := r.progress + 1 }
            s.mapCore (·.putReq (if r.progress = r.addrs.length then { r with result := some (0, 0) } else r))
  | _ => s

/-- ATOM_HOME_STEP: an ATOM, or the next element of a VATOM, performs. A merged group performs as its members one after another, so it
needs no step of its own (R202). DEDUCED: log 74. -/
def execAtomHomeStep (s : State) : Result :=
  let s := s.focus s.ev.tile
  .next (s.performable s.ev.id fun r => s.atomStep r)

/-! ## Once-cells (R356 to R359) -/

/-- The halves of a cell: value, generation, and the winner and state of CTL or ACTL. -/
structure OnceHalf where
  value : Word
  gen : BitVec 32
  ctl : BitVec 32

def OnceHalf.state (h : OnceHalf) : BitVec 2 := h.ctl.extractLsb' 0 2
def OnceHalf.wtile (h : OnceHalf) : BitVec 13 := h.ctl.extractLsb' 4 13
def OnceHalf.wctx (h : OnceHalf) : BitVec 2 := h.ctl.extractLsb' 30 2
/-- A state of 2 or 3, or a reserved bit, damages a cell (R357). -/
def OnceHalf.bad (h : OnceHalf) : Bool := 2 ≤ h.state.toNat || field h.ctl 2 2 ≠ 0 || field h.ctl 17 13 ≠ 0
def OnceHalf.bytes (h : OnceHalf) : List Byte := bytesOf h.value 8 ++ bytesOf h.gen 4 ++ bytesOf h.ctl 4

def State.onceHalf (s : State) (pa : Nat) : OnceHalf :=
  ⟨BitVec.ofNat 64 (s.homeRead pa 8), BitVec.ofNat 32 (s.homeRead (pa + 8) 4), BitVec.ofNat 32 (s.homeRead (pa + 12) 4)⟩

/-- The answer of `cell_step` (R358): the value, the status word, and the cell's halves after it. -/
def cellStep (op : BitVec 2) (g : BitVec 32) (x : Word) (wctx : BitVec 2) (wtile : BitVec 13) (c a : OnceHalf) :
    Word × Word × Option (OnceHalf × OnceHalf) :=
  let plain := fun (st : BitVec 3) => ((0 : Word), onceStatus c.gen 0 0 st, (none : Option (OnceHalf × OnceHalf)))
  let with_ := fun (h : OnceHalf) (st : BitVec 3) => (h.value, onceStatus c.gen h.wctx h.wtile st, (none : Option (OnceHalf × OnceHalf)))
  if c.gen < g then plain 4
  else if g = c.gen then
    if c.state = 0 then
      if op = 0 then (x, onceStatus c.gen wctx wtile 0, some (⟨x, c.gen, wctx ++ 0#13 ++ wtile ++ 0#2 ++ 1#2⟩, a))
      else plain 6
    else if op = 2 then
      if c.gen = 0xFFFFFFFF#32 then plain 3
      else (c.value, onceStatus c.gen c.wctx c.wtile 7, some (⟨0, c.gen + 1, 0⟩, c))
    else with_ c (if op = 0 then 1 else 5)
  else if op ≠ 2 && a.state = 1 && a.gen = g then with_ a (if op = 0 then 2 else 5)
  else plain 3

/-- The home step of a once-cell request; a damaged cell changes nothing (R357). -/
def State.onceStep (s : State) (r : Req) : State :=
  match r.kind with
  | .once op =>
    let pa := r.home
    s.atHome (s.reqKey r) pa fun s =>
      let c := s.onceHalf pa
      let a := s.onceHalf (pa + 16)
      if c.bad || a.bad || s.poisoned pa 32 then s.mapCore (·.putReq { r.damaged with result := some (0, 0) })
      else
        let (v, st, w) := cellStep op (r.y.setWidth 32) r.x r.ctx (BitVec.ofNat 13 (podTile s.coreTile)) c a
        let s := match w with
          | some (c', a') => s.homeStep pa (c'.bytes ++ a'.bytes)
          | none => s
        s.mapCore (·.putReq { r with result := some (v, st) })
  | _ => s

/-- ONCE_CELL_HOME_STEP: whether a group merged cannot be observed from its answers, so members perform one by one (R359). -/
def execOnceCellHomeStep (s : State) : Result :=
  let s := s.focus s.ev.tile
  .next (s.performable s.ev.id fun r => s.onceStep r)

/-! ## Work queues (R331, R332) -/

/-- A work queue's header. -/
structure WorkQ where
  ring : Nat
  cap : Nat
  closed : Bool
  pushed : Nat
  popped : Nat
  ok : Bool

def State.workQ (s : State) (pa : Nat) : WorkQ :=
  let cap := s.homeRead (pa + 8) 4
  let flags := s.homeRead (pa + 12) 1
  { ring := s.homeRead pa 8, cap := cap, closed := flags % 2 = 1, pushed := s.homeRead (pa + 16) 8, popped := s.homeRead (pa + 24) 8
    ok := (List.range 25).any (fun i => cap = 2 ^ i) && flags / 2 = 0 && s.homeRead (pa + 13) 3 = 0 && s.homeRead (pa + 32) 32 = 0 }

/-- The device address of item `k`. -/
def WorkQ.item (q : WorkQ) (k : Nat) : Nat := q.ring + 8 * (k % q.cap)

/-- Items held. -/
def WorkQ.held (q : WorkQ) : Nat := (q.pushed + 2 ^ 64 - q.popped) % 2 ^ 64

/-- What a POPW finds: an item with its state, the answer CLOSED or EMPTY, or an item that cannot be reached. -/
inductive PopRes where
  | item (x : Word) (s : State)
  | closed
  | empty
  | miss (va : Nat)
  | trap (c : Cause) (va : Nat)
  | damaged
  | held (pa : Nat)

/-- The item at an address of a work queue, for the access `key`: its physical address, or what bars the access (R189, R332). -/
def State.itemAt (s : State) (key : HeldAcc) (asid : BitVec 8) (va : Nat) : Except PopRes Nat :=
  match s.walkPa key asid va with
  | .none => .error (.miss va)
  | .held pa => .error (.held pa)
  | .ok ia leaf =>
    match attrTrap leaf .queue with
    | some c => .error (.trap c va)
    | none => if s.homeHeld key ia then .error (.held ia) else .ok ia

/-- POPW at the header's home, without waiting. A RING that is not 8-byte aligned is used as it stands. DEDUCED: log 49. DESIGN CHOICE:
log 91. -/
def State.popAt (s : State) (key : HeldAcc) (asid : BitVec 8) (pa : Nat) : PopRes :=
  let q := s.workQ pa
  if s.homeHeld key pa then .held pa
  else if s.poisoned pa 64 then .damaged
  else if !q.ok then .closed
  else if q.held ≠ 0 then
    match s.itemAt key asid (q.item q.popped) with
    | .error e => e
    | .ok ia =>
      if s.poisoned ia 8 then .damaged
      else .item (BitVec.ofNat 64 (s.homeRead ia 8)) (s.homeStepLE (pa + 24) 8 (q.popped + 1))
  else if q.closed then .closed
  else .empty

/-- A pop has its answer; it has gone out (R199). -/
def Core.popped (c : Core) (r : Req) (x st : Word) : Core :=
  (c.putReq { r with result := some (x, st), waiting := false }).mapCtx r.ctx fun k =>
    if r.discard then k else { k with irrevOut := true }

/-- A waiting POPW.b runs again: it takes an item or CLOSED, or goes on waiting. -/
def State.serve (s : State) (w : BitVec 45 × BitVec 7 × Nat) : State :=
  s.onTile w.2.1 fun s =>
    match s.core.req w.2.2 with
    | none => s
    | some r =>
      let done := fun (s : State) (r : Req) (x st : Word) => { s with waiters := s.waiters.erase w }.mapCore (·.popped r x st)
      match s.popAt (s.reqKey r) (r.y.setWidth 8) w.1.toNat with
      | .item x s => done s r x 0
      | .closed => done s r 0 2
      | .empty => s
      | .miss va => s.miss r.ctx 6 r.id (BitVec.ofNat 64 va) .queue 0
      | .trap c va => { s with waiters := s.waiters.erase w }.reqTrap r c (BitVec.ofNat 64 va)
      | .damaged => done s r.damaged 0 0
      | .held _ => s

/-- The waiters of a queue, oldest first, after a push or a close (R332). -/
def State.serveAll (s : State) (pa : Nat) : State :=
  (s.waiters.filter fun w => w.1.toNat = pa).foldl (fun s w => s.serve w) s

/-- POPW's home step. -/
def State.popStep (s : State) (r : Req) (block : Bool) : State :=
  match s.popAt (s.reqKey r) (r.y.setWidth 8) r.home with
  | .item x s => s.mapCore (·.popped r x 0)
  | .closed => s.mapCore (·.popped r 0 2)
  | .empty =>
    if block then { s with waiters := s.waiters ++ [(BitVec.ofNat 45 r.home, s.coreTile, r.id)] }.mapCore (·.putReq { r with waiting := true })
    else s.mapCore (·.popped r 0 1)
  | .miss va => if r.discard then s else s.miss r.ctx 6 r.id (BitVec.ofNat 64 va) .queue 0
  | .trap c va => s.reqTrap r c (BitVec.ofNat 64 va)
  | .damaged => s.mapCore (·.popped r.damaged 0 0)
  | .held pa => s.arriveHeld (s.reqKey r) pa

/-- A POPW.b whose translation an invalidation has dropped while it waited is translated anew before it waits again (R340). -/
def State.popTranslate (s : State) (r : Req) : State :=
  s.element r .queue (0, r.va) fun pa leaf =>
    match attrTrap leaf .queue with
    | some c => s.reqTrap r c r.va
    | none => s.mapCore (·.putReq { r with pas := [(0, BitVec.ofNat 45 pa)] })

/-- PUSHW's home step: the item and the header change in one step (R248, R277, R332). -/
def State.pushStep (s : State) (r : Req) (close : Bool) : State :=
  let pa := r.home
  let q := s.workQ pa
  let done := fun (s : State) (st : Word) => s.mapCore (·.putReq { r with result := some (0, st) })
  let at_ := fun (a : Nat) (bs : List Byte) => bs.zipIdx.map fun b => (a + b.2, b.1)
  let shut := if close then at_ (pa + 12) [1] else []
  s.atHome (s.reqKey r) pa fun s =>
  if s.poisoned pa 64 then s.mapCore (·.putReq { r.damaged with result := some (0, 0) })
  else if !q.ok || q.closed then done s 2
  else if q.held = q.cap then
    if close then (done (s.homeCells shut) 1).serveAll pa else done s 1
  else
    match s.itemAt (s.reqKey r) (r.y.setWidth 8) (q.item q.pushed) with
    | .ok ia =>
      let item := at_ ia (leBytes 8 r.x.toNat)
      let head := shut ++ at_ (pa + 16) (leBytes 8 (q.pushed + 1))
      (done (s.homeCells (if ia < pa then item ++ head else head ++ item)) 0).serveAll pa
    | .error (.held a) => s.arriveHeld (s.reqKey r) a
    | .error (.trap c va) => s.reqTrap r c (BitVec.ofNat 64 va)
    | .error _ => if r.discard then s else s.miss r.ctx 6 r.id (BitVec.ofNat 64 (q.item q.pushed)) .queue 0

/-- WORK_QUEUE_HOME_STEP. A POPW.b of a rolled-back phase takes no item (R199); one that waits runs again when its queue has an item that it
could not reach before. -/
def execWorkQueueHomeStep (s : State) : Result :=
  let s := s.focus s.ev.tile
  .next <| s.performable s.ev.id fun r =>
    match r.kind with
    | .pop b => if r.pas.isEmpty then s.popTranslate r else if r.waiting then s.serveAll r.home else if b && r.discard then s else s.popStep r b
    | .push c => s.pushStep r c
    | _ => s

/-! ## Windows (R187, R190, R262) -/

/-- The members at whose scratchpads a window access has still to be applied, the next one first: a gather's element by element, which
has `x` 1. -/
def Req.members (r : Req) : List (BitVec 2) :=
  match r.kind with
  | .winLoad _ _ => [r.x.setWidth 2]
  | .winVLoad _ _ => [r.x.setWidth 2]
  | .winStore => [r.x.setWidth 2]
  | .gather t =>
    if r.x = 1 then
      (r.addrs.drop r.progress).filterMap fun e => match spadLoc e.2.toNat (tagW t / 8) with | .window m _ => some m | _ => none
    else []
  | _ => []

/-- Whether every earlier window access of the context to the peer has been applied, those of a rolled-back phase among them. -/
def Core.windowTurn (c : Core) (r : Req) : Bool :=
  c.reqs.all fun q => !(q.ctx = r.ctx && q.id < r.id &&
    (match r.members with | m :: _ => q.members.contains m | [] => false))

/-- The reply of a window access: the destination is written at once. -/
def State.windowReply (s : State) (r : Req) (f : State → State) : State := (f s).mapCore (·.dropReq r.id)

/-- A write of a scalar register by a reply: into the duplicate set too when the request's phase has closed (R25). -/
def State.replyS (s : State) (r : Req) (d : BitVec 6) (x : Word) : State :=
  if r.discard then s
  else s.mapCore fun c => c.mapCtx r.ctx fun k =>
    { k with regs := k.regs.setS d x, dup := if r.phase < k.phase then k.dup.setS d x else k.dup }

/-- A write of a predicate by a reply. -/
def State.replyP (s : State) (r : Req) (d : BitVec 6) (x : Bool) : State :=
  if r.discard then s
  else s.mapCore fun c => c.mapCtx r.ctx fun k =>
    { k with regs := k.regs.setP d x, dup := if r.phase < k.phase then k.dup.setP d x else k.dup }

/-- A change of a vector register by a reply; only the main context has one. -/
def State.replyV (s : State) (r : Req) (f : VReg → VReg) : State :=
  if r.discard then s
  else s.mapCore fun c =>
    let v : BitVec 5 := r.dst.setWidth 5
    let put := fun (q : Shared) => { q with v := q.v.write v (f (q.v.read v)) }
    { c with sh := put c.sh, dupSh := if r.phase < c.main.phase then put c.dupSh else c.dupSh }

/-- Elements under a tag put into a register; bits 7 and 6 of a T6 code are zero (R44). -/
def putElems (t : BitVec 4) (es : List (Nat × BitVec 64)) (src dst : VBits) : VBits :=
  es.foldl (fun (b : VBits) e => setField b (tagW t * e.1) (tagW t) (elemCode src t e.1)) dst

/-- What a window access meets when it is applied: a peer fenced or rebound since its issue (R187); an access on its way
to a member that is being saved still performs (R344). -/
def State.windowGone (s : State) (r : Req) (m : BitVec 2) : Option Cause :=
  let p := quadMate s.coreTile m
  if r.discard || bindState (s.bind p) = 4 then (if s.cutOff p then some .fenced else none) else s.windowTrap m

/-- WINDOW_ACCESS_ARRIVAL: a window access is applied at the peer; a gather's next element; a store's bytes each on its own, a free choice
of those that are left at a time (R250). -/
def State.windowStep (s : State) (r : Req) : State :=
  let m : BitVec 2 := r.x.setWidth 2
  let off := r.pa.toNat
  let at_ := fun (m : BitVec 2) (k : BitVec 7 → Core → State) =>
    let p := quadMate s.coreTile m
    match s.windowGone r m with
    | some c => if r.discard then s.mapCore (·.dropReq r.id) else s.reqTrap r c r.va
    | none => k p (s.coreAt p)
  match r.kind with
  | .winLoad n sx => at_ m fun _ c =>
    if c.spadPoisoned off n then s.reqTrap r .dataUe 0
    else s.windowReply r fun s => s.replyS r r.dst (extendLoad n sx (Memory.readLE c.spad off n))
  | .winVLoad t l => at_ m fun _ c =>
    if c.rowPoisoned off l.toNat then s.reqTrap r .dataUe 0
    else s.windowReply r fun s => s.replyV r fun _ => loadedV t (ofBytes 2048 (c.spadRow off l.toNat))
  | .winStore => at_ m fun p c =>
    let (now, rest, s) := s.chooseSome ((List.range 256).filter fun j => r.mask.getLsbD j)
    let s := s.setCoreAt p (c.spadPut true (now.map fun j => (spadMap (off + j) r.y.toNat, byteOf r.bits j)))
    let left := rest.foldl (fun (w : BitVec 256) j => w ||| BitVec.ofNat 256 (2 ^ j)) 0
    s.mapCore (if rest.isEmpty then (·.dropReq r.id) else (·.putReq { r with mask := left }))
  | .gather t =>
    let n := tagW t / 8
    if r.x = 1 then
      match r.addrs[r.progress]? with
      | none => s.windowReply r fun s => s.replyV r fun v => { v with bits := putElems t r.addrs r.bits v.bits }
      | some e =>
        match spadLoc e.2.toNat n with
        | .window m off => at_ m fun _ c =>
          if c.spadPoisoned off n then s.reqTrap r .dataUe 0
          else
            let r := { r with
              bits := setField r.bits (8 * n * e.1) (8 * n) (Memory.readLE c.spad off n)
              progress := r.progress + 1 }
            if r.progress = r.addrs.length then
              s.windowReply r fun s => s.replyV r fun v => { v with bits := putElems t r.addrs r.bits v.bits }
            else s.mapCore (·.putReq r)
        | _ => s
    else s
  | _ => s

def execWindowAccessArrival (s : State) : Result :=
  let s := s.focus s.ev.tile
  .next <|
    match s.core.req s.ev.id with
    | some r => if s.core.windowTurn r then s.windowStep r else s
    | none => s

/-! ## Released entries (R252, R372) -/

/-- Whether entry `e` must perform before entry `f`: by class and store order, or by a fence between them. -/
def HEntry.before (fences : List (BitVec 16)) (e f : HEntry) : Bool :=
  (e.cls = f.cls && e.seq < f.seq) ||
    (fences.zipIdx.any fun m => e.fences ≤ m.2 && m.2 < f.fences && m.1.getLsbD e.cls.toNat && m.1.getLsbD f.cls.toNat)

/-- The name under which home holds a released entry of context `ctx` of the focused core. -/
def State.entryKey (s : State) (ctx : BitVec 2) (e : HEntry) : HeldAcc := .entry s.coreTile ctx e.seq

/-- Whether the access `key` would come to a quiesced channel that does not hold it yet (R405). -/
def State.arrivesAt (s : State) (key : HeldAcc) (pa : Nat) : Bool := s.quiesced pa && !(s.quiesces.any fun q => q.held.contains key)

/-- The released entries of a context whose turn it is and that home takes, or holds from now on. -/
def State.entriesReady (s : State) (ctx : BitVec 2) : List HEntry :=
  let x := s.core.ctx ctx
  x.released.filter fun e => !(x.released.any fun f => f.before x.relFences e) &&
    (!s.homeHeld (s.entryKey ctx e) e.pa.toNat || s.arrivesAt (s.entryKey ctx e) e.pa.toNat)

/-- The home step of one entry. -/
def State.performEntry (s : State) (ctx : BitVec 2) (e : HEntry) : State :=
  let bs := ((List.range 64).filter fun j => e.mask.getLsbD j).map fun j => (e.pa.toNat + j, byteOf e.bytes j)
  (s.homeCells bs).mapCore fun c => c.mapCtx ctx fun x => { x with released := x.released.erase e }

/-- HOLDING_ENTRY_PERFORM: a released entry of context `ev.ctx`, a free choice among those whose turn it is, performs or is held at home. -/
def execHoldingEntryPerform (s : State) : Result :=
  let s := s.focus s.ev.tile
  let ready := s.entriesReady s.ev.ctx
  .next <|
    if ready.isEmpty then s
    else
      let (i, s) := s.choose ready.length
      match ready[i]? with
      | some e => s.atHome (s.entryKey s.ev.ctx e) e.pa.toNat fun s => s.performEntry s.ev.ctx e
      | none => s

/-! ## Other writes at home (R278, R263) -/

/-- The bytes that a store to an SC page writes: each piece of its access up to the next. -/
def Req.storeBytes (r : Req) : List (Nat × Byte) :=
  (r.pas.zipIdx.map fun p =>
    let last := match r.pas[p.2 + 1]? with | some q => q.1 | none => 256
    ((List.range (last - p.1.1)).filter fun j => r.mask.getLsbD (p.1.1 + j)).map fun j =>
      (p.1.2.toNat + j, byteOf r.bits (p.1.1 + j))).flatten

/-- A store to an SC page performs in one indivisible step (R248). -/
def State.storeStep (s : State) (r : Req) : State :=
  let done := fun (s : State) => s.mapCore (·.putReq { r with result := some (0, 0) })
  match r.pas.find? fun p => s.homeHeld (s.reqKey r) p.2.toNat with
  | some p => s.arriveHeld (s.reqKey r) p.2.toNat
  | none => done (if r.storeBytes.isEmpty then s else s.homeCells r.storeBytes)

/-- What the outside asks for cannot happen yet: it comes again. -/
def State.later (s : State) (i : Instr) : State := { s with inputs := s.inputs ++ [⟨1, ⟨i, s.ev⟩⟩] }

/-- The event with its arrival number, which it takes when it has none yet (R405). -/
def State.ticketed (s : State) : State :=
  if s.ev.ticket = 0 then { s with ev := { s.ev with ticket := s.nextOutside }, nextOutside := s.nextOutside + 1 } else s

/-- The name under which a home holds the access from outside that the step runs. -/
def State.outsideKey (s : State) : HeldAcc := .outside s.ev.ticket

/-- Home holds the access from outside at an address, in its place among those that have arrived: it comes again (R405). -/
def State.again (s : State) (pa : Nat) (i : Instr) : State :=
  let s := s.ticketed
  (s.arriveHeld s.outsideKey pa).later i

/-- The access from outside has had its turn. -/
def State.outsideDone (s : State) : State := s.leaveHeld s.outsideKey

/-- Whether a write of a control core is held at its home. -/
def State.ctlHeldAt (s : State) (ctl : BitVec 3) : Bool :=
  let waits := fun (h : HeldAcc) => match h with | .write (some c) _ _ => c = ctl | _ => false
  s.stalled.any waits || s.quiesces.any fun q => q.held.any waits

/-- Whether an earlier device access of a control core has not performed, an update of the service core's power page among them: the core's next one
comes after it (R263). -/
def State.ctlPending (s : State) (ctl : BitVec 3) : Bool :=
  s.ctlHeldAt ctl || s.inputs.any fun i =>
    ((i.ev.i = .homeWriteStep && i.ev.args.flag && i.ev.args.port.setWidth 3 = ctl) || (i.ev.i = .powerPageUpdate && ctl = 4)) &&
      i.ev.args.ticket ≠ 0 && (s.ev.ticket = 0 || decide (i.ev.args.ticket < s.ev.ticket))

/-- The bytes that control core `ctl` writes at a physical address, one home step for each block, each once the one before it has performed
(R263). -/
def State.agentWrite (s : State) (ctl : BitVec 3) (pa : Nat) (bs : List Byte) : List Nat → State
  | [] => s
  | a :: l =>
    if s.ctlPending ctl then
      let s := s.ticketed
      { s with ev := { s.ev with addr := BitVec.ofNat 64 a, data := bs.drop (a - pa) } }.later .homeWriteStep
    else (s.homeWriteBy (some ctl) a ((bs.drop (a - pa)).take (64 - a % 64))).agentWrite ctl pa bs l

/-- HOME_WRITE_STEP: with `ev.flag`, control core `ev.port` (the scheduling core of die 0 to 3, or 4 the service core) writes `ev.data` at the
physical address `ev.addr`; without, request `ev.id` of tile `ev.tile` writes its bytes on an SC page (R191, R278). -/
def execHomeWriteStep (s : State) : Result :=
  .next <|
    if s.ev.flag then s.agentWrite (s.ev.port.setWidth 3) s.ev.addr.toNat s.ev.data (blockStarts s.ev.addr.toNat s.ev.data.length)
    else
      let s := s.focus s.ev.tile
      s.performable s.ev.id fun r =>
        match r.kind with
        | .store => s.storeStep r
        | _ => s

/-! ## RDMA (R263, R417) -/

/-- What home answers a remote access: refused, held, or the offsets and physical addresses of its blocks. -/
inductive RdmaRes where
  | refused
  | held (pa : Nat)
  | ok (l : List (Nat × Nat))

/-- The blocks of a remote access, when it lies in a registered region and every page allows it. -/
def State.rdmaPieces (s : State) (asid : BitVec 8) (va n : Nat) (acc : Access) : RdmaRes :=
  if s.rdma.any fun m => m.1 = asid && m.2.1.toNat ≤ va && va + n ≤ m.2.1.toNat + m.2.2 then
    (blockStarts va n).foldl (fun (l : RdmaRes) a =>
      match l, s.walkPa s.outsideKey asid a with
      | .ok l, .ok pa leaf =>
        if (attrTrap leaf acc).isSome then .refused else if s.homeHeld s.outsideKey pa then .held pa else .ok (l ++ [(a - va, pa)])
      | .ok _, .held pa => .held pa
      | .held pa, .ok _ leaf => if (attrTrap leaf acc).isSome then .refused else .held pa
      | .held pa, .held _ => .held pa
      | _, _ => .refused) (.ok [])
  else .refused

/-- A response to an Ethernet peer. -/
def State.respond (s : State) (o : Out) : State := { s with out := s.out ++ [o] }

/-- Whether the queue pair `ev.id` of Ethernet port `ev.port`, over which a remote access comes, is open (R311, R417). -/
def State.qpOpen (s : State) : Bool := s.qps.contains (s.ev.port, BitVec.ofNat 12 s.ev.id)

/-- A remote access that comes over an open queue pair; over another it is dropped. -/
def State.remote (s : State) (k : State) : State := if s.qpOpen then k else s.outsideDone

/-- RDMA_WRITE of `ev.data` at device address `ev.addr` of ASID `ev.gang`; any other address is refused. Its blocks perform in one step, in
rising order. DESIGN CHOICE: log 108. What a response to a READ or a fetch-add of the package's own writes comes so too. DESIGN CHOICE: log 116. -/
def execRdmaWrite (s : State) : Result :=
  let va := s.ev.addr.toNat
  .next <| s.remote <|
    match s.rdmaPieces (s.ev.gang.setWidth 8) va s.ev.data.length .store with
    | .refused => s.outsideDone.respond (.rdma false [])
    | .held pa => s.again pa .rdmaWrite
    | .ok ps =>
      (ps.foldl (fun (s : State) p => s.homeStep p.2 ((s.ev.data.drop p.1).take (64 - (va + p.1) % 64))) s.outsideDone).respond (.rdma true [])

/-- RDMA_READ of `ev.count` bytes; poisoned data is answered by an error (R381). DESIGN CHOICE: log 109. -/
def execRdmaRead (s : State) : Result :=
  let va := s.ev.addr.toNat
  let len := fun (p : Nat × Nat) => min (64 - (va + p.1) % 64) (s.ev.count - p.1)
  .next <| s.remote <|
    match s.rdmaPieces (s.ev.gang.setWidth 8) va s.ev.count .load with
    | .refused => s.outsideDone.respond (.rdma false [])
    | .held pa => s.again pa .rdmaRead
    | .ok ps =>
      if ps.any fun p => s.poisoned p.2 (len p) then s.outsideDone.respond (.rdma false [])
      else s.outsideDone.respond (.rdma true (ps.map fun p => Memory.readList s.mem p.2 (len p)).flatten)

/-- RDMA_FETCH_ADD of `ev.value` on a doubleword, performing as an ATOM.ADD (R263); poisoned data is answered by an error and left (R381).
DESIGN CHOICE: log 109. -/
def execRdmaFetchAdd (s : State) : Result :=
  let va := s.ev.addr.toNat
  .next <| s.remote <|
    match (if va % 8 = 0 then s.rdmaPieces (s.ev.gang.setWidth 8) va 8 .atom else .refused) with
    | .ok ((_, pa) :: _) =>
      if s.poisoned pa 8 then s.outsideDone.respond (.rdma false [])
      else
        let (old, s) := s.atomAt pa 8 0 (s.ev.value.setWidth 64).toNat 0
        s.outsideDone.respond (.rdma true (leBytes 8 old))
    | .held pa => s.again pa .rdmaFetchAdd
    | _ => s.outsideDone.respond (.rdma false [])

end Sys2Proof.Machine
end

