-- ==== Sys2Proof/Machine/Replies.lean ====
section
/-!
DEFINITION. The arrival of replies (R25, R191, R195 to R197, R201 to R210, R239 to R242), KVAPP (R244 to R246), and the completion of
barrier phases (R205, R207).
-/
namespace Sys2Proof.Machine

/-! ## Common parts -/

/-- A reply's counter falls by one, in the duplicate set too when the request's phase has closed (R25). -/
def State.replyDc (s : State) (r : Req) : State :=
  match r.dc with
  | none => s
  | some d =>
    if r.discard then s
    else s.mapCore fun c => c.mapCtx r.ctx fun k =>
      let dec := fun (p : Priv) => { p with dc := p.dc.write d (p.dc.read d - 1) }
      { k with regs := dec k.regs, dup := if r.phase < k.phase then dec k.dup else k.dup }

/-- A request is answered: its destinations by `f`, its counter, and it is gone. -/
def State.answer (s : State) (r : Req) (f : State → State) : State := (((f s).replyDc r)).mapCore (·.dropReq r.id)

/-- A reply brings poisoned data: DATA_UE, and the destination keeps its value (R380). -/
def State.answerUe (s : State) (r : Req) : State :=
  let s := s.answer r id
  if r.discard then s else s.takeTrap ⟨.dataUe, slotUnit r.slot, r.va, 0⟩ r.ctx (s.core.ctx r.ctx).ix

/-! ## Loads (R191) -/

/-- A line of the read-only cache. -/
def Core.roFind (c : Core) (asid : BitVec 8) (va : Nat) : Option RoLine := c.ro.find? fun l => l.asid = asid && l.va.toNat = va / 64 * 64

/-- The bytes of one piece of the load `key`, on the page that its translation gave: from the read-only cache, by a free choice, or from home;
the state in which home holds the access otherwise. -/
def State.loadBytes (s : State) (key : HeldAcc) (page : PageUse) (va pa n : Nat) : Except State (List Byte × Bool × State) :=
  let rc := page.rc
  let line := if rc then s.core.roFind s.core.asid va else none
  let home := fun (s : State) =>
    if s.homeHeld key pa then .error (s.arriveHeld key pa)
    else
      let bad := s.poisoned pa n
      let base := pa / 64 * 64
      let l : RoLine := ⟨s.core.asid, BitVec.ofNat 52 (va / 64 * 64), page.level, ofBytes 512 (Memory.readList s.mem base 64)⟩
      let s' := if rc && !bad then s.mapCore fun c => { c with ro := (c.ro.filter fun x => !(x.asid = l.asid && x.va = l.va)) ++ [l] } else s
      .ok (Memory.readList s.mem pa n, bad, s')
  match line with
  | some l =>
    let (k, s) := s.choose 2
    if k = 0 then .ok ((bytesOf l.bytes 64).drop (va % 64) |>.take n, false, s) else home s
  | none => home s

/-- Bytes placed in a register where the mask of forwarded bytes leaves them out. -/
def placeBytes (bits : VBits) (mask : BitVec 256) (off : Nat) (bs : List Byte) : VBits :=
  bs.zipIdx.foldl (fun (b : VBits) x => if mask.getLsbD (off + x.2) then b else setByte b (off + x.2) x.1) bits

/-- What a load does with its bytes when the last has arrived. -/
def State.loadDone (s : State) (r : Req) : State :=
  if r.y ≠ 0 then s.answerUe r
  else
    match r.kind with
    | .load n sx => s.answer r fun s => s.replyS r r.dst (extendLoad n sx (field r.bits 0 (8 * n)))
    | .vload t => s.answer r fun s => s.replyV r fun _ => loadedV t r.bits
    | _ => s.answer r id

/-- The page of the piece or element that a request comes to next. -/
def Req.page (r : Req) : PageUse := r.pages.getD r.progress ⟨false, false, 0⟩

/-- The next piece of a load of `n` bytes. -/
def State.loadStep (s : State) (r : Req) (n : Nat) : State :=
  match r.pas[r.progress]? with
  | none => s.loadDone r
  | some (off, pa) =>
    match s.loadBytes (s.reqKey r) r.page (r.va.toNat + off) pa.toNat (min (64 - pa.toNat % 64) (n - off)) with
    | .error s => s
    | .ok (bs, bad, s) =>
      let r := { r with bits := placeBytes r.bits r.mask off bs, y := if bad then 1 else r.y, progress := r.progress + 1 }
      if r.progress = r.pas.length then s.loadDone r else s.mapCore (·.putReq r)

/-! ## Gathers and scatters (R195) -/

/-- The next element that an indexed access translates; its page may make the access irrevocable. -/
def State.translateStep (s : State) (r : Req) (acc : Access) : State :=
  match r.addrs[r.pas.length]? with
  | none => s
  | some e =>
    s.element r acc e fun pa leaf =>
      match attrTrap leaf acc with
      | some c => (s.replyDc r).reqTrap r c e.2
      | none =>
        s.mapCore (·.putReq { r with
          pages := r.pages ++ (s.elemPages [e])
          pas := r.pas ++ [(e.1, BitVec.ofNat 45 pa)], sc := r.sc || leafSC leaf })

/-- How many elements of a translated gather its next step reads: those up to the last that shares a once-cell with one of them, because a load
takes every byte of a cell from one home step (R356), be it a gather that is irrevocable too (R195). DESIGN CHOICE: log 131. -/
def Req.cellRun (r : Req) : Nat :=
  let cells := ((r.pas.zip r.pages).map fun p => if p.2.once then some (p.1.2.toNat / 32) else none).drop r.progress
  let cut := fun (m : Nat) => (cells.take m).all fun c => c.isNone || !(cells.drop m).contains c
  (((List.range cells.length).map (· + 1)).find? cut).getD 1

/-- The next elements of a translated gather, by the access `key`: each with the bytes that its context forwards, and else those at home, which
an SC gather alone takes (R195). -/
def State.gatherElems (s : State) (key : HeldAcc) (r : Req) (n : Nat) : Nat → Except State (Req × State)
  | 0 => .ok (r, s)
  | k + 1 =>
    match r.pas[r.progress]?, r.addrs[r.progress]? with
    | some (i, pa), some (_, va) =>
      match s.loadBytes key (if r.sc then { r.page with rc := false } else r.page) va.toNat pa.toNat n with
      | .error s => .error s
      | .ok (bs, bad, s) =>
        let got := (bs.zip ((s.core.ctx r.ctx).forwardTo r pa.toNat n)).map fun b => b.2.getD b.1
        let r := { r with bits := placeBytes r.bits 0 (i * n) got, y := if bad then 1 else r.y, progress := r.progress + 1 }
        s.gatherElems key r n k
    | _, _ => .ok (r, s)

/-- The next step of a translated gather. -/
def State.gatherStep (s : State) (r : Req) (t : BitVec 4) : State :=
  let n := tagW t / 8
  let done := fun (s : State) (r : Req) =>
    if r.y ≠ 0 then s.answerUe r else s.answer r fun s => s.replyV r fun v => { v with bits := putElems t r.addrs r.bits v.bits }
  if r.sc && !r.irrev then s
  else
    match s.gatherElems (s.reqKey r) r n r.cellRun with
    | .error s => s
    | .ok (r, s) => if r.pas.length ≤ r.progress then done s r else s.mapCore (·.putReq r)

/-- A scatter whose elements were translated before an invalidation now withholds its stores: the invalidation waits for its context's next
checkpoint too (R340). -/
def State.lateStores (s : State) (r : Req) : State :=
  if s.xinv.reqs.contains (s.coreTile, r.id) then
    { s with xinv := { s.xinv with waits := s.xinv.waits ++ [(s.coreTile, r.ctx, (s.core.ctx r.ctx).phase)] } }
  else s

/-- The next step of a translated scatter: all its elements are withheld in order, or with an SC page its next element performs at
home. -/
def State.scatterStep (s : State) (r : Req) (t : BitVec 4) : State :=
  let n := tagW t / 8
  if r.sc then
    if !r.irrev then s
    else
      match r.pas[r.progress]? with
      | none => s.answer r id
      | some (i, pa) =>
        s.atHome (s.reqKey r) pa.toNat fun s =>
          let s := s.homeStepLE pa.toNat n (elemCode r.bits t i)
          let r := { r with progress := r.progress + 1 }
          if r.progress = r.pas.length then s.answer r id else s.mapCore (·.putReq r)
  else
    ((r.addrs.zip r.pas).foldl (fun (s : State) e => s.mapCore fun c => c.mapCtx r.ctx fun x =>
      x.withhold s.core.asid (BitVec.ofNat 36 (e.1.2.toNat / 65536)) r.cls e.2.2.toNat
        ((leBytes n (elemCode r.bits t e.1.1)).zipIdx.map fun b => (b.2, b.1))) (s.lateStores r)).answer r id

/-! ## Digest queries (R239 to R242) -/

/-- The query of a block by a request performs by `k`, or home holds it because one of the block's channels is quiesced (R405); with `now` it reads
the block's data. -/
def State.atSieve (s : State) (r : Req) (now : Bool) (va : Nat) (k : State → State) : State :=
  match s.regionOf s.core.asid va with
  | none => k s
  | some (n, g) =>
    let b := (va - g.base) / g.block
    match s.blockHeld (s.reqKey r) n (if now then s.blockNow (s.reqKey r) n b else s.blockBase (s.reqKey r) n b) with
    | some pa => s.arriveHeld (s.reqKey r) pa
    | none => k s

/-- DIGQ: its address is translated, and then one entry after another is read and written to scratchpad. -/
def State.digqStep (s : State) (r : Req) (n : Nat) (m : BitVec 6) : State :=
  let asid := s.core.asid
  match r.pas with
  | [] =>
    s.element r .load (0, r.va) fun pa leaf =>
      match attrTrap leaf .load with
      | some c => s.reqTrap r c r.va
      | none => s.mapCore (·.putReq { r with pas := [(0, BitVec.ofNat 45 pa)] })
  | _ =>
    match (s.queryBlocks asid r.va.toNat n)[r.progress]? with
    | none => s
    | some b =>
      s.atSieve r false b fun s =>
        let a := r.x.toNat + 64 * r.progress
        let s := s.mapCore fun c => c.spadPut true ((bytesOf (s.entryAt asid b) 64).zipIdx.map fun x => (a + x.2, x.1))
        let r := { r with progress := r.progress + 1 }
        if r.progress = n then s.mapCore fun c => (c.markDone m 0 r.mphase).dropReq r.id else s.mapCore (·.putReq r)

/-- DIGRS: one block after another is recomputed; `y` counts those that lie in a region. -/
def State.digrsStep (s : State) (r : Req) (n : Nat) : State :=
  let asid := s.core.asid
  match (s.queryBlocks asid r.va.toNat n)[r.progress]? with
  | none => s.answer r fun s => s.replyS r r.dst r.y
  | some b =>
    s.atSieve r true b fun s =>
      let (s, k) := s.refresh (s.reqKey r) asid b 1
      let r := { r with y := r.y + BitVec.ofNat 64 k, progress := r.progress + 1 }
      if r.progress = n then s.answer r fun s => s.replyS r r.dst r.y else s.mapCore (·.putReq r)

/-! ## Watch state (R210, R404) -/

/-- The tile whose watch map WSTAT reads for a target: its lowest-numbered live neighbour, or without one the lowest-numbered live tile
of the package (R404). -/
def State.wstatFrom (s : State) (t : BitVec 7) : BitVec 7 :=
  let tiles := (List.range 128).map (BitVec.ofNat 7 ·)
  let near := tiles.filter fun n => [0#2, 1#2, 2#2, 3#2].any fun d => neighbour t d = n
  ((near ++ tiles).find? fun n => !s.cutOff n).getD t

/-- WSTAT's word for a tile of this package (R210, R404). -/
def State.wstat (s : State) (t : BitVec 7) : Word :=
  let v := s.wstatFrom t
  let m := s.mapAt v t
  let suspect := [0#2, 1#2, 2#2, 3#2].any fun d =>
    let n := neighbour t d
    !(s.mapAt v n).fused && !(s.mapAt v n).fenced && (((s.trellisAt n).votes.read (d ^^^ 1)).state = 1)
  let st := if m.fused then 3 else if m.fenced then 2 else if suspect || m.isolated then 1 else 0
  BitVec.ofNat 64 (st + 4 * min m.strikes.length 2 + (if m.isolated then 16 else 0))

/-- WSTAT: a tile of another package answers from outside, as `ev.value`, or with `ev.flag` not at all. -/
def State.wstatWord (s : State) (n : Nat) : Word :=
  if n / 128 = Config.pkgId.toNat then s.wstat (BitVec.ofNat 7 n)
  else if s.ev.flag then 0x80#64
  else BitVec.ofNat 64 (field s.ev.value 0 5)

/-! ## Barriers and triggers (R205, R209) -/

/-- An arrival reaches its barrier. -/
def State.arriveAt (s : State) (r : Req) : State :=
  let b := s.myBarrier (r.y.setWidth 3) (r.x.setWidth 4)
  let t := s.coreTile
  (s.setBarrier { b with arrived := (b.arrived.filter fun p => p.1 ≠ t) ++ [(t, b.count t + 1)] }).mapCore (·.dropReq r.id)

/-- TRIGGER marks its member's early-trigger point when the record has EARLY (R209, R330). -/
def State.triggerStep (s : State) (r : Req) : State :=
  let t := s.coreTile
  let s := s.mapCore (·.dropReq r.id)
  if bindEarly (s.bind t) then
    (s.mapCore fun c => { c with triggered := true }).mapGangOf t fun g =>
      { g with triggered := if g.triggered.contains t then g.triggered else g.triggered ++ [t] }
  else s

/-! ## Replies with a result -/

/-- A value that a once-cell answer carries enters the once-cache for the generation that was asked for (R360). -/
def Core.oncePut (c : Core) (r : Req) (v st : Word) : Core :=
  if [0, 1, 2, 5, 7].contains (st.toNat % 8) then
    let e : OnceEntry := ⟨c.asid, cellOf r.va, r.y.setWidth 32, v, st.extractLsb' 30 2, st.extractLsb' 4 13⟩
    let l := c.once.filter fun f => !(f.asid = e.asid && f.cell = e.cell && f.gen = e.gen)
    { c with once := (if l.length < 64 then l else l.drop 1) ++ [e] }
  else c

/-- The reply of a request whose home step has performed. -/
def State.resultReply (s : State) (r : Req) (a b : Word) : State :=
  if r.mask ≠ 0 && !(match r.kind with | .store => true | _ => false) then s.answerUe r
  else
    match r.kind with
    | .atom _ => s.answer r fun s => s.replyS r r.dst a
    | .vatom _ _ => s.answer r fun s => s.replyV r fun v => { v with bits := r.bits }
    | .once _ =>
      s.answer r fun s =>
        let s := (s.replyS r r.dst a).replyS r (r.dst + 1) b
        if r.discard then s else s.mapCore fun c => c.oncePut r a b
    | .pop _ => s.answer r fun s => (s.replyS r r.dst a).replyS r (r.dst + 1) b
    | .push _ => s.answer r fun s => s.replyS r (r.dst + 1) b
    | .qpush _ => s.answer r fun s => s.replyS r r.dst a
    | _ => s.answer r id

/-- The step of a request that has no result yet, on the way to its reply. -/
def State.replyStep (s : State) (r : Req) : State :=
  let may := s.core.mayPerform r
  match r.kind with
  | .load n _ => if may then s.loadStep r n else s
  | .vload _ => if may then s.loadStep r 256 else s
  | .gather t => if r.x ≠ 0 then s else if r.pas.length < r.addrs.length then s.translateStep r .load else if may then s.gatherStep r t else s
  | .scatter t => if r.pas.length < r.addrs.length then s.translateStep r .store else if may || !r.sc then s.scatterStep r t else s
  | .digq n m => if may then s.digqStep r n m else s
  | .digrs n => if may then s.digrsStep r n else s
  | .digb k =>
    if may then
      s.atSieve r false r.va.toNat fun s =>
        let (below, above) := boundsAnswer (s.entryAt s.core.asid r.va.toNat) r.x
        s.answer r fun s => (s.replyP r (k ++ 0#1) below).replyP r (k ++ 1#1) above
    else s
  | .wstat => s.answer r fun s => s.replyS r r.dst (s.wstatWord r.x.toNat)
  | .barrier => if may then s.arriveAt r else s
  | .trigger => if may then s.triggerStep r else s
  | _ => s

/-- Whether a request's data is discarded as it arrives: nothing of it is left to perform (R374). -/
def Req.discards (r : Req) : Bool :=
  r.discard && (match r.kind with
    | .atom _ => false
    | .vatom _ _ => false
    | .once op => op = 1
    | .pop b => b
    | .push _ => false
    | .qpush _ => false
    | .store => false
    | .winStore => false
    | .kvapp _ => false
    | _ => true)

/-- The discard of a reply; a DIGQ whose mark a rollback does not restore leaves its mark as a cancelled command does (R287, R374). -/
def State.discardReply (s : State) (r : Req) : State :=
  s.mapCore fun c =>
    match r.kind with
    | .digq _ m =>
      (if c.bound && (r.ctx ≠ 0 || c.tailMarks.getLsbD m.toNat) then c.markCancel m r.mphase else c).dropReq r.id
    | _ => c.dropReq r.id

/-- DEVICE_REPLY_ARRIVAL: request `ev.id` of tile `ev.tile` goes a step on, to the arrival of its reply. -/
def execDeviceReplyArrival (s : State) : Result :=
  let s := s.focus s.ev.tile
  .next <|
    match s.core.req s.ev.id with
    | none => s
    | some r =>
      match r.result with
      | some (a, b) => s.resultReply r a b
      | none => if r.discards then s.discardReply r else s.replyStep r

/-! ## KVAPP (R244 to R246) -/

/-- A KVAPP's append record at its address; one with more than 255 sequences serves none, as one with a field outside its values does.
DESIGN CHOICE: log 92. -/
structure KvRecord where
  pool : Nat
  freeq : Nat
  rows : Nat
  w : Nat
  nseq : Nat
  ok : Bool

def Core.kvRecord (c : Core) (a : Nat) : KvRecord :=
  let f := fun (o n : Nat) => Memory.readLE c.spad (a + o) n
  let w := f 24 2
  { pool := f 0 8, freeq := f 8 8, rows := f 16 8, w := w, nseq := f 26 2
    ok := w % 32 = 0 && 32 ≤ w && w ≤ 224 && f 26 2 ≤ 255 && f 28 36 = 0 }

/-- How an access of a KVAPP ends. -/
abbrev KvRes (α : Type) := Except State α

/-- A device access of a KVAPP: the physical address of each block, or the state that a miss, a trap or a held channel leaves. -/
def State.kvPieces (s : State) (r : Req) (va n align : Nat) (acc : Access) : KvRes (List (Nat × Nat)) :=
  if va % align ≠ 0 then .error (s.reqTrap r .align (BitVec.ofNat 64 va))
  else
    (blockStarts va n).foldl (fun (l : KvRes (List (Nat × Nat))) a =>
      match l with
      | .error e => .error e
      | .ok l =>
        match s.physOf a with
        | none => .error (s.miss r.ctx 6 r.id (BitVec.ofNat 64 a) acc r.progress)
        | some (pa, leaf) =>
          match attrTrap leaf acc with
          | some c => .error (s.reqTrap r c (BitVec.ofNat 64 a))
          | none =>
            if s.homeHeld (s.reqKey r) pa then .error (s.arriveHeld (s.reqKey r) pa) else .ok (l ++ [(a - va, pa)])) (.ok [])

/-- A write of a KVAPP: one home step for each 64-byte block. -/
def State.kvWrite (s : State) (r : Req) (va align : Nat) (bs : List Byte) : KvRes State :=
  match s.kvPieces r va bs.length align .store with
  | .error e => .error e
  | .ok ps => .ok (ps.foldl (fun (s : State) p => s.homeStep p.2 ((bs.drop p.1).take (64 - (va + p.1) % 64))) s)

def State.kvRead (s : State) (r : Req) (va n align : Nat) : KvRes (List Byte) :=
  match s.kvPieces r va n align .load with
  | .error e => .error e
  | .ok ps =>
    if ps.any fun p => s.poisoned p.2 (min (64 - (va + p.1) % 64) (n - p.1)) then .error (s.reqTrap r .dataUe (BitVec.ofNat 64 va))
    else .ok (ps.map fun p => Memory.readList s.mem p.2 (min (64 - (va + p.1) % 64) (n - p.1))).flatten

/-- The codes and scales of rows of BF16 elements, in blocks of 32 (R245). -/
def kvQuantise (bs : List Byte) : List Byte × List Byte :=
  let vals := (leWords 2 bs).map fun x => readElem tagBF16 0 x
  let q := (chunksOf 32 (vals.length / 32) vals).map fun l => quantiseBlock 8 12 l
  ((q.map fun x => x.2.1.map (BitVec.ofNat 8 ·)).flatten, q.map fun x => BitVec.ofNat 8 x.1)

/-- The 33W bytes of a block slot from the 64W bytes of a tail buffer (R230, R245). -/
def kvSlot (w : Nat) (tail : List Byte) : List Byte :=
  let (kc, ks) := kvQuantise (tail.take (32 * w))
  let (vc, vs) := kvQuantise (tail.drop (32 * w))
  kc ++ vc ++ ks ++ vs

/-- The number and the record of the pool of a KVAPP. -/
def State.kvPool (s : State) (pool : Nat) : Option (Nat × Pool) :=
  (s.pools.toList.zipIdx.find? fun p => p.1.valid && p.1.asid = s.core.asid && p.1.pool.toNat = pool).map fun p => (p.2, p.1)

/-- KVAPP ends: `sd` and `pd`, in both register sets (R246). -/
def State.kvDone (s : State) (r : Req) (pd : BitVec 6) (served : Nat) (all : Bool) : State :=
  s.answer r fun s => (s.replyS r r.dst (BitVec.ofNat 64 served)).replyP r pd all

/-- The entries of KV sketches of the slot at a physical address, after a reset step (R276). DEDUCED: log 93. -/
def State.resetSketches (s : State) (pa : Nat) : State :=
  { s with digests := s.digests.map fun (e : DigEntry) =>
      let r := Region.ofBits (s.regions.read e.region)
      if r.kind = 3 && r.layout = 1 && e.pa.toNat ≤ pa && pa < e.pa.toNat + r.block then { e with bytes := sketchReset e.bytes } else e }

/-- The write of slot bytes, 64 at most; the first resets the slot's sketch and clears FREE in the same home step (R276, R352). -/
def State.kvSlotWrite (s : State) (r : Req) (pool b i : Nat) (bs : List Byte) : KvRes State :=
  if i ≠ 0 then s.kvWrite r (pool + 8192 * b + 64 * i) 64 bs
  else
    match s.kvPieces r (pool + 8192 * b) bs.length 64 .store with
    | .error e => .error e
    | .ok ps =>
      let slot := (ps.map fun p => bs.zipIdx.map fun x => (p.2 + x.2, x.1)).flatten
      let word := match s.kvPool pool with
        | some (_, p) => if b < p.nslot.toNat then some (p.stateBase.toNat + 4 * b) else none
        | none => none
      match word with
      | none => .ok ((match ps with | p :: _ => s.resetSketches p.2 | [] => s).homeCells slot)
      | some a =>
        if s.homeHeld (s.reqKey r) a then .error (s.arriveHeld (s.reqKey r) a)
        else
          let free := (leBytes 4 (s.homeRead a 4 % 2 ^ 31)).zipIdx.map fun x => (a + x.2, x.1)
          .ok ((match ps with | p :: _ => s.resetSketches p.2 | [] => s).homeCells (slot ++ free))

/-- One step of a KVAPP: `progress` counts sequences served, `mask` the steps done of the current one (0 none, 1 the block popped, 2 the
rows written, 3 + i the slot's first 64i bytes written), `waiting` marks a popped block, in `x`, of pool `y`. -/
def State.kvStep (s : State) (r : Req) (pd : BitVec 6) : State :=
  let a := r.va.toNat
  let h := s.core.kvRecord a
  let q := a + 64 + 32 * r.progress
  let f := fun (o n : Nat) => Memory.readLE s.core.spad (q + o) n
  let w := h.w
  let row := h.rows + 4 * w * r.progress
  let len := f 16 4
  let t := len % 16
  let stage := r.mask.toNat
  let put := fun (s : State) (r : Req) => s.mapCore (·.putReq r)
  let key := s.reqKey r
  let run := fun (x : KvRes State) => match x with | .error e => e | .ok s => s.leaveHeld key
  if s.core.spadPoisoned a 64 then s.reqTrap r .dataUe 0
  else if !h.ok then s.kvDone r pd 0 false
  else if h.nseq ≤ r.progress then s.kvDone r pd r.progress true
  else if 0x200000 < q + 32 then s.reqTrap r .spadRange (BitVec.ofNat 64 q)
  else if s.core.spadPoisoned q 32 then s.reqTrap r .dataUe 0
  else if h.rows % 64 ≠ 0 then s.reqTrap r .align (BitVec.ofNat 64 h.rows)
  else if 0x200000 < row + 4 * w then s.reqTrap r .spadRange (BitVec.ofNat 64 row)
  else if s.core.spadPoisoned row (4 * w) then s.reqTrap r .dataUe 0
  else if stage = 0 && t = 15 then
    run (match s.kvPieces r h.freeq 64 64 .queue with
      | .error e => .error e
      | .ok ps =>
        match s.popAt (s.reqKey r) s.core.asid (match ps with | p :: _ => p.2 | [] => 0) with
        | .item x s =>
          let n := match s.kvPool h.pool with | some p => p.1 | none => 0
          .ok (put s { r with mask := 1, waiting := true, x := x &&& 0xFFFFFFFF#64, y := BitVec.ofNat 64 n })
        | .miss va => .error (s.miss r.ctx 6 r.id (BitVec.ofNat 64 va) .queue r.progress)
        | .held pa => .error (s.arriveHeld (s.reqKey r) pa)
        | .trap c va => .error (s.reqTrap r c (BitVec.ofNat 64 va))
        | .damaged => .error (s.reqTrap r .dataUe (BitVec.ofNat 64 h.freeq))
        | _ => .ok (s.kvDone r pd r.progress false))
  else if stage ≤ 1 then
    let tail := f 0 8
    run (if tail % 64 ≠ 0 then .error (s.reqTrap r .align (BitVec.ofNat 64 tail))
      else
        match s.kvWrite r (tail + 2 * w * t) 1 (Memory.readList s.core.spad row (2 * w)) with
        | .error e => .error e
        | .ok s =>
          match s.kvWrite r (tail + 32 * w + 2 * w * t) 1 (Memory.readList s.core.spad (row + 2 * w) (2 * w)) with
          | .error e => .error e
          | .ok s => .ok (put s { r with mask := 2 }))
  else if t = 15 && stage - 2 < (33 * w + 63) / 64 then
    run (if h.pool % 8192 ≠ 0 then .error (s.reqTrap r .align (BitVec.ofNat 64 h.pool))
      else
        match s.kvRead r (f 0 8) (64 * w) 64 with
        | .error e => .error e
        | .ok bs =>
          match s.kvSlotWrite r h.pool r.x.toNat (stage - 2) (((kvSlot w bs).drop (64 * (stage - 2))).take 64) with
          | .error e => .error e
          | .ok s => .ok (put s { r with mask := r.mask + 1 }))
  else
    let finish := fun (s : State) =>
      put (s.mapCore fun c => c.spadPut true ((leBytes 4 (len + 1)).zipIdx.map fun b => (q + 16 + b.2, b.1)))
        { r with mask := 0, waiting := false, progress := r.progress + 1 }
    if t = 15 then
      run (match s.kvWrite r (f 8 8 + 4 * (len / 16)) 4 (leBytes 4 r.x.toNat) with
        | .error e => .error e
        | .ok s => .ok (finish s))
    else finish s

/-- Whether a KVAPP has been released, and the stores released with it have performed (R246, R259). -/
def Core.kvReleased (c : Core) (r : Req) : Bool :=
  let x := c.ctx r.ctx
  !r.discard && r.phase < x.phase && x.released.all fun e => r.phase < e.phase

/-- Whether a released KVAPP waits for a scratchpad write of its context made before its release and still on its way (R214, R246), or for a
fence of scope `core` (R255). -/
def State.kvWaits (s : State) (r : Req) : Bool :=
  (s.winStoreOut r.ctx s.coreTile fun q => q.phase ≤ r.phase) || s.core.behindFence r.id

/-- Whether KVAPPs of a core go on: not while it is frozen, but again once firmware saves its member, which waits for them (R344, R384). -/
def Core.kvRuns (c : Core) : Bool :=
  c.bound && (match c.save with | .none => c.frozen.isNone | .writing => false | .waiting => false | _ => true)

/-- KVAPP_EXECUTE: request `ev.id` of tile `ev.tile` goes a step on; engines of a saved member and of a frozen core rest. DESIGN CHOICE: log 48. -/
def execKvappExecute (s : State) : Result :=
  let s := s.focus s.ev.tile
  .next <|
    match s.core.req s.ev.id with
    | some r =>
      match r.kind with
      | .kvapp pd => if s.core.kvReleased r && s.core.kvRuns && !s.kvWaits r then s.kvStep r pd else s
      | _ => s
    | none => s

/-! ## Barrier phases (R205, R207) -/

/-- The members that take part in a barrier's next phase. -/
def Barrier.participants (b : Barrier) (g : Gang) : List (BitVec 7) :=
  g.tiles.filter fun t => scopeInst b.scope t = b.inst && !g.left.contains t

/-- Whether a member of the instance was killed or fenced. -/
def Barrier.poisonedBy (b : Barrier) (g : Gang) : Bool := (g.dead ++ g.lost).any fun t => scopeInst b.scope t = b.inst

/-- Whether a barrier's next phase may complete. -/
def Barrier.ready (b : Barrier) (g : Gang) : Bool :=
  let alive := (b.participants g).filter fun t => !g.dead.contains t
  g.saved.isEmpty && if b.poisonedBy g then alive.any fun t => b.phase < b.count t
  else !alive.isEmpty && alive.all fun t => b.phase < b.count t

/-- The barrier's next phase completes. -/
def Barrier.complete (b : Barrier) (g : Gang) : Barrier :=
  { b with
    phase := b.phase + 1
    poisoned := match b.poisoned with
      | some k => some k
      | none => if b.poisonedBy g then some b.phase else none }

/-- BARRIER_PHASE_COMPLETE: barrier number `ev.id` of the list of barriers. -/
def execBarrierPhaseComplete (s : State) : Result :=
  .next <|
    match s.barriers[s.ev.id]? with
    | none => s
    | some b =>
      match s.liveGang b.gang with
      | some g => if b.ready g then { s with barriers := s.barriers.set s.ev.id (b.complete g) } else s
      | none => s

end Sys2Proof.Machine
end

