-- ==== Sys2Proof/Machine/Checkpoint.lean ====
section
/-!
DEFINITION. Checkpoints (R133, R134, R199, R371 to R373), what follows them (R128 to R132, R327, R329, R333), rollbacks (R374 to R377),
pre-emption in a wait (R327), and the records of late yields and phase overruns (R326, R328).
-/
namespace Sys2Proof.Machine

/-! ## When a checkpoint's step may happen (R253, R371, R372) -/

/-- Whether the matrix drain has finished (R171). -/
def Core.drained (c : Core) : Bool := c.mq.isEmpty && c.apend.isEmpty

/-- Whether a request is a load, whose class-mates a checkpoint's release waits for (R253). -/
def Req.isLoad (r : Req) : Bool :=
  match r.kind with
  | .load _ _ => true
  | .vload _ => true
  | .gather _ => r.x = 0
  | .digq _ _ => true
  | .digb _ => true
  | .digrs _ => true
  | .once op => op = 1
  | _ => false

/-- Whether the release of a context's stores waits for its load `r`: one of their classes, or of an earlier phase (R251, R253). -/
def Ctx.releaseWaits (x : Ctx) (r : Req) : Bool := x.part.any fun e => e.cls = r.cls || r.phase ≠ x.phase

/-- Whether the release of an entry of context `n`, whatever its class, waits for a fence of scope `core` of any of the core's contexts that was
before the store (R255). -/
def Core.releaseFenced (c : Core) (n : BitVec 2) (e : HEntry) : Bool :=
  [0#2, 1#2, 2#2].any fun k => (c.ctx k).coreFences.any fun f => f.precedes n e && c.fenceOpen k f

/-- Whether a request is a gather or scatter on an SC page whose elements are translated and wait for the first checkpoint (R195). -/
def Req.scReady (r : Req) : Bool :=
  r.sc && !r.irrev && r.pas.length = r.addrs.length && (match r.kind with | .gather _ => true | .scatter _ => true | _ => false)

/-- Whether a load stands at or behind a gather or scatter that waits for this very checkpoint: the release does not wait for it, since it
comes after the stores that are released (R195, R253). -/
def Core.behindSc (c : Core) (r : Req) : Bool :=
  c.reqs.any fun q => q.ctx = r.ctx && !q.discard && q.scReady && q.id ≤ r.id

/-- Whether nothing holds back the checkpoint that context `n` has reached. DEDUCED: log 20. -/
def Core.ckReady (c : Core) (n : BitVec 2) : Bool :=
  let x := c.ctx n
  let mine := c.reqs.filter fun r => r.ctx = n && !r.discard
  x.ck.isSome && x.rollPend.isNone && x.rolling.isNone && c.frozen.isNone && (n ≠ 0 || c.drained) && x.released.isEmpty &&
    (mine.all fun r =>
      !r.irrev &&
      !((match r.kind with | .scatter _ => true | .gather _ => r.sc | _ => false) && !r.irrev && !r.scReady) &&
      !(r.isLoad && r.result.isNone && x.releaseWaits r && !c.behindSc r)) &&
    x.part.all fun e => !c.releaseFenced n e

/-! ## The step (R371) -/

/-- An accumulator after a checkpoint's drain (R29). -/
def Acc.settle (a : Acc) : Acc := match a.st with | .liveRet => { a with st := .retired } | _ => a

/-- A live accumulator crosses the checkpoint (R30). -/
def Core.liveCross (c : Core) : Bool := c.acc.toList.any fun a => a.st = .live

/-- Pending SETEF writes take effect (R35). DEDUCED: log 32. -/
def Shared.applyEfmt (r : Shared) : Shared :=
  { r with efmt := r.efmtPend.foldl (fun (_ : BitVec 32) p => p.2.setWidth 32) r.efmt, efmtPend := [] }

/-- The part of a checkpoint that every context has: copy, release, count of rollbacks, protection. -/
def Ctx.checkpoint (x : Ctx) (k : Ckpt) (cyc : Nat) (un : Unprot) (sc : Bool) : Ctx :=
  { x with
    dup := x.regs
    restart := k.restart
    restartBarw := k.barwOnly
    released := x.part
    part := []
    relFences := x.fences
    fences := []
    phase := x.phase + 1
    unprot := un
    rolls := 0
    waitCycles := 0
    phaseStart := cyc
    ck := none
    issued := 0
    cancelledWait := false
    ckDone := k.why = .irrevBefore || k.why = .gatedWait || k.why = .overflow || k.why = .trigger
    irrevOut := sc }

/-- Releases the gated commands of a context's closing phase (R214). -/
def Cmd.release (k : Cmd) (n : BitVec 2) : Cmd := if k.ctx = n && k.gated then { k with released := true } else k

/-- The indivisible step of a checkpoint of context `n` (R371, R286). -/
def Core.checkpoint (c : Core) (n : BitVec 2) (k : Ckpt) : Core :=
  let sc := c.reqs.any fun r => r.ctx = n && !r.discard && r.scReady
  let c : Core := if n = 0 then
      { c with
        sh := c.sh.applyEfmt
        acc := c.acc.map Acc.settle
        fa := { c.fa with retained := [] }
        fb := { c.fb with retained := [] }
        bmc := []
        tailMarks := 0, tailMs := 0, tailD := 0, mcast := 0
        dupCall := ⟨c.inline, c.latest, c.inlineBit⟩
        overPosted := false }
    else c
  let c : Core := if n = 0 then { c with dupSh := c.sh } else c
  let un : Unprot :=
    if k.why = .overflow then .overflow else if n = 0 && c.liveCross then .liveAcc else .safe
  let c : Core := { c with
    dupPoison := c.dupPoison &&& ~~~(BitVec.ofNat 3 (2 ^ min n.toNat 2))
    q0 := c.q0.map (·.release n)
    q1 := c.q1.map (·.release n)
    reqs := c.reqs.map fun r => if r.ctx = n && !r.discard && r.scReady then { r with irrev := true } else r }
  c.mapCtx n fun x => x.checkpoint k c.cyc.toNat un sc

/-! ## What follows a checkpoint -/

/-- Queue control blocks (R308): the number in `n` bytes at an offset. -/
def State.ctlRead (s : State) (q : BitVec 6) (off n : Nat) : Nat := s.homeRead (s.qtBase.toNat + 64 * q.toNat + off) n

/-- Whether a queue is open: the boot opens the queues at its end, and each while firmware has its OPEN set (R308, R413). DESIGN CHOICE:
log 112. -/
def State.queueOpen (s : State) (q : BitVec 6) : Bool := s.boot = .done && s.ctlRead q 12 1 / 128 = 1

/-- The rank (R309) and the ASID of a queue. -/
def State.queueRank (s : State) (q : BitVec 6) : Nat := if q = 63 then 15 else s.ctlRead q 12 1 % 16
def State.queueAsid (s : State) (q : BitVec 6) : BitVec 8 := BitVec.ofNat 8 (s.ctlRead q 13 1)

/-- Whether home holds the distributor's access to a queue's control block. -/
def State.ctlHeld (s : State) (q : BitVec 6) : Bool := s.homeHeld (.outside 0) (s.qtBase.toNat + 64 * q.toNat)

/-- Whether a queue's head has been found eligible and is not on offer. -/
def State.headMarked (s : State) (q : BitVec 6) : Bool :=
  let f := s.queues.read q
  q ≠ 63 && f.eligible.isSome && f.offered.isNone

/-- Whether queue `q` has an eligible head that is not on offer; it is the head that has passed its check (R315, R317). -/
def State.headFree (s : State) (q : BitVec 6) : Bool :=
  s.headMarked q && (s.queues.read q).checked = some (BitVec.ofNat 64 (s.ctlRead q 24 8)) && s.queueOpen q && s.queueRank q < 15

/-- Whether an eligible head of rank 0 to 14 is not on offer. -/
def State.headWaiting (s : State) : Bool := (List.range 63).any fun q => s.headFree (BitVec.ofNat 6 q)

/-- Whether the checkpoint that context `n` has reached is a ballast member's at a YIELD, whose look at the queues a home holds (R329, R333,
R354). -/
def State.yieldHeld (s : State) (n : BitVec 2) : Bool :=
  let yields := match (s.core.ctx n).ck with | some k => (match k.why with | .yield _ => true | _ => false) | none => false
  n = 0 && yields && bindBallast (s.bind s.coreTile) && !bindPreempt (s.bind s.coreTile) &&
    (List.range 63).any fun q => s.headMarked (BitVec.ofNat 6 q) && s.ctlHeld (BitVec.ofNat 6 q)

/-- Whether the checkpoint that context `n` of the focused core has reached may be taken. -/
def State.ckDue (s : State) (n : BitVec 2) : Bool := s.core.ckReady n && !s.yieldHeld n

/-- The member ends after a checkpoint: fetch halts (R132), it leaves its barriers (R207) and its entry is Ending (R320). -/
def State.endNow (s : State) : State :=
  let t := s.coreTile
  ((s.mapCore fun c => { c with ending := true }).mapGangOf t fun g => { g with left := g.left ++ [t] }).setBindState t 3

/-- The member is pre-empted: its entry is Saving (R320, R327). -/
def State.preempt (s : State) : State := (s.mapCore fun c => { c with save := .reached }).setBindState s.coreTile 4

/-- The check at a CHKPT or YIELD of the main context, against SLICE as it stood at the instruction (R329). -/
def State.yieldCheck (s : State) (slice : Nat) (n : Option (BitVec 28)) : State :=
  let b := s.bind s.coreTile
  if bindBallast b && (bindPreempt b || (n.isSome && s.headWaiting)) then s.endNow
  else if bindPreempt b then s.preempt
  else if bindBackfill b && (slice = 0 || (match n with | some k => decide (slice < k.toNat * 1024) | none => false)) then s.preempt
  else s

/-- A CHKPT holds the core for two cycles after its drain, a tail's its tail alone (R286, R371). -/
def Core.ckHold (c : Core) (n : BitVec 2) : Core :=
  let rest := fun (x : Ctx) => { x with fetchAt := max x.fetchAt (c.cyc.toNat + 2) }
  if n = 0 then { c with main := rest c.main, tail0 := rest c.tail0, tail1 := rest c.tail1 } else c.mapCtx n rest

/-- What the checkpoint was taken for. -/
def State.afterCheckpoint (s : State) (n : BitVec 2) (k : Ckpt) : State :=
  match k.why with
  | .chkpt => let s := s.mapCore (·.ckHold n); if n = 0 then s.yieldCheck k.slice.toNat none else s
  | .yield m => (s.mapCore (·.ckHold n)).yieldCheck k.slice.toNat (some m)
  | .tendTail => s.mapCore fun c => c.mapCtx n fun x => { x with run := .ended }
  | .endMember => s.endNow
  | _ => s

/-- The checkpoint that context `n` of the focused core has reached is taken. -/
def State.checkpoint (s : State) (n : BitVec 2) : State :=
  match (s.core.ctx n).ck with
  | none => s
  | some k => (s.mapCore fun c => c.checkpoint n k).afterCheckpoint n k

/-- CHECKPOINT of context `ev.ctx` of tile `ev.tile` (R371). -/
def execCheckpoint (s : State) : Result :=
  let s := s.focus s.ev.tile
  .next (if s.ckDue s.ev.ctx then s.checkpoint s.ev.ctx else s)

/-! ## Rollback (R374 to R377) -/

/-- Whether a rollback event of context `n` is to be acted on: one of this cycle waits for its end, and a frozen core rests (R370, R384). -/
def Core.rollDue (c : Core) (n : BitVec 2) : Bool :=
  (c.ctx n).rollPend.isSome && (c.ctx n).rolling.isNone && !(c.ctx n).rollFresh && c.frozen.isNone

/-- Whether the restore of context `n` may happen. -/
def Core.restoreDue (c : Core) (n : BitVec 2) : Bool := (c.ctx n).rolling.isSome && c.loadsSettled n && c.frozen.isNone

/-- ROLLBACK_EVENT: steps 1, 2 and 4. -/
def execRollbackEvent (s : State) : Result :=
  let s := s.focus s.ev.tile
  .next (if s.core.rollDue s.ev.ctx then s.rollbackStop s.ev.ctx else s)

/-- ROLLBACK_RESTORE: steps 5 to 7, once the phase's loads have arrived. -/
def execRollbackRestore (s : State) : Result :=
  let s := s.focus s.ev.tile
  .next (if s.core.restoreDue s.ev.ctx then s.rollbackRestore s.ev.ctx else s)

/-! ## Pre-emption in a wait (R327) -/

/-- Whether the main context of a member with PREEMPT set has waited long enough, in a protected phase. -/
def State.waitedOut (s : State) : Bool :=
  let x := s.core.main
  s.core.bound && s.core.frozen.isNone && s.core.save = .none && !s.core.ending && bindPreempt (s.bind s.coreTile) &&
    x.hold = some (.wait true) && 1300 ≤ x.waitCycles && x.unprot = .safe && !x.irrevOut && x.ck.isNone && x.rollPend.isNone &&
    x.rolling.isNone

/-- The main context's registers are those of its last checkpoint again, and the member is no longer on its way to one; damaged ones are
fatal (R327, R380). -/
def State.backToPoint (s : State) : State :=
  if s.core.dupBad 0 then s.killMember ⟨.dataUe, 15, 0, 0⟩ 0 s.core.main.restart 0 Cause.dataUe.code 1 Cause.dataUe.code true
  else s.mapCore fun c => { c.restore 0 with save := .none }

/-- WAIT_PREEMPTION: the core rolls the member back, and then pre-empts it, or ends a ballast member (R333). A core that a trap has frozen
meanwhile rests (R384). -/
def execWaitPreemption (s : State) : Result :=
  let s := s.focus s.ev.tile
  .next <|
    if s.waitedOut then (s.rollbackStop 0).mapCore fun c => { c with save := .wanted }
    else if s.core.save = .wanted && s.core.frozen.isNone && s.core.loadsSettled 0 then
      let bad := s.core.dupBad 0
      let s := s.backToPoint
      if bad then s else if bindBallast (s.bind s.coreTile) then s.endNow else s.preempt
    else s

/-! ## Late yields and phase overruns (R326, R328) -/

/-- A record about the member that is no trap (R385). -/
def State.memberRec (s : State) (kind : Nat) : State :=
  let r : Rec :=
    { kind := kind, cause := 0, who := whoOf s.coreTile 0, unit := 15, flags := s.core.main.unprotFlag, rolls := s.core.main.rolls, asid := s.core.asid.toNat,
      ix := s.core.main.ix.toNat, addr := 0, detail := 0, sched := s.core.sched.toNat, orphans := [],
      teamno := (bindTeamNo (s.bind s.coreTile)).toNat, queue := (bindQueue (s.bind s.coreTile)).toNat }
  s.postRecord (dieOf s.coreTile) (some (s.coreTile, 0)) r.bits

/-- Whether the yield deadline has passed without a record. -/
def Core.yieldLate (c : Core) : Bool :=
  c.bound && !c.latePosted && (match c.deadline with | some d => decide (d < c.cyc.toNat) | none => false)

/-- YIELD_DEADLINE. -/
def execYieldDeadline (s : State) : Result :=
  let s := s.focus s.ev.tile
  .next (if s.core.yieldLate then (s.mapCore fun c => { c with latePosted := true }).memberRec 6 else s)

/-- Whether the phase has run past its limit without a record. -/
def State.overrun (s : State) : Bool :=
  s.core.bound && !s.core.overPosted && (bindPhaseLim (s.bind s.coreTile)).toNat < s.core.cyc.toNat - s.core.main.phaseStart

/-- PHASE_OVERRUN. -/
def execPhaseOverrun (s : State) : Result :=
  let s := s.focus s.ev.tile
  .next (if s.overrun then (s.mapCore fun c => { c with overPosted := true }).memberRec 5 else s)

end Sys2Proof.Machine
end

