-- ==== Sys2Proof/Machine/Xlate.lean ====
section
/-!
DEFINITION. Page walks and translation faults (R337 to R343), invalidation (R340), and the firmware registers of translation, overlays,
pools and the tail store (R342, R351 to R354).
-/
namespace Sys2Proof.Machine

/-! ## Walks (R337, R339, R341, R342) -/

/-- A memory record of a poisoned granule (R381, R385), posted at the home's die when the home is on this package (R15). -/
def State.memoryRecord (s : State) (pa : Nat) : State :=
  let r : Rec :=
    { kind := 8, cause := 0, who := 0, unit := 15, flags := 0, rolls := 0, asid := 0, ix := 0, addr := pa, detail := 0, sched := 0,
      orphans := [], teamno := 0, queue := 0 }
  s.postAtHome pa r.bits

/-- The stack of a row, with its package (R335). -/
def stackOf (pa : BitVec 45) : BitVec 9 := (channelOf pa.toNat).1

/-- Whether the one spare row that a bank has for soft repairs is taken since reset, or about to be (R406). -/
def State.spareTaken (s : State) (row : BitVec 45) : Bool :=
  (s.softDone ++ s.quiesces.map (·.row) ++ s.repairQ).any fun r => Config.rowBank r = Config.rowBank row

/-- A soft repair of a row of this package begins when no channel of its stack is quiesced; else it waits. Without a spare row firmware
retires the page (R15, R406). -/
def State.startRepair (s : State) (row : BitVec 45) : State :=
  if row.toNat / 2 ^ 39 ≠ Config.pkgId.toNat || s.spareTaken row then s
  else if s.quiesces.any fun q => q.stack = stackOf row then { s with repairQ := s.repairQ ++ [row] }
  else { s with quiesces := s.quiesces ++ [⟨stackOf row, (channelOf row.toNat).2, s.refClk + 20000, row, []⟩] }

/-- A device granule is poisoned: its record, and a soft repair of the row that holds it (R381, R405). DESIGN CHOICE: log 62. -/
def State.poisonGranule (s : State) (g : Nat) : State :=
  ({ s with poison := if s.poison.contains g then s.poison else s.poison ++ [g] }.memoryRecord g).startRepair (BitVec.ofNat 45 g)

/-- UNIT of a walk's record: its slot's, a copy engine's, or that of the request's slot (R342). -/
def State.walkUnit (s : State) (w : Walk) : Nat :=
  if w.unit = 6 then (match (s.coreAt w.tile).req w.cmd with | some r => (slotUnit r.slot).toNat | none => 0) else w.unit.toNat

/-- The translation record of R342. -/
def State.walkRecord (s : State) (w : Walk) (reason level entry token : Nat) : BitVec 512 :=
  let engine := w.unit = 4 || w.unit = 5
  ofBytes 512 (leBytes 1 1 ++ leBytes 1 (w.access.toNat + (if engine then 4 else 0)) ++ leBytes 2 (whoOf w.tile w.ctx) ++
    leBytes 1 (s.walkUnit w) ++ leBytes 1 reason ++ leBytes 1 level ++ leBytes 1 w.asid.toNat ++ leBytes 8 w.va.toNat ++
    leBytes 8 w.progress ++ leBytes 8 token ++ leBytes 8 entry)

/-- A walk meets a poisoned entry: DATA_UE on the context whose access needed it (R337, R380). -/
def State.walkPoison (s : State) (w : Walk) : State :=
  let s := { s with walks := s.walks.filter fun (x : Walk) => x.id ≠ w.id }.focus w.tile
  let ix := (s.core.ctx w.ctx).ix
  if w.unit = 4 || w.unit = 5 then
    let e : BitVec 1 := w.unit.setWidth 1
    match (s.core.queue e).find? fun k => k.id = w.cmd with
    | some k => (s.mapCore (·.putCmd e { k with err := true, done := true, buf := [] })).takeTrap ⟨.dataUe, w.unit.setWidth 8, w.va, 0⟩ w.ctx ix
    | none => s
  else if w.unit = 6 then
    match s.core.req w.cmd with
    | some r => s.answerUe r
    | none => s
  else s.takeTrap ⟨.dataUe, w.unit.setWidth 8, w.va, 0⟩ w.ctx ix

/-- A miss has faulted: it has its own record and token, once the ring has room (R341, R342). -/
def State.walkFault (s : State) (w : Walk) (reason level entry : Nat) : State :=
  let d := dieOf w.tile
  if s.postWaits d then s
  else
    let n := s.nextToken.read d
    { s with
      walks := s.walks.map fun (x : Walk) => if x.id = w.id then { x with token := some n } else x
      nextToken := s.nextToken.write d ((n + 1) % 2 ^ 48) }.ringPut d (s.walkRecord w reason level entry n)

/-- A miss is served: its core caches the translation. -/
def State.walkFill (s : State) (w : Walk) (t : TlbEntry) : State :=
  ({ s with walks := s.walks.filter fun (x : Walk) => x.id ≠ w.id }.focus w.tile).tlbFill (w.unit = 4 || w.unit = 5) t

/-- The walk that serves a miss and all that share it ends, unless home holds the read of an entry (R338, R339). -/
def State.walkStep (s : State) (w : Walk) : State :=
  let served := s.walks.filter fun x => x.token.isNone && x.shares w
  let key := HeldAcc.walk ((served.head?.map (·.id)).getD w.id)
  match s.pageWalk key w.asid w.va.toNat with
  | .ok leaf level =>
    let t : TlbEntry := ⟨w.asid, BitVec.ofNat 52 (w.va.toNat / 2 ^ pageBits level * 2 ^ pageBits level), level, leaf⟩
    served.foldl (fun s x => s.walkFill x t) s
  | .fault reason level entry => served.foldl (fun s x => s.walkFault x reason level entry) s
  | .poison pa => served.foldl State.walkPoison (s.memoryRecord pa)
  | .wait pa => s.arriveHeld key pa

/-- TRANSLATION_WALK: the walk of miss number `ev.id`, while it has not faulted and a walker serves it. -/
def execTranslationWalk (s : State) : Result :=
  .next <|
    match s.walks.find? fun w => w.id = s.ev.id with
    | some w => if w.token.isNone && s.hasWalker w then s.walkStep w else s
    | none => s

/-- XRESOLVE at die `ev.die` with token `ev.value`, once the stores of the die's scheduling core before it have performed: the unit that waits with it walks again, and any
other token is ignored (R343). -/
def execXresolve (s : State) : Result :=
  let token := field s.ev.value 0 48
  let hit := fun (w : Walk) => dieOf w.tile = s.ev.die && w.token = some token
  .next <|
    if s.ctlPending (s.ev.die.setWidth 3) then s.later .xresolve
    else { s with walks := s.walks.filter (fun w => !hit w) ++ (s.walks.filter hit).map fun w => { w with token := none } }

/-! ## The fault ring (R342, R386) -/

/-- Moves the first record that waits for a die's ring into it; after a kill record the entry becomes free. -/
def State.drainOne (s : State) (d : BitVec 2) : State :=
  match s.recWait.find? fun x => x.die = d with
  | none => s
  | some x =>
    if s.ringFull d then s
    else
      let s := { s with recWait := s.recWait.erase x }.ringPut d x.bits
      match x.holder with
      | some (t, _) => if x.isKill then s.releaseTile t else s
      | none => s

/-- FRCONS of die `ev.die` is written with `ev.value`; records that waited enter the ring in order. -/
def execFrcons (s : State) : Result :=
  let d := s.ev.die
  let r := s.rings.read d
  let cons : BitVec 64 := s.ev.value.setWidth 64
  let s := { s with rings := s.rings.write d { r with cons := cons, irq := decide (r.prod ≠ cons) } }
  .next ((List.range s.recWait.length).foldl (fun (s : State) _ => s.drainOne d) s)

/-! ## Invalidation (R340, R361) -/

/-- The fields of XINV. -/
def xinvAll (x : BitVec 64) : Bool := x.getLsbD 62
def xinvAsid (x : BitVec 64) : BitVec 8 := x.extractLsb' 52 8
def xinvFirst (x : BitVec 64) : Nat := field x 16 36 * 65536
def xinvLast (x : BitVec 64) : Nat := xinvFirst x + field x 0 16 * 65536

/-- Whether `n` bytes at an address of an address space overlap the range of an invalidation. -/
def xinvHits (x : BitVec 64) (asid : BitVec 8) (va n : Nat) : Bool :=
  asid = xinvAsid x && (xinvAll x || (va < xinvLast x && xinvFirst x < va + n))

/-- Whether a cached translation is dropped: a larger page whole when any part of it overlaps. -/
def TlbEntry.dropped (x : BitVec 64) (t : TlbEntry) : Bool := xinvHits x t.asid t.va.toNat (2 ^ pageBits t.level)

/-- Whether the page of a level that holds an address overlaps the range. -/
def xinvHitsPage (x : BitVec 64) (asid : BitVec 8) (va : Nat) (level : BitVec 2) : Bool :=
  xinvHits x asid (va / 2 ^ pageBits level * 2 ^ pageBits level) (2 ^ pageBits level)

/-- What a core drops: translations, lines, block map entries and once-cache entries of the range. -/
def Core.invalidate (c : Core) (x : BitVec 64) : Core :=
  { c with
    utlb := c.utlb.filter fun t => !t.dropped x
    ctlb := c.ctlb.filter fun t => !t.dropped x
    ro := c.ro.filter fun l => !xinvHitsPage x l.asid l.va.toNat l.level
    bmc := c.bmc.filter fun e => !xinvHitsPage x e.asid e.va.toNat e.level
    once := c.once.filter fun e => !xinvHits x e.asid (e.cell.toNat * 32) 32 }

/-- Whether an address was translated through a translation that an invalidation drops. -/
def usedGone (x : BitVec 64) (gone : List TlbEntry) (asid : BitVec 8) (va : Nat) : Bool :=
  xinvHits x asid (va / 65536 * 65536) 65536 || gone.any fun t => t.covers asid va

/-- Whether a holding-buffer entry was translated through a translation that is dropped. -/
def HEntry.dropped (x : BitVec 64) (gone : List TlbEntry) (e : HEntry) : Bool := e.vpns.any fun v => usedGone x gone e.asid (v.toNat * 65536)

/-- The contexts of a core that an invalidation awaits, with their phases. -/
def Core.xinvWaits (c : Core) (t : BitVec 7) (x : BitVec 64) (gone : List TlbEntry) : List (BitVec 7 × BitVec 2 × Nat) :=
  ([0#2, 1#2, 2#2].filter fun n => ((c.ctx n).part ++ (c.ctx n).released).any fun e => e.dropped x gone).map fun n => (t, n, (c.ctx n).phase)

/-- The cores that are not idle, with their tiles. -/
def State.cores (s : State) : List (BitVec 7 × Core) := (s.coreTile, s.core) :: s.parked.map fun p => (BitVec.ofNat 7 p.1, p.2)

/-- Every cache of the package drops what an invalidation names. -/
def State.invalidate (s : State) (x : BitVec 64) : State :=
  { s with
    lltlb := s.lltlb.map fun l => l.filter fun t => !t.dropped x
    core := s.core.invalidate x
    parked := s.parked.map fun p => (p.1, p.2.invalidate x) }

/-- Whether a request that has been translated through a dropped translation has not been answered. -/
def Req.inRange (r : Req) (x : BitVec 64) (gone : List TlbEntry) : Bool :=
  !r.pas.isEmpty &&
    (if r.addrs.isEmpty then usedGone x gone r.asid r.va.toNat || usedGone x gone r.asid (r.va.toNat + 255)
     else r.addrs.any fun e => usedGone x gone r.asid e.2.toNat)

/-- A request that has not gone out yet gives up what dropped translations gave it, and is translated anew: the elements, from the first of them on,
of a gather or scatter of which not every element is translated, and the header of a POPW.b that waits at home (R340). DESIGN CHOICE: log 130. -/
def Req.retranslated (r : Req) (x : BitVec 64) (gone : List TlbEntry) : Req :=
  let hit := fun (va : BitVec 64) => usedGone x gone r.asid va.toNat
  let kept := ((r.addrs.take r.pas.length).takeWhile fun e => !hit e.2).length
  match r.kind with
  | .pop true => if r.waiting && r.result.isNone && hit r.va then { r with pas := [], waiting := false } else r
  | .gather _ => if r.pas.length < r.addrs.length then { r with pas := r.pas.take kept, pages := r.pages.take kept } else r
  | .scatter _ => if r.pas.length < r.addrs.length then { r with pas := r.pas.take kept, pages := r.pages.take kept } else r
  | _ => r

/-- The requests of every core that have not gone out give up dropped translations; a POPW.b leaves the waiters. -/
def State.retranslate (s : State) (x : BitVec 64) (gone : List TlbEntry) : State :=
  let again : Core → Core := fun c => { c with reqs := c.reqs.map fun (r : Req) => r.retranslated x gone }
  let s : State := { s with core := again s.core, parked := s.parked.map fun (p : Nat × Core) => (p.1, again p.2) }
  { s with waiters := s.waiters.filter fun w => (s.coreAt w.2.1).reqs.any fun r => r.id = w.2.2 && r.waiting }

/-- The requests of a core that dropped translations have sent on their way and that have still to perform. -/
def Core.xinvReqs (c : Core) (t : BitVec 7) (x : BitVec 64) (gone : List TlbEntry) : List (BitVec 7 × Nat) :=
  (c.reqs.filter fun r => r.result.isNone && r.inRange x gone).map fun r => (t, r.id)

/-- XINV is written with `ev.value`: a write of 1 to BUSY starts an invalidation, and is ignored while one runs; a write of 0 to BUSY writes the
other fields and leaves an invalidation that runs as it is (R6, R340). DEDUCED: log 51. -/
def execXinv (s : State) : Result :=
  let x : BitVec 64 := s.ev.value.setWidth 64 &&& 0xCFFFFFFFFFFFFFFF#64
  .next <|
    if !x.getLsbD 63 then { s with xinv := { s.xinv with reg := setField x 63 1 (field s.xinv.reg 63 1) } }
    else if s.xinv.reg.getLsbD 63 then s
    else
      let gone := (s.lltlb.toList.flatten ++ (s.cores.map fun p => p.2.utlb ++ p.2.ctlb).flatten).filter (·.dropped x)
      let s := s.retranslate x gone
      { s.invalidate x with xinv :=
          { reg := x, range := x, waits := (s.cores.map fun p => p.2.xinvWaits p.1 x gone).flatten
            reqs := (s.cores.map fun p => p.2.xinvReqs p.1 x gone).flatten, gone := gone } }

/-- Whether a context has passed the checkpoint that an invalidation awaits and the entries it released have performed. -/
def State.xinvPassed (s : State) (w : BitVec 7 × BitVec 2 × Nat) : Bool :=
  let x := (s.coreAt w.1).ctx w.2.1
  decide (w.2.2 < x.phase) && x.released.all fun e => !(decide (e.phase ≤ w.2.2) && e.dropped s.xinv.range s.xinv.gone)

/-- Whether every part of an invalidation has happened: its contexts have passed their checkpoints, and the requests that dropped translations had sent
on their way have performed. -/
def State.xinvDone (s : State) : Bool :=
  s.xinv.reg.getLsbD 63 && s.xinv.waits.all s.xinvPassed &&
    s.xinv.reqs.all fun w => !((s.coreAt w.1).reqs.any fun r => r.id = w.2 && r.result.isNone)

/-- XINV_COMPLETE: what accesses translated before have cached since is dropped too, and BUSY clears. -/
def execXinvComplete (s : State) : Result :=
  .next (if s.xinvDone then { s.invalidate s.xinv.range with xinv := ⟨s.xinv.reg &&& 0x7FFFFFFFFFFFFFFF#64, 0, [], [], []⟩ } else s)

/-! ## Overlays, pools and the tail store (R351, R353, R354) -/

/-- Tile of entry `n` of a die's slot table (R319). -/
def tileOfEntry (d : BitVec 2) (n : Nat) : BitVec 7 := tileOf (8 * (d.toNat % 2) + n % 8) (4 * (d.toNat / 2) + n / 8)

/-- ISFLUSH of die `ev.die` with mask `ev.value`; a bound core keeps its overlay until its member ends. -/
def execIsflush (s : State) : Result :=
  .next <|
    (((List.range 32).filter fun n => s.ev.value.getLsbD n).map (tileOfEntry s.ev.die)).foldl (fun (s : State) t =>
      let c := s.coreAt t
      if c.bound then (if s.isflush.contains t then s else { s with isflush := s.isflush ++ [t] })
      else s.setCoreAt t { c with overlay := c.overlay.map fun (o : Overlay) => { o with tagged := false } }) s

/-- KVRECLAIM of die `ev.die`: slot `ev.count` of pool `ev.port`. The result reads 1 BUSY, 2 ALREADY or 3 OK; a slot of no pool has none. -/
def execKvreclaim (s : State) : Result :=
  let p := s.pools.read s.ev.port
  let d := s.ev.die
  .next <|
    if !p.valid || p.nslot.toNat ≤ s.ev.count then { s with kvRes := s.kvRes.write d 0 }
    else
      let pa := p.stateBase.toNat + 4 * s.ev.count
      let w := s.homeRead pa 4
      if s.homeHeld s.outsideKey pa then { s with kvRes := s.kvRes.write d 0 }.again pa .kvreclaim
      else
        let s := s.outsideDone
        if w % 65536 ≠ 0 then { s with kvRes := s.kvRes.write d 1 }
        else if 2 ^ 31 ≤ w then { s with kvRes := s.kvRes.write d 2 }
        else { s.homeStepLE pa 4 (w + 2 ^ 31) with kvRes := s.kvRes.write d 3 }

/-- Whether a write of KVTSCFG is legal: its size, and its base on a present stack of the die. -/
def kvtsLegal (d : BitVec 2) (x : BitVec 64) : Bool :=
  let base := field x 20 25 * 2 ^ 20
  field x 0 5 ≤ 16 && base / 2 ^ 39 = Config.pkgId.toNat && homeDie base = d && physExists base

/-- KVTSCFG of die `ev.die` with `ev.value`: an illegal write changes nothing. A legal one while BUSY is set takes effect too, and the tail stores
replaced before it stay under reconfiguration with it (R6, R354). DEDUCED: log 50. -/
def execKvtscfg (s : State) : Result :=
  let d := s.ev.die
  let x : BitVec 64 := s.ev.value.setWidth 64 &&& 0x00001FFFFFF0001F#64
  .next <|
    if !kvtsLegal d x then s
    else { s with kvtsOld := s.kvtsOld.write d (s.kvts.read d :: s.kvtsOld.read d), kvts := s.kvts.write d (x ||| 0x8000000000000000#64) }

/-- KVTSCFG_COMPLETE of die `ev.die`: the lines are written back and loaded, BUSY clears, and the writes that waited perform. -/
def execKvtscfgComplete (s : State) : Result :=
  let d := s.ev.die
  .next { s with kvts := s.kvts.write d (s.kvts.read d &&& 0x7FFFFFFFFFFFFFFF#64), kvtsOld := s.kvtsOld.write d [] }.retryStalled

/-- A region record after a write: the Sieve's STATE stays and reserved bits read zero (R265). -/
def regionWritten (old new : BitVec 128) : BitVec 128 :=
  setField (setField new 52 12 0) 114 2 (field old 114 2)

/-- REGISTER_WRITE: the registers without behaviour of their own, by `ev.id` (assumption log 22): 0 ASTBASE, 1 QTBASE, 2 FRBASE and 3 FRCAP of
die `ev.die`, 4 pool record `ev.port`, 5 the dump area, 6 TARGET of the power page, 7 a memory region registered for RDMA, 8 none
registered, 9 queue pair `ev.count` of Ethernet port `ev.port`, open with `ev.flag` and else closed (R311, R417), 10 a region record, whose STATE and reserved bits keep their values (R265). A write to a read-only register is ignored. -/
def execRegisterWrite (s : State) : Result :=
  let v := s.ev.value
  let pa : BitVec 45 := v.setWidth 45
  let d := s.ev.die
  .next <|
    match s.ev.id with
    | 0 => { s with astBase := pa &&& 0x1FFFFFFFF000#45 }
    | 1 => { s with qtBase := pa }
    | 2 => { s with rings := s.rings.write d { s.rings.read d with base := pa &&& 0x1FFFFFFFF000#45 } }
    | 3 => { s with rings := s.rings.write d { s.rings.read d with cap := v.setWidth 32 } }
    | 4 => { s with pools := s.pools.write s.ev.port ⟨s.ev.flag, s.ev.gang.setWidth 8, s.ev.addr.setWidth 52, BitVec.ofNat 25 s.ev.count, pa⟩ }
    | 5 => { s with dumpArea := pa }
    | 6 => { s with powerTarget := v.setWidth 32 }
    | 7 => { s with rdma := s.rdma ++ [(s.ev.gang.setWidth 8, s.ev.addr.setWidth 52, s.ev.count)] }
    | 8 => { s with rdma := [] }
    | 9 =>
      let q := (s.ev.port, BitVec.ofNat 12 s.ev.count)
      { s with qps := (s.qps.filter (· ≠ q)) ++ if s.ev.flag then [q] else [] }
    | 10 =>
      let k : BitVec 8 := BitVec.ofNat 8 s.ev.count
      { s with regions := s.regions.write k (regionWritten (s.regions.read k) (v.setWidth 128)) }
    | _ => s

end Sys2Proof.Machine
end

