-- ==== Sys2Proof/Machine/Launch.lean ====
section
/-!
DEFINITION. Launch queues and their heads (R308 to R318), bind records and gangs (R319 to R322), member creation (R103, R323), and the ends of
members and teams (R132, R324, R326, R330).
-/
namespace Sys2Proof.Machine

/-! ## Queues (R308 to R310) -/

def State.ctlWrite (s : State) (q : BitVec 6) (off n x : Nat) : State := s.homeWriteLE (s.qtBase.toNat + 64 * q.toNat + off) n x

def State.ring (s : State) (q : BitVec 6) : Nat := s.ctlRead q 0 8
def State.cap (s : State) (q : BitVec 6) : Nat := s.ctlRead q 8 4
def State.tailSeq (s : State) (q : BitVec 6) : Nat := s.ctlRead q 16 8
def State.headSeq (s : State) (q : BitVec 6) : Nat := s.ctlRead q 24 8
def State.doneSeq (s : State) (q : BitVec 6) : Nat := s.ctlRead q 32 8
def State.trigSeq (s : State) (q : BitVec 6) : Nat := s.ctlRead q 40 8

/-- The device address of the ring slot of a sequence number. -/
def State.slotVa (s : State) (q : BitVec 6) (n : Nat) : Nat := s.ring q + 128 * (n % s.cap q)

/-- What the distributor and dispatch find at a device address for the access `key`: it translates, and its page is not CMP and has W where it is
needed (R103, R312, R324). -/
def State.usable (s : State) (key : HeldAcc) (asid : BitVec 8) (va : Nat) (w : Bool) : PaRes :=
  match s.walkPa key asid va with
  | .ok pa leaf => if leafCMP leaf || (w && !leafW leaf) then .none else if s.homeHeld key pa then .held pa else .ok pa leaf
  | r => r

/-- The ring slot of a sequence number as the distributor finds it. -/
def State.ringSlot (s : State) (q : BitVec 6) (n : Nat) : PaRes :=
  if s.ctlHeld q then .held (s.qtBase.toNat + 64 * q.toNat)
  else if s.cap q = 0 then .none
  else match s.walkPa (.outside 0) (s.queueAsid q) (s.slotVa q n) with
    | .ok pa leaf => if s.homeHeld (.outside 0) pa then .held pa else .ok pa leaf
    | r => r

/-- The physical address of a queue's head when it is present (R310). DEDUCED: log 79. -/
def State.head (s : State) (q : BitVec 6) : Option Nat :=
  match s.ringSlot q (s.headSeq q) with
  | .ok pa _ => if s.homeRead (pa + 120) 8 = s.headSeq q then some pa else none
  | _ => none

/-- Whether a queue's head is absent (R311). -/
def State.headAbsent (s : State) (q : BitVec 6) : Bool :=
  s.cap q ≠ 0 && s.headSeq q < s.tailSeq q && (s.head q).isNone && (match s.ringSlot q (s.headSeq q) with | .held _ => false | _ => true)

/-- Whether home holds an access to a queue's control block or to the ring slot of its head (R354, R405). -/
def State.slotHeld (s : State) (q : BitVec 6) : Bool := match s.ringSlot q (s.headSeq q) with | .held _ => true | _ => false

/-- QPUSH at the queue's home (R310): the record and TAILSEQ change in one step. -/
def State.qpushStep (s : State) (r : Req) (q : BitVec 6) : State :=
  let done := fun (s : State) (x : Word) => s.mapCore (·.putReq { r with result := some (x, 0) })
  let ctl := s.qtBase.toNat + 64 * q.toNat
  let at_ := fun (a : Nat) (bs : List Byte) => bs.zipIdx.map fun b => (a + b.2, b.1)
  s.atHome (s.reqKey r) r.home fun s => s.atHome (s.reqKey r) ctl fun s =>
  if s.poisoned r.home 128 then s.mapCore (·.putReq { r.damaged with result := some (0, 0) })
  else if q = 63 || !s.queueOpen q || r.y.setWidth 8 ≠ s.queueAsid q || s.cap q = 0 then done s 2
  else
    match s.walkPa (s.reqKey r) (s.queueAsid q) (s.slotVa q (s.tailSeq q)) with
    | .none => done s 2
    | .held pa => s.arriveHeld (s.reqKey r) pa
    | .ok pa leaf =>
      if !leafW leaf then done s 2
      else if s.tailSeq q - s.headSeq q = s.cap q then done s 1
      else
        s.atHome (s.reqKey r) pa fun s =>
          let record := at_ pa (Memory.readList s.mem r.home 120 ++ leBytes 8 (s.tailSeq q))
          let tail := at_ (ctl + 16) (leBytes 8 (s.tailSeq q + 1))
          done (s.homeCells (if pa < ctl then record ++ tail else tail ++ record)) 0

/-- QPUSH_HOME_STEP. -/
def execQpushHomeStep (s : State) : Result :=
  let s := s.focus s.ev.tile
  .next <| s.performable s.ev.id fun r =>
    match r.kind with
    | .qpush q => s.qpushStep r q
    | _ => s

/-! ## Completion of records (R314, R324, R330) -/

/-- The number after a run of members of the list, from `n` on. -/
def passRun (n : Nat) (l : List (BitVec 64)) : Nat :=
  l.foldl (fun (m : Nat) _ => if l.any fun x => x.toNat = m then m + 1 else m) n

/-- Moves DONESEQ and TRIGSEQ past consecutive completed and triggered records. -/
def State.advanceMarks (s : State) (q : BitVec 6) : State :=
  let f := s.queues.read q
  let d := passRun (s.doneSeq q) f.doneSet
  let t := passRun (max (s.trigSeq q) d) (f.doneSet ++ f.trigSet)
  let s := (s.ctlWrite q 32 8 d).ctlWrite q 40 8 t
  let done := f.doneSet.filter fun (x : BitVec 64) => t ≤ x.toNat || d ≤ x.toNat
  let trig := f.trigSet.filter fun (x : BitVec 64) => t ≤ x.toNat
  let f' : QFlags := { f with doneSet := done, trigSet := trig }
  { s with queues := s.queues.write q f' }

/-- The status record of a launch record, where its address allows a write (R314, R324). -/
def State.putStatus (s : State) (asid : BitVec 8) (status code cause nkill seq : Nat) : State :=
  if status = 0 then s
  else
    match s.walkPa (.outside 0) asid status with
    | .ok pa leaf =>
      if leafCMP leaf || !leafW leaf then s
      else s.homeWrite pa (leBytes 1 code ++ leBytes 1 cause ++ leBytes 2 nkill ++ leBytes 4 0 ++ leBytes 8 seq)
    | _ => s

/-- Whether the distributor cannot complete a record yet: home holds the walk of its status address, the status record or the control block,
and the status record comes before the watermarks (R324). -/
def State.completionHeld (s : State) (q : BitVec 6) (asid : BitVec 8) (status : Nat) : Bool :=
  s.ctlHeld q || (status ≠ 0 && (match s.walkPa (.outside 0) asid status with
    | .held _ => true
    | .ok pa leaf => !leafCMP leaf && leafW leaf && s.homeHeld (.outside 0) pa
    | .none => false))

/-- A launch record of a queue completes. -/
def State.complete (s : State) (q : BitVec 6) (seq : Nat) : State :=
  let f := s.queues.read q
  { s with queues := s.queues.write q { f with doneSet := f.doneSet ++ [BitVec.ofNat 64 seq] } }.advanceMarks q

/-- HEADSEQ advances past the head, which leaves offer. -/
def State.advanceHead (s : State) (q : BitVec 6) : State :=
  let f := s.queues.read q
  let s := s.ctlWrite q 24 8 (s.headSeq q + 1)
  { s with queues := s.queues.write q { f with checked := none, eligible := none, offered := none, absentAt := none } }

/-- The head completes with a code, never offered or taken off offer (R315, R317). -/
def State.failHead (s : State) (q : BitVec 6) (pa code : Nat) : State :=
  let seq := s.headSeq q
  let status := s.homeRead (pa + 72) 8
  ((s.advanceHead q).putStatus (s.queueAsid q) status code 0 0 seq).complete q seq

/-! ## Heads (R311 to R316) -/

/-- Whether a dependence breaks its limits (R313). DEDUCED: log 78. -/
def depBad (q : BitVec 6) (seq : Nat) (d : BitVec 64) : Bool :=
  field d 48 8 ≠ 0 || (d.getLsbD 63 && (field d 56 6 = 63 || (field d 56 6 = q.toNat && seq ≤ field d 0 48)))

/-- Whether a dependence is satisfied (R313). -/
def State.depMet (s : State) (d : BitVec 64) : Bool :=
  let q : BitVec 6 := d.extractLsb' 56 6
  !d.getLsbD 63 || (!s.ctlHeld q && field d 0 48 < (if d.getLsbD 62 then s.trigSeq q else s.doneSeq q))

/-- The four dependences of a record. -/
def State.deps (s : State) (pa : Nat) : List (BitVec 64) := (List.range 4).map fun i => BitVec.ofNat 64 (s.homeRead (pa + 40 + 8 * i) 8)

/-- Whether the page of a record's STATUS lacks W, or the address does not translate (R312). -/
def State.statusBad (s : State) (q : BitVec 6) (status : Nat) : Bool :=
  status ≠ 0 && (match s.walkPa (.outside 0) (s.queueAsid q) status with | .ok _ leaf => !leafW leaf | _ => true)

/-- Whether a present head breaks R312 or R313. ENTRY is compared with the first min(NENTRY, 16) fields. DESIGN CHOICE: log 95. A record, a control
block or a header that is poisoned is read as its bytes stand. DESIGN CHOICE: log 121. -/
def State.headBad (s : State) (q : BitVec 6) (pa : Nat) : Bool :=
  let f := fun (o n : Nat) => s.homeRead (pa + o) n
  let flags := f 12 2
  let image := f 0 8
  if flags / 8 ≠ 0 || f 80 40 ≠ 0 || image % 128 ≠ 0 || f 72 8 % 16 ≠ 0 || s.statusBad q (f 72 8) ||
      (if flags % 2 = 1 then f 14 2 ≠ 0 else (f 14 2 = 0 || 128 < f 14 2 || f 24 8 ≠ 0)) ||
      (s.deps pa).any (depBad q (s.headSeq q)) then true
  else
    match s.usable (.outside 0) (s.queueAsid q) image false with
    | .ok h _ =>
      let n := min (s.homeRead (h + 6) 2) 16
      !((List.range n).any fun i => s.homeRead (h + 64 + 4 * i) 4 = f 8 4) || (f 36 4 ≠ 0 && f 36 4 < s.homeRead (h + 44) 4)
    | _ => true

/-- Whether home holds a read that the check of a present head makes. -/
def State.headHeld (s : State) (q : BitVec 6) (pa : Nat) : Bool :=
  s.completionHeld q (s.queueAsid q) (s.homeRead (pa + 72) 8) ||
    (match s.usable (.outside 0) (s.queueAsid q) (s.homeRead pa 8) false with | .held _ => true | _ => false)

/-- Whether the head at hand has passed the check. -/
def State.headChecked (s : State) (q : BitVec 6) : Bool := (s.queues.read q).checked = some (BitVec.ofNat 64 (s.headSeq q))

/-- Whether queue `q` has a present head that has not been checked. -/
def State.headNew (s : State) (q : BitVec 6) : Bool :=
  q ≠ 63 && !s.headChecked q && (match s.head q with | some pa => !s.headHeld q pa | none => false)

/-- HEAD_PRESENT of queue `ev.queue` (R315). -/
def execHeadPresent (s : State) : Result :=
  let q := s.ev.queue
  .next <|
    match (if s.headNew q then s.head q else none) with
    | none => s
    | some pa =>
      if s.headBad q pa then s.failHead q pa 2
      else { s with queues := s.queues.write q { s.queues.read q with
          checked := some (BitVec.ofNat 64 (s.headSeq q)), eligible := none, offered := none, absentAt := none } }

/-- The tiles that are not fused off (R315). -/
def State.tiles (s : State) : Nat := ((List.range 128).filter fun t => !(s.map.read (BitVec.ofNat 7 t)).fused).length

/-- The team count at an address of the queue's address space, where it can be read (R315, R316); a poisoned one cannot. DESIGN CHOICE: log 121. -/
def State.teamCount (s : State) (q : BitVec 6) (at_ : Nat) : Option Nat :=
  if at_ % 8 = 0 then
    match s.usable (.outside 0) (s.queueAsid q) at_ false with
    | .ok c _ => if s.poisoned c 8 then none else some (s.homeRead c 8)
    | _ => none
  else none

/-- The resolved team size, or the code with which the head completes (R315, R316). -/
def State.teamSize (s : State) (q : BitVec 6) (pa : Nat) : Except Nat Nat :=
  let flags := s.homeRead (pa + 12) 2
  match (if flags % 2 = 1 then s.teamCount q (s.homeRead (pa + 24) 8) else some (s.homeRead (pa + 14) 2)) with
  | none => .error 2
  | some n =>
    if n = 0 then .error 0
    else if 128 < n || s.tiles < n || (flags / 2 % 2 = 1 && n % 4 ≠ 0) then .error 3
    else .ok n

/-- Whether home holds a read or a write of the further check of an eligible head. -/
def State.sizeHeld (s : State) (q : BitVec 6) (pa : Nat) : Bool :=
  s.completionHeld q (s.queueAsid q) (s.homeRead (pa + 72) 8) ||
    (s.homeRead (pa + 12) 2 % 2 = 1 && (match s.usable (.outside 0) (s.queueAsid q) (s.homeRead (pa + 24) 8) false with | .held _ => true | _ => false))

/-- Whether a checked head becomes eligible now. -/
def State.headDue (s : State) (q : BitVec 6) : Bool :=
  q ≠ 63 && s.queueOpen q && s.queueRank q < 15 && s.headChecked q && (s.queues.read q).eligible.isNone &&
    (match s.head q with | some pa => (s.deps pa).all s.depMet && !s.sizeHeld q pa | none => false)

/-- HEAD_ELIGIBLE of queue `ev.queue` (R315). -/
def execHeadEligible (s : State) : Result :=
  let q := s.ev.queue
  .next <|
    match (if s.headDue q then s.head q else none) with
    | none => s
    | some pa =>
      match s.teamSize q pa with
      | .error code => s.failHead q pa code
      | .ok n => { s with queues := s.queues.write q { s.queues.read q with eligible := some (BitVec.ofNat 64 n) } }

/-- Reference-clock edges in 1 ms (R16). -/
def msEdges : Nat := 100000

/-- The record of an absent head (R311), with the address-space byte 0. DESIGN CHOICE: log 122. -/
def State.absentRecord (s : State) (q : BitVec 6) : State :=
  let r : Rec :=
    { kind := 13, cause := 0, who := 0, unit := 15, flags := 0, rolls := 0, asid := 0, ix := 0, addr := s.slotVa q (s.headSeq q),
      detail := 0, sched := 0, orphans := [], teamno := 0, queue := q.toNat }
  s.postAtHome (s.qtBase.toNat + 64 * q.toNat) r.bits

/-- ABSENT_HEAD_TIMEOUT of queue `ev.queue`: the absence is timed from when it is first found, and each further 1 ms posts a record. While home holds
the slot or the control block, the time runs on. -/
def execAbsentHeadTimeout (s : State) : Result :=
  let q := s.ev.queue
  let f := s.queues.read q
  let put := fun (s : State) (a : Option Nat) => { s with queues := s.queues.write q { f with absentAt := a } }
  .next <|
    if s.slotHeld q then s
    else if !s.headAbsent q then (if f.absentAt.isSome then put s none else s)
    else
      match f.absentAt with
      | none => put s (some s.refClk)
      | some t => if t + msEdges ≤ s.refClk then (put s (some (t + msEdges))).absentRecord q else s

/-! ## Selection (R317, R318) -/

/-- RUN of a queue's head. -/
def State.headRun (s : State) (q : BitVec 6) : Nat := match s.head q with | some pa => s.homeRead (pa + 32) 4 | none => 0

/-- The queues of rank `r` with a head to select, in order after `last[r]`. -/
def State.candidates (s : State) (r : Nat) (limit : Option Nat) : List (BitVec 6) :=
  let l := ((List.range 63).map (BitVec.ofNat 6)).filter fun q =>
    s.queueRank q = r && s.headFree q && (s.head q).isSome && (match limit with | some n => s.headRun q ≠ 0 && s.headRun q ≤ n | none => true)
  let last := s.lastQ.read (BitVec.ofNat 4 r)
  l.filter (fun q => last < q) ++ l.filter (fun q => q ≤ last)

/-- `select` of R317, read from die `d`. -/
def State.select (s : State) (d : BitVec 2) (limit : Option Nat) : State :=
  match (List.range 15).findSome? fun r => (s.candidates r limit).head?.map fun q => (r, q) with
  | none => s.respond (.offer d none)
  | some (r, q) =>
    let f := s.queues.read q
    let rank := BitVec.ofNat 4 r
    { s with
      lastQ := s.lastQ.write rank q
      queues := s.queues.write q { f with offered := some rank } }.respond
      (.offer d (some (q, BitVec.ofNat 64 (s.headSeq q), rank, f.eligible.getD 0)))

/-- Whether home holds what a selection reads of a head that is eligible: the selection waits, so that no head is passed over. -/
def State.headsHeld (s : State) : Bool := (List.range 63).any fun q => s.headMarked (BitVec.ofNat 6 q) && s.slotHeld (BitVec.ofNat 6 q)

/-- OFFER is read at die `ev.die`. -/
def execOffer (s : State) : Result := .next (if s.headsHeld then s.later .offer else s.select s.ev.die none)

/-- FITOFFER is read at die `ev.die` with limit `ev.count`. -/
def execFitoffer (s : State) : Result := .next (if s.headsHeld then s.later .fitoffer else s.select s.ev.die (some s.ev.count))

/-- RETURN of queue `ev.queue`: the head stays; with `ev.flag` firmware completes a present head CANCELLED instead, on offer or not (R311,
R317). -/
def execReturnHead (s : State) : Result :=
  let q := s.ev.queue
  let f := s.queues.read q
  .next <|
    if s.ev.flag then
      if q = 63 then s
      else if s.slotHeld q then s.later .returnHead
      else
        match s.head q with
        | some pa => if s.completionHeld q (s.queueAsid q) (s.homeRead (pa + 72) 8) then s.later .returnHead else s.failHead q pa 4
        | none => s
    else if f.offered.isNone then s
    else { s with queues := s.queues.write q { f with offered := none } }

/-- SKIPHEAD of queue `ev.queue` with the expected HEADSEQ `ev.count` (R311); the sequence numbers of queue 63 never move (R333). Of an empty
queue, whose head is neither absent nor present, it reads FAIL. DESIGN CHOICE: log 110. -/
def execSkiphead (s : State) : Result :=
  let q := s.ev.queue
  .next <|
    if q ≠ 63 && s.slotHeld q then s.later .skiphead
    else if q ≠ 63 && s.headSeq q = s.ev.count && s.headAbsent q then { (s.advanceHead q).complete q s.ev.count with skipFail := false }
    else { s with skipFail := true }

/-! ## Bind records (R319, R320) -/

/-- The record of a firmware fault; the spec gives it no content (assumption log 3). DESIGN CHOICE: log 3. -/
def State.firmwareFault (s : State) (die : BitVec 2) : State :=
  let bits := (List.range 8).foldl (fun (b : BitVec 512) i => setField b (64 * i) 64 (Config.freeWord (s.freeCtr + i)).toNat) 0
  { s with freeCtr := s.freeCtr + 8 }.postRecord die none bits

/-- Whether a tile is fused off or fenced. -/
def State.unavailable (s : State) (t : BitVec 7) : Bool := (s.map.read t).fused || (s.map.read t).fenced || bindState (s.bind t) = 5

/-- BIND_RECORD_WRITE of tile `ev.tile` with the record `ev.value`: a reservation, a cancellation, or a write that leaves STATE, of which a
reserved entry's fields all take effect, a bound member's RESUME and PREEMPT, and nothing of another entry. DESIGN CHOICE: log 111. Any other write of STATE is ignored and posts a firmware fault (R320). -/
def execBindRecordWrite (s : State) : Result :=
  let t := s.ev.tile
  let v := s.ev.value
  let b := s.bind t
  let n := bindState v
  .next <|
    if bindState b = 0 && n = 1 && !s.unavailable t then { s with binds := s.binds.write t v }
    else if bindState b = 1 && n = 0 then { s with binds := s.binds.write t 0 }
    else if bindState b = n then
      if n = 1 then { s with binds := s.binds.write t v }
      else if n = 2 then { s with binds := s.binds.write t (setField (setField b 384 64 (bindResume v).toNat) 482 1 (if bindPreempt v then 1 else 0)) }
      else s
    else s.firmwareFault (dieOf t)

/-! ## Gangs (R321, R322) -/

/-- The tiles whose entries carry a gang identifier and are in use. A tile that is fused off has no entry, and one that was fenced with no
reservation or member belongs to no gang (R2, R321). -/
def State.gangTiles (s : State) (g : BitVec 16) : List (BitVec 7) :=
  ((List.range 128).map (BitVec.ofNat 7)).filter fun t =>
    bindState (s.bind t) ≠ 0 && bindGang (s.bind t) = g && !(s.map.read t).fused && s.bind t ≠ 5#512

/-- Whether a gang of quad-aligned entries has its shape (R322). -/
def State.gangShape (s : State) (ts : List (BitVec 7)) : Bool :=
  ts.all fun t =>
    let b := s.bind t
    !bindQalign b || ((bindMember b).toNat % 4 = (memberOf t).toNat &&
      [0#2, 1#2, 2#2, 3#2].all fun m =>
        ts.contains (quadMate t m) && (bindMember (s.bind (quadMate t m))).toNat = (bindMember b).toNat / 4 * 4 + m.toNat)

/-- The bytes of a device range that dispatch reads, block by block: an error when a page cannot be read (R103), with the address at which
home holds a read if one does. A poisoned granule is loaded as its bytes stand. DESIGN CHOICE: log 95. -/
def State.deviceBytes (s : State) (key : HeldAcc) (asid : BitVec 8) (va n : Nat) : Except (Option Nat) (List Byte) :=
  (blockStarts va n).foldl (fun (l : Except (Option Nat) (List Byte)) a =>
    match l, s.usable key asid a false with
    | .ok bs, .ok pa _ => .ok (bs ++ Memory.readList s.mem pa (min (64 - a % 64) (va + n - a)))
    | .ok _, .held pa => .error (some pa)
    | .ok _, .none => .error none
    | e, _ => e) (.ok [])

/-- What dispatch loads of an image (R102, R103). -/
structure Image where
  overlay : Overlay
  spadAddr : Nat
  spad : List Byte

/-- What dispatch finds at a bind: an image, a refusal, or an address at which home holds a read. -/
inductive ImageRes where
  | ok (i : Image)
  | refused
  | held (pa : Nat)

/-- Numbers of `n` bytes each, as bit vectors. -/
def wordsOf (n w : Nat) (bs : List Byte) : List (BitVec w) := (leWords n bs).map (BitVec.ofNat w)

/-- Whether a device range translates to pages that are not CMP, the test that a bind makes of its code (R103): an error when it does not, with
the address at which home holds a walk if one does. -/
def State.mapped (s : State) (key : HeldAcc) (asid : BitVec 8) (va n : Nat) : Except (Option Nat) Unit :=
  (blockStarts va n).foldl (fun (l : Except (Option Nat) Unit) a =>
    match l, s.walkPa key asid a with
    | .ok _, .ok _ leaf => if leafCMP leaf then .error none else .ok ()
    | .ok _, .held pa => .error (some pa)
    | .ok _, .none => .error none
    | e, _ => e) (.ok ())

/-- The code and the literal stream of an image whose header is `h`. A core whose store already holds bundles tagged with its IMAGEID does not
load them again, but the code is to translate all the same (R103, R351). -/
def State.overlayOf (s : State) (key : HeldAcc) (asid : BitVec 8) (va : Nat) (h : List Byte) (held : Option Overlay) : Except (Option Nat) Overlay :=
  let f := fun (o n : Nat) => leNat ((h.drop o).take n)
  let load : Except (Option Nat) Overlay :=
    match s.deviceBytes key asid (va + f 16 4) (32 * f 20 4), s.deviceBytes key asid (va + f 24 4) (4 * f 28 4) with
    | .ok code, .ok lits => .ok ⟨BitVec.ofNat 64 (f 8 8), true, wordsOf 32 256 code, wordsOf 4 32 lits⟩
    | .error e, _ => .error e
    | _, .error e => .error e
  match held with
  | some o =>
    if o.tagged && o.imageId = BitVec.ofNat 64 (f 8 8) then (s.mapped key asid (va + f 16 4) (32 * f 20 4)).map fun _ => o else load
  | none => load

/-- Reads an image at a bind of a core that holds the overlay `held`: refused in the cases of R103 and R351. A restore, which has no entry, leaves
the segment out (R349). A literal stream or a segment that cannot be read refuses the bind too; `entry` is compared with the first
min(NENTRY, 16) fields. DESIGN CHOICE: log 95. -/
def State.image (s : State) (key : HeldAcc) (asid : BitVec 8) (va : Nat) (held : Option Overlay) (entry : Option Nat) : ImageRes :=
  match s.deviceBytes key asid va 128 with
  | .error (some pa) => .held pa
  | .error none => .refused
  | .ok h =>
    let f := fun (o n : Nat) => leNat ((h.drop o).take n)
    let entries := (List.range (min (f 6 2) 16)).map fun i => f (64 + 4 * i) 4
    if f 0 4 ≠ 0x4D49424D || f 4 2 ≠ 1 || 8192 < f 20 4 || 16384 < f 28 4 || (f 36 4 ≠ 0 && 0x200000 < f 40 4 + f 36 4) ||
        !(match entry with | some e => entries.contains e | none => true) then .refused
    else
      match s.overlayOf key asid va h held, (if entry.isNone then .ok [] else s.deviceBytes key asid (va + f 32 4) (f 36 4)) with
      | .ok o, .ok seg => .ok ⟨o, f 40 4, seg⟩
      | .error (some pa), _ => .held pa
      | _, .error (some pa) => .held pa
      | _, _ => .refused

/-- What dispatch finds at the bind of a new member on a tile. A bind with a reserved bit of CKEY set is refused (R350). -/
def State.dispatch (s : State) (t : BitVec 7) : ImageRes :=
  let b := s.bind t
  if field (bindCkey b) 15 17 ≠ 0 then .refused
  else s.image s.outsideKey (bindAsid b) (bindImage b).toNat (s.coreAt t).overlay (some (bindEntry b).toNat)

/-- The bookkeeping of a gang of a queue's record at `pa`. -/
def State.newGang (s : State) (g : BitVec 16) (q : BitVec 6) (ts : List (BitVec 7)) (pa : Option Nat) : Gang :=
  let f := fun (o n : Nat) => match pa with | some a => s.homeRead (a + o) n | none => 0
  { gang := g, queue := q, seq := BitVec.ofNat 64 (s.headSeq q), asid := s.queueAsid q, tiles := ts, early := f 12 2 / 4 % 2 = 1,
    triggered := [], left := [], dead := [], gone := [], saved := [], lost := [],
    teamno := (match ts with | t :: _ => bindTeamNo (s.bind t) | [] => 0)
    rank := (match ts with | t :: _ => BitVec.ofNat 4 (bindRank (s.bind t)) | [] => 0), run := f 32 4,
    killed := 0, code := 0, cause := 0, refused := false, status := BitVec.ofNat 64 (f 72 8) }

/-- The team whose saved members a bind record resumes. -/
def State.savedGang (s : State) (b : BitVec 512) : Option Gang :=
  s.gangs.find? fun x => !x.saved.isEmpty && x.queue = bindQueue b && x.teamno = bindTeamNo b && x.asid = bindAsid b

/-- A gang that resumes a saved team carries on that team's bookkeeping, by member numbers; barriers are restored with the members. One that matches
no saved team is kept as a team of queue 63 is, without a status record or a watermark. DESIGN CHOICE: log 120. -/
def State.resumeGang (s : State) (g : BitVec 16) (ts : List (BitVec 7)) : State :=
  let b := match ts with | t :: _ => s.bind t | [] => 0
  match s.savedGang b with
  | some x =>
    let live := x.tiles.filter fun t => !x.gone.contains t
    let back := ts.filter fun t => x.saved.contains (bindMember (s.bind t), true)
    let y : Gang := { x with
      gang := g
      tiles := live ++ ts
      triggered := (x.triggered.filter fun t => live.contains t) ++ back
      left := x.left.filter fun t => live.contains t
      lost := x.lost ++ x.dead
      dead := []
      gone := []
      saved := x.saved.filter fun m => !ts.any fun t => bindMember (s.bind t) = m.1 }
    { s with
      gangs := (s.gangs.filter fun (z : Gang) => z ≠ x) ++ [y]
      barriers := s.barriers.filter fun (z : Barrier) => z.gang ≠ g && (live.isEmpty || z.gang ≠ x.gang) }
  | none => { s with gangs := s.gangs ++ [{ s.newGang g 63 ts none with asid := bindAsid b }] }

/-- Whether the entries of a gang carry a rank: it governs a team from its selection on, across resumption (R318). -/
def State.rankIs (s : State) (ts : List (BitVec 7)) (r : BitVec 4) : Bool := ts.all fun t => bindRank (s.bind t) = r.toNat

/-- Whether the gang's commit succeeds (R321): all its entries resume at their team's rank, or all are new and of queue 63, or all are new and name
the queue and the rank of an offer (R318). DEDUCED: log 54. -/
def State.gangOk (s : State) (ts : List (BitVec 7)) : Bool :=
  let q := match ts with | t :: _ => bindQueue (s.bind t) | [] => 0
  let new := ts.all fun t => bindResume (s.bind t) = 0 && bindQueue (s.bind t) = q
  let resume := ts.all (fun t => bindResume (s.bind t) ≠ 0) &&
    (match (ts.head?.map s.bind).bind s.savedGang with | some x => s.rankIs ts x.rank | none => true)
  let rank := match (s.queues.read q).offered with | some r => s.rankIs ts r | none => false
  !ts.isEmpty && ts.all (fun t => bindState (s.bind t) = 1 && !s.unavailable t) && s.gangShape ts &&
    (resume || (new && (q = 63 || (rank && s.headChecked q))))

/-- Every entry of the gang becomes bound at one edge. -/
def State.bindAll (s : State) (ts : List (BitVec 7)) : State := ts.foldl (fun (s : State) t => s.setBindState t 2) s

/-- The team with a member bound on tile `t` ends before any member issues: dispatch refused a bind (R103, R323). -/
def State.refuseGang (s : State) (t : BitVec 7) : State :=
  let ts := match s.gangOf t with | some x => x.tiles.filter fun t => !x.gone.contains t | none => []
  (ts.foldl (fun (s : State) t =>
    let c := s.coreAt t
    (s.setCoreAt t (c.afterMember (c.reqs.filter (·.discard)))).releaseTile t) (s.mapGangOf t fun x => { x with refused := true }))

/-- What dispatch loads when a bind record takes effect: the overlay and the scratchpad segment (R103). -/
def Core.load (c : Core) (i : Image) : Core :=
  let c : Core := { c with overlay := some i.overlay }
  if i.spad.isEmpty then c else c.spadWrite i.spadAddr i.spad

/-- The record that a new gang of a queue is bound to: the offered head, or for queue 63 the ballast record, which firmware reads in its ring slot
(R333). -/
def State.gangRecord (s : State) (q : BitVec 6) : Option Nat :=
  if q = 63 then (match s.ringSlot 63 (s.headSeq 63) with | .ok pa _ => some pa | _ => none) else s.head q

/-- Every entry of a gang that is in order becomes bound. A new one consumes the offered head, and dispatch loads each member's image or refuses
(R103, R321, R323). -/
def State.commit (s : State) (g : BitVec 16) (ts : List (BitVec 7)) : State :=
  let q := match ts with | t :: _ => bindQueue (s.bind t) | [] => 0
  let s : State := { s with gangFail := false }
  State.outsideDone <| if ts.all fun t => bindResume (s.bind t) ≠ 0 then
    let bad := ts.find? fun t => field (bindCkey (s.bind t)) 15 17 ≠ 0
    let s := (s.resumeGang g ts).bindAll ts
    match bad with | some t => s.refuseGang t | none => s
  else
    let found := ts.map fun t => (t, s.dispatch t)
    let new := s.newGang g q ts (s.gangRecord q)
    let s := { s with gangs := s.gangs ++ [new], barriers := s.barriers.filter fun (z : Barrier) => z.gang ≠ g }
    let s := (if q = 63 then s else s.advanceHead q).bindAll ts
    match found.find? fun p => match p.2 with | .refused => true | _ => false with
    | some p => s.refuseGang p.1
    | none => found.foldl (fun (s : State) p => match p.2 with | .ok i => s.setCoreAt p.1 ((s.coreAt p.1).load i) | _ => s) s

/-- GANGGO of gang `ev.gang` (R321, R322): all its reserved entries bind, or none. DEDUCED: log 54. -/
def execGanggo (s : State) : Result :=
  let g := s.ev.gang
  let ts := s.gangTiles g
  let q := match ts with | t :: _ => bindQueue (s.bind t) | [] => 0
  .next <|
    if !s.gangOk ts then { s with gangFail := true }
    else if s.slotHeld q then s.later .ganggo
    else
      match ts.findSome? fun t => if bindResume (s.bind t) = 0 then (match s.dispatch t with | .held pa => some pa | _ => none) else none with
      | some pa => s.again pa .ganggo
      | none => s.commit g ts

/-! ## Creation (R22, R23, R323) -/

/-- Registers of a new member's main context (R23, R323). -/
def Priv.create (b : BitVec 512) : Priv := (Priv.reset.setS 1 (bindArg b)).setS 63 (bindTeamBlk b)

/-- A core with a member that its bind record creates. -/
def Core.create (c : Core) (b : BitVec 512) (run : Nat) : Core :=
  let base := c.afterMember (c.reqs.filter (·.discard))
  let regs := Priv.create b
  { base with
    main := { Ctx.idle with run := .running, regs := regs, dup := regs, ix := (bindEntry b).setWidth 13, restart := (bindEntry b).setWidth 13 }
    cyc := 0
    rank := (bindMember b).setWidth 13
    team := bindTeamNo b ++ (bindTeamSize b &&& 0x1FFF#16)
    asid := bindAsid b
    ckey := bindCkey b
    deadline := if run = 0 then none else some (run * 1024)
    bound := true }

/-- Whether the tile's bind record waits for its member: none is created where the record of a kill waits for room (R382). -/
def State.toCreate (s : State) (t : BitVec 7) (resume : Bool) : Bool :=
  bindState (s.bind t) = 2 && !(s.coreAt t).bound && !s.killWaits t && (bindResume (s.bind t) ≠ 0) = resume

/-- The neighbours of a tile that its Trellis holds suspect, by direction (R39). -/
def State.suspects (s : State) (t : BitVec 7) : BitVec 4 :=
  [0#2, 1#2, 2#2, 3#2].foldl (fun (w : BitVec 4) d =>
    if ((s.trellisAt t).votes.read d).state = 1 then w ||| BitVec.ofNat 4 (2 ^ d.toNat) else w) 0

/-- MEMBER_CREATION on tile `ev.tile` (R23, R323): fetch starts at ENTRY, and one beyond the instruction store is a fall-through past the
image (R104). DEDUCED: log 96. -/
def execMemberCreation (s : State) : Result :=
  let t := s.ev.tile
  let b := s.bind t
  .next <|
    if !s.toCreate t false then s
    else
      let run := match s.gangOf t with | some g => g.run | none => 0
      let s := s.setCoreAt t { (s.coreAt t).create b run with bornSuspect := s.suspects t }
      if (bindEntry b).toNat < 8192 then s
      else s.onTile t fun s => s.takeTrap ⟨.illegalEnc, 6, 0, BitVec.ofNat 64 (2 ^ 37)⟩ 0 ((bindEntry b).setWidth 13)

/-! ## Ends (R132, R324, R326, R330) -/

/-- Whether a member that has ended can be freed: its queues and requests are done and its tails have ended. DEDUCED: log 55. -/
def Core.freeable (c : Core) : Bool :=
  c.ending && c.q0.isEmpty && c.q1.isEmpty && c.tail0.run ≠ .running && c.tail1.run ≠ .running && c.main.ck.isNone &&
    [0#2, 1#2, 2#2].all (fun n => (c.ctx n).released.isEmpty) && c.reqs.all (·.discard)

/-- CORE_FREE of tile `ev.tile` (R132, R320). -/
def execCoreFree (s : State) : Result :=
  let s := s.focus s.ev.tile
  .next <|
    if s.core.freeable && bindState (s.bind s.coreTile) = 3 then
      { s.mapCore (fun c => c.afterMember c.reqs) with walks := s.walks.filter fun w => w.tile ≠ s.coreTile }.releaseTile s.coreTile
    else s

/-- KILL of tile `ev.tile` with code OVERRUN (`ev.flag`) or CANCELLED; a frozen core's record carries the cause of its freeze (R326, R382,
R384). -/
def execKillMember (s : State) : Result :=
  let s := s.focus s.ev.tile
  let n := bindState (s.bind s.coreTile)
  .next <|
    if (n = 2 || n = 3) && !s.killWaits s.coreTile then
      let cause := match s.core.frozen with | some f => f.cause.code | none => 0
      s.killMember ⟨.fenced, 15, 0, 0⟩ 0 s.core.main.ix s.core.main.unprotFlag cause (if s.ev.flag then 5 else 4) 0 false
    else s

/-- Whether every bind record of a gang has left states 2, 3 and 4, and no member is saved. -/
def Gang.over (g : Gang) : Bool := g.saved.isEmpty && g.tiles.all fun t => g.gone.contains t

/-- Whether every member of a team has triggered, ended or been killed (R330); a saved member that has not triggered is none of these. -/
def Gang.allTriggered (g : Gang) : Bool :=
  g.early && g.queue ≠ 63 && g.saved.all (·.2) &&
    g.tiles.all fun t => g.triggered.contains t || g.left.contains t || g.dead.contains t || g.gone.contains t

/-- Whether a team has something to complete, and home holds no access that this makes. -/
def State.teamDue (s : State) (g : Gang) : Bool :=
  if g.over then g.queue = 63 || !s.completionHeld g.queue g.asid g.status.toNat else g.allTriggered && !s.ctlHeld g.queue

/-- TEAM_COMPLETION of the team at place `ev.id`: its record triggers (R330), or the team completes (R324); a ballast team leaves no status and moves
no watermark (R333). -/
def execTeamCompletion (s : State) : Result :=
  .next <|
    match s.gangs[s.ev.id]? with
    | none => s
    | some g =>
      if !s.teamDue g then s
      else if g.over then
        let rest := s.gangs.eraseIdx s.ev.id
        let s := { s with
          gangs := rest
          barriers := s.barriers.filter fun b => b.gang ≠ g.gang || rest.any fun x => x.gang = g.gang }
        if g.queue = 63 then s
        else
          let code := if g.refused then 2 else if g.killed = 0 then 0 else g.code.toNat
          (s.putStatus g.asid g.status.toNat code (if code = 1 then g.cause.toNat else 0) g.killed g.seq.toNat).complete g.queue g.seq.toNat
      else
        let f := s.queues.read g.queue
        { s with
          gangs := s.gangs.modify s.ev.id fun (x : Gang) => { x with early := false }
          queues := s.queues.write g.queue { f with trigSet := f.trigSet ++ [g.seq] } }.advanceMarks g.queue

end Sys2Proof.Machine
end

