-- ==== Sys2Proof/Machine/Save.lean ====
section
/-!
DEFINITION. Saving a member and restoring it (R291, R344, R346 to R349, R384).
-/
namespace Sys2Proof.Machine

/-! ## Pre-emption points (R291, R344) -/

/-- Whether a POPW.b of context `n` waits at home, the only bundle of its phase (R291). -/
def Core.popWaits (c : Core) (n : BitVec 2) : Bool :=
  (c.ctx n).issued = 1 && c.reqs.any fun r => r.ctx = n && r.waiting && (match r.kind with | .pop true => true | _ => false)

/-- Whether a tail has reached its point: it runs nothing, or it has issued nothing since its last checkpoint but a wait. -/
def Core.tailAtPoint (c : Core) (n : BitVec 2) : Bool :=
  let x := c.ctx n
  x.run ≠ .running || (x.ck.isNone && x.rollPend.isNone && x.rolling.isNone && !x.irrevOut && (x.issued = 0 || c.popWaits n))

/-- Whether a member and its tails have reached their points. -/
def Core.atPoint (c : Core) : Bool := c.save ≠ .none && c.save ≠ .wanted && c.tailAtPoint 1 && c.tailAtPoint 2

/-- Whether the quad-mates let the save go on: each has reached its point, and no window access of theirs is on its way here (R344, step 1). -/
def State.matesReady (s : State) : Bool :=
  let t := s.coreTile
  !bindQalign (s.bind t) || [0#2, 1#2, 2#2, 3#2].all fun m =>
    let p := quadMate t m
    let c := s.coreAt p
    p = t || bindGang (s.bind p) ≠ bindGang (s.bind t) ||
      (bindState (s.bind p) ≠ 2 && (bindState (s.bind p) ≠ 4 || c.atPoint) &&
        c.reqs.all (fun r => !(match r.kind with | .winStore => r.x.setWidth 2 = memberOf t | _ => false)) &&
        (c.q0 ++ c.q1).all (fun k => k.pend.all fun w => w.1 ≠ t) &&
        s.arrivals.all fun a => a.1 ≠ t)

/-- Whether no counter and no result is outstanding: a POPW.b that waits at home is withdrawn (R344, step 2). -/
def Core.repliesIn (c : Core) : Bool :=
  [0#2, 1#2, 2#2].all (fun n => (c.ctx n).released.isEmpty && ((c.ctx n).part.isEmpty || c.popWaits n)) &&
    c.reqs.all fun r => r.waiting && (match r.kind with | .pop true => true | _ => false)

/-- Whether nothing of the member is still moving: an engine's command that is done completes first, and one in a unit stands at the unit's
end (R344, step 3). -/
def State.settled (s : State) : Bool :=
  (s.core.q0 ++ s.core.q1).all (fun k => !k.done && !s.arriving k) && s.core.mq.isEmpty && s.core.apend.isEmpty

/-- Whether a command is one of a link, which a save withdraws. -/
def isLinkInstr : Instr → Bool
  | .lsend .. => true
  | .lrecv .. => true
  | .lrxadd .. => true
  | _ => false

/-- Whether a command is inside a unit that stopping it finishes: scratchpad bytes left to write, received elements left to add, or the unpin of a
block. -/
def Cmd.midUnit (k : Cmd) : Bool := !k.pend.isEmpty || ((k.pin.isSome || isLinkInstr k.i) && !k.buf.isEmpty)

/-- The engine of the first command of the focused core that is inside a unit. -/
def Core.midUnit (c : Core) : Option (BitVec 1 × Cmd) :=
  match c.q0.find? Cmd.midUnit with
  | some k => some (0, k)
  | none => (c.q1.find? Cmd.midUnit).map fun k => (1, k)

/-- A command that is being stopped goes on to the end of its unit, a link command that moves data to its own end. A chunk of a CPYX is
abandoned, and so is a unit that a tile no longer takes: it is done again from its start, a block of a CPYQ from its first element, and a gather
keeps its pin (R344, step 3). -/
def State.finishUnit (s : State) (e : BitVec 1) (k : Cmd) : State :=
  let abandoned := (match k.i with | .cpyx .. => true | _ => false) || k.pend.any fun w => s.byteGone w.1 = some .prot
  if !k.pend.isEmpty then
    if abandoned then
      s.mapCore (·.putCmd e (match k.i with
        | .cpyq .. => { k with pend := [], buf := [0] }
        | _ => { k with pend := [], buf := [], progress := k.progress - 1 }))
    else
      (s.engPerform k e).mapCore fun c => c.setQueue e ((c.queue e).map fun x =>
        if x.id = k.id then { x with done := x.done || (isLinkInstr x.i && x.pend.isEmpty && x.buf.isEmpty) } else x)
  else
    match k.i with
    | .lrxadd _ _ _ _ f =>
      (match s.linkAddUnit k f with
       | .error x => s.engStop k e x
       | .ok (s, k) => s.mapCore (·.putCmd e k))
    | _ => (match k.pin with | some pin => s.unpin pin.toNat | none => s).mapCore (·.putCmd e { k with pin := none, buf := [] })

/-! ## The save area (R346, R348) -/

/-- Writes bytes at home in spans of 256 bytes, each in one channel, and each span one home step (R277, R335, R344). DESIGN CHOICE:
log 127. -/
def State.homeWriteAll (s : State) (pa : Nat) (bs : List Byte) : State :=
  (chunksOf 256 ((bs.length + 255) / 256) bs).zipIdx.foldl (fun (s : State) b => s.homeWrite (pa + 256 * b.2) b.1) s

/-- The mark that a command produces. -/
def producedMark : Instr → BitVec 6
  | .cpy _ _ m _ _ _ _ => m
  | .cpym _ _ m _ _ => m
  | .cpyq _ _ m _ _ _ _ => m
  | .cpyx _ _ m _ _ _ => m
  | .gath _ _ m _ _ _ => m
  | .feed _ _ m _ _ _ _ => m
  | .drain _ _ m _ _ _ => m
  | .lsend _ _ m _ => m
  | .lrecv _ _ m _ => m
  | .lrxadd _ _ m _ _ => m
  | _ => 0

/-- The progress of a stopped command: units whose output stands only in its buffer are done again; a gather's pinned slot goes with it. -/
def Cmd.savedProgress (k : Cmd) : Nat :=
  match k.i with
  | .cpyq .. => if k.buf.isEmpty then k.progress else k.progress - ((k.progress - 1) % descCount k.d0 0 % 32 + 1)
  | .feed _ _ _ _ _ cv _ => k.progress - k.buf.length / max 1 (feedBytes k.d0 cv (List.replicate (unitSize (descFmt k.d0)) 0)).1.length
  | .gath .. => k.progress + (match k.pin with | some pa => pa.toNat / 4 * 2 ^ 20 + 2 ^ 63 | none => 0)
  | _ => k.progress

/-- Whether the units that a command has left read device bytes of a block whose version it has read. -/
def State.blockLeft (s : State) (k : Cmd) (x : VerRead) : Bool :=
  let r := Region.ofBits (s.regions.read x.region)
  let lo := r.base + x.block * r.block
  match k.i with
  | .gath .. => true
  | _ => (List.range (k.total - k.savedProgress)).any fun i =>
    let a := (BitVec.ofInt 64 (nestPoint k.d0 (k.savedProgress + i)).s).toNat
    a < lo + r.block && lo < a + unitSize (descFmt k.d0)

/-- Whether a stopped command makes its mark stale: its version reads differ, or a block that it has read in part is still to be read, whose first
version no record holds (R243, R348). DESIGN CHOICE: log 56. -/
def State.staleAtSave (s : State) (k : Cmd) : Bool := k.isStale || k.vers.any (s.blockLeft k)

/-- The core that is saved: what a queued command has noted of errors, staleness and matrix flags stands in its mark's pending bits and in the
matrix flags, since its record has no place for it (R32, R348). DESIGN CHOICE: log 56. -/
def State.savedCore (s : State) : Core :=
  (s.core.q0 ++ s.core.q1).foldl (fun (c : Core) k =>
    let bits : BitVec 2 := (if s.staleAtSave k then 1 else 0) ||| (if k.err then 2 else 0)
    { c with sh := { c.sh with mbits := c.sh.mbits.write k.mark (c.sh.mbits.read k.mark ||| bits), mflags := c.sh.mflags ||| k.flags } }) s.core

/-- An engine command record (R348). -/
def State.cmdBytes (s : State) (k : Cmd) : List Byte :=
  let parked := s.walks.any fun w => w.tile = s.coreTile && 4 ≤ w.unit.toNat && w.unit ≠ 6 && w.cmd = k.id
  let flags := 1 + (if parked then 2 else 0) + (if k.started then 4 else 0) + (if isLinkInstr k.i && k.started then 8 else 0)
  layOut 256 0 [(0, bytesOf ((encode k.i).getD 0) 4), (4, leBytes 1 flags), (5, leBytes 1 k.ctx.toNat), (8, leBytes 8 k.savedProgress),
    (16, bytesOf (k.ms.setWidth 24) 3), (24, bytesOf k.link 8), (64, bytesOf k.d0 64), (128, bytesOf k.d1 64)]

/-- The records of an engine's queue, in issue order. -/
def State.queueBytes (s : State) (q : List Cmd) : List Byte :=
  layOut 8192 0 [(0, (q.map s.cmdBytes).flatten)]

def fifoBytes (f : Fifo) : List Byte := layOut 32768 0 [(0, (f.all.map fun l => bytesOf l.bits 256).flatten)]

/-- The regions of the save area of the focused core, with their offsets (R346). -/
def State.areaRegions (s : State) : List (Nat × List Byte) :=
  let c := s.savedCore
  [(0, c.header (bindQalign (s.bind s.coreTile)) s.barrierBytes), (0x1000, c.blocks), (0x2000, c.descBytes), (0x4000, c.vecBytes),
   (0x8000, s.queueBytes c.q0 ++ s.queueBytes c.q1), (0x10000, c.tileBytes), (0x20000, fifoBytes c.fa ++ fifoBytes c.fb),
   (0x40000, (c.acc.toList.map fun a => if a.st = .empty then List.replicate 131072 0 else bytesOf a.bits 131072).flatten),
   (0x200000, (List.range 0x200000).map (Memory.read c.spad))]

/-- Writes the save area. -/
def State.writeArea (s : State) : State :=
  let pa := (bindResume (s.bind s.coreTile)).toNat
  s.areaRegions.foldl (fun (s : State) r => s.homeWriteAll (pa + r.1) r.2) s

/-- Where a line whose error is uncorrectable stands in a save area: its offset and length (R346). -/
def PLine.place (l : PLine) : Option (Nat × Nat) :=
  match l with
  | .reg _ (.v i) => some (0x4000 + 256 * i.toNat, 256)
  | .tile t r => some (0x10000 + 16384 * t.toNat + 256 * r.toNat, 256)
  | .acc a r => some (0x40000 + 0x20000 * a.toNat + 1024 * r.toNat, 1024)
  | _ => none

/-- The granules of a save area that are poisoned because the line they hold is (R380, R381). DEDUCED: log 97. -/
def Core.areaPoison (c : Core) : List Nat :=
  let fifo := fun (f : Fifo) (o : Nat) => f.all.zipIdx.filterMap fun l => if l.1.bad then some (o + 256 * l.2, 256) else none
  let spans : List (Nat × Nat) := (c.linePoison.filterMap PLine.place) ++ fifo c.fa 0x20000 ++ fifo c.fb 0x28000 ++
    c.spadPoison.map fun p => (0x200000 + p.1, 64)
  spans.flatMap fun p => (List.range (p.2 / 64)).map fun j => p.1 + 64 * j

/-- Whether home still holds writes of a save area. -/
def State.areaPending (s : State) (pa : Nat) : Bool :=
  ((s.quiesces.map (·.held)).flatten ++ s.stalled).any fun k => match k with
    | .write _ a _ => decide (pa ≤ a.toNat ∧ a.toNat < pa + 0x400000)
    | _ => false

/-- The lines of a save area that are poisoned when every write of it has performed. -/
def State.poisonArea (s : State) (pa : Nat) : State :=
  s.core.areaPoison.foldl (fun (s : State) o => s.poisonGranule (pa + o)) s

/-! ## CONTEXT_SAVE and SAVE_COMPLETE (R344) -/

/-- Withdraws the POPW.b of a context that waits at home: as after a rollback, nothing of its bundle remains, a command of its C slots no more than a
write of another slot, and the context restarts at it; damaged registers are fatal (R199, R291, R380). -/
def State.withdraw (s : State) (n : BitVec 2) : State :=
  if !s.core.bound then s
  else if s.core.popWaits n then
    if s.core.dupBad n then
      s.killMember ⟨.dataUe, 15, 0, 0⟩ n (s.core.ctx n).restart (s.core.ctx n).unprotFlag Cause.dataUe.code 1 Cause.dataUe.code true
    else (s.rollbackStop n).mapCore fun c => (c.restore n).mapCtx n fun x => { x with cancelledWait := true }
  else s.mapCore fun c =>
    c.mapCtx n fun x => { x with cancelledWait := x.cancelledWait || (match x.hold with | some (.wait _) => x.run = .running | _ => false) }

/-- A context's restart point when a frozen member is saved: an END or TEND whose checkpoint has not been taken, the point of another pending
checkpoint, the faulting bundle for PROT and the next for BRK, and for another context where it halted (R384). -/
def Core.frozenPoint (c : Core) (f : Frozen) (n : BitVec 2) : BitVec 13 :=
  match (c.ctx n).ck with
  | some k => if k.why = .endMember || k.why = .tendTail then k.restart - 1 else k.restart
  | none => if f.ctx = n then (if f.cause = .brk then f.ix + 1 else f.ix) else (c.ctx n).ix

/-- The save of a frozen member begins: each context's phase closes at its restart point, and a POPW.b that waits at home is left to its
withdrawal (R291, R384). -/
def Core.saveFrozen (c : Core) (f : Frozen) : Core :=
  let one := fun (c : Core) (n : BitVec 2) =>
    if (c.ctx n).run = .running && !c.popWaits n then c.checkpoint n ⟨.chkpt, c.frozenPoint f n, (c.ctx n).barwOnly, 0⟩ else c
  { (one (one (one c 0) 1) 2) with save := .reached }

/-- Whether a frozen member is to be saved: firmware has asked for it, its freeze record is in the ring, and it is no ballast member (R333, R384,
R386). -/
def State.frozenSave (s : State) : Bool :=
  let b := s.bind s.coreTile
  s.core.bound && (s.core.save = .none || s.core.save = .wanted) && bindPreempt b && bindResume b ≠ 0 && bindState b = 2 && !bindBallast b &&
    !s.recordWaits s.coreTile

/-- A context of the core whose rollback has still to be acted on. -/
def Core.rollsBack (c : Core) : Option (BitVec 2) :=
  [0#2, 1#2, 2#2].find? fun n => (c.ctx n).rollPend.isSome || (c.ctx n).rolling.isSome

/-- What comes before the save of a frozen member: a rollback to the point that a wait was to be pre-empted at ends, then those that were under
way, and the matrix queue drains. -/
def State.frozenStep (s : State) (f : Frozen) : State :=
  let back := fun (s : State) (n : BitVec 2) =>
    s.mapCore fun c => { c with frozen := if c.bound && f.ctx = n then some { f with ix := (c.ctx n).ix } else c.frozen }
  if s.core.save = .wanted then (if s.core.loadsSettled 0 then back s.backToPoint 0 else s)
  else match s.core.rollsBack with
  | some n =>
    if (s.core.ctx n).rolling.isNone then s.rollbackStop n
    else if s.core.loadsSettled n then back (s.rollbackRestore n) n
    else s
  | none =>
    if !s.core.drained then (if s.core.starves then s else s.mapCore fun c => { c with mOff := c.mOff + 1 })
    else (s.mapCore (·.saveFrozen f)).setBindState s.coreTile 4

/-- Whether that has something to do now. -/
def Core.frozenDue (c : Core) : Bool :=
  if c.save = .wanted then c.loadsSettled 0
  else match c.rollsBack with
  | some n => (c.ctx n).rolling.isNone || c.loadsSettled n
  | none => c.drained || !c.starves

/-- Whether the wait of step 2 of a save is over, for a member at its point or frozen (R344, R384). -/
def State.saveBegins (s : State) : Bool :=
  (if s.core.frozen.isSome then s.core.tailAtPoint 1 && s.core.tailAtPoint 2 else s.core.atPoint && s.core.drained && s.matesReady) && s.core.repliesIn

/-- Whether a tail of a member that is to be saved has frozen before it reached its point: its phase closes as a frozen member's does (R384). -/
def State.lateFreeze (s : State) : Bool :=
  !(s.core.tailAtPoint 1 && s.core.tailAtPoint 2) && s.core.frozenDue && !s.recordWaits s.coreTile

/-- CONTEXT_SAVE of tile `ev.tile`: the save of a frozen member begins; or, by its progress, the engine has waited, stops the commands, and writes
the area. -/
def execContextSave (s : State) : Result :=
  let s := s.focus s.ev.tile
  let t := s.coreTile
  .next <|
    match s.core.save, s.core.frozen with
    | .none, some f => if s.frozenSave then s.frozenStep f else s
    | .wanted, some f => if s.frozenSave then s.frozenStep f else s
    | .reached, f =>
      if s.saveBegins then
        let s := (({ s with waiters := s.waiters.filter fun w => w.2.1 ≠ t }.withdraw 0).withdraw 1).withdraw 2
        if s.core.bound then s.mapCore fun c => { c with save := .waiting, reqs := [] } else s
      else
        match f with
        | some f => if s.lateFreeze then s.frozenStep f else s
        | none => s
    | .waiting, _ =>
      match s.core.midUnit with
      | some (e, k) => s.finishUnit e k
      | none =>
        if s.settled then
          { s.writeArea with
            walks := s.walks.filter fun w => w.tile ≠ t
            linkWaits := s.linkWaits.filter fun w => w.tile ≠ t }.mapCore fun c => { c with save := .writing }
        else s
    | _, _ => s

/-- SAVE_COMPLETE of tile `ev.tile`, once every write of the area has performed: the entry is free, and the gang keeps the member as saved. -/
def execSaveComplete (s : State) : Result :=
  let s := s.focus s.ev.tile
  let t := s.coreTile
  let pa := (bindResume (s.bind t)).toNat
  .next <|
    if s.core.save = .writing && !s.areaPending pa then
      let m := bindMember (s.bind t)
      let s := (s.poisonArea pa).mapGangOf t fun g =>
        { g with tiles := g.tiles.filter fun x => x ≠ t, saved := g.saved ++ [(m, g.triggered.contains t)], triggered := g.triggered.filter fun x => x ≠ t }
      { s.mapCore fun c => c.afterMember [] with
        xinv := { s.xinv with waits := s.xinv.waits.filter fun w => w.1 ≠ t } }.releaseTile t
    else s

/-! ## CONTEXT_RESTORE (R349) -/

/-- A number of a save area. -/
def State.areaLE (s : State) (pa off n : Nat) : Nat := s.homeRead (pa + off) n

/-- The registers of a context block. -/
def State.areaPriv (s : State) (pa : Nat) : Priv :=
  { s := Vector.ofFn fun i => BitVec.ofNat 64 (s.areaLE pa (8 * i.val) 8)
    p := BitVec.ofNat 48 (s.areaLE pa 512 6)
    b := Vector.ofFn fun i => BitVec.ofNat 32 (s.areaLE pa (520 + 4 * i.val) 4)
    dc := Vector.ofFn fun i => BitVec.ofNat 12 (s.areaLE pa (536 + 2 * i.val) 2) }

/-- A context that resumes at its restart point: its phase 0 is past, so that no rollback touches what was restored. -/
def State.areaCtx (s : State) (pa : Nat) (run : CtxRun) (cyc : Nat) (un : Unprot) : Ctx :=
  let r := s.areaPriv pa
  let ix := BitVec.ofNat 13 (s.areaLE pa 552 4)
  let flags := s.areaLE pa 556 1
  { Ctx.idle with
    run := run, regs := r, dup := r, ix := ix, restart := ix, restartBarw := flags / 4 % 2 = 1, barwOnly := flags / 4 % 2 = 1, irrevNext := ix + 1,
    phase := 1, unprot := un, phaseStart := cyc, fetchAt := cyc + 1, cancelledWait := flags % 2 = 1 }

def State.areaFrame (s : State) (pa off : Nat) : Option Frame :=
  let w := s.areaLE pa off 8
  if w = 0 then none else some ⟨BitVec.ofNat 24 w, BitVec.ofNat 24 (w / 2 ^ 32)⟩

def State.areaLoops (s : State) (pa : Nat) : List Loop :=
  (List.range 4).filterMap fun i =>
    let w := s.areaLE pa (160 + 8 * i) 8
    if w / 2 ^ 63 = 1 then some ⟨BitVec.ofNat 32 w, BitVec.ofNat 13 (w / 2 ^ 32), BitVec.ofNat 13 (w / 2 ^ 45)⟩ else none

/-- The shared registers of a save area; reserved bits read zero (R6). -/
def State.areaShared (s : State) (pa : Nat) : Shared :=
  let le := s.areaLE pa
  let count := fun (i : Nat) => le (216 + i) 1
  let pend : BitVec 64 := BitVec.ofNat 64 (packElems 1 ((List.range 64).map fun i => if count i = 0 then 0 else 1))
  let stale := BitVec.ofNat 64 (le 64 8)
  let err := BitVec.ofNat 64 (le 72 8)
  { v := Vector.ofFn fun i => ⟨BitVec.ofNat 2048 (le (0x4000 + 256 * i.val) 256), BitVec.ofNat 4 (le 128 16 / 16 ^ i.val)⟩
    lm := Vector.ofFn fun i => BitVec.ofNat 256 (le (512 + 32 * i.val) 32)
    t := Vector.ofFn fun i => ⟨BitVec.ofNat 131072 (le (0x10000 + 16384 * i.val) 16384), BitVec.ofNat 4 (le 144 2 / 16 ^ i.val)⟩
    mready := BitVec.ofNat 64 (le 56 8)
    mstale := stale &&& ~~~pend
    merr := err &&& ~~~pend
    mpend := Vector.ofFn fun i => count i.val
    mbits := Vector.ofFn fun i => if pend.getLsbD i.val then BitVec.ofNat 2 ((if stale.getLsbD i.val then 1 else 0) + (if err.getLsbD i.val then 2 else 0)) else 0
    ms := Vector.ofFn fun i => BitVec.ofNat 21 (le (80 + 3 * i.val) 3)
    d := Vector.ofFn fun i => descMask (BitVec.ofNat 512 (le (0x2000 + 64 * i.val) 64))
    efmt := BitVec.ofNat 32 (le 44 4) &&& 0xFB#32
    efmtPend := []
    frm := BitVec.ofNat 32 (le 40 4) &&& frmMask
    seed := BitVec.ofNat 64 (le 32 8)
    loops := s.areaLoops pa
    mpc := BitVec.ofNat 24 (le 52 4)
    mflags := BitVec.ofNat 4 (le 48 1) }

/-- The accumulators, by PARTS and MSTAT. -/
def State.areaAccs (s : State) (pa : Nat) : Bank 2 Acc :=
  let parts := s.areaLE pa 4 4
  let st := s.areaLE pa 48 8
  Vector.ofFn fun i =>
    if parts / 2 ^ i.val % 2 = 1 then
      ⟨if st / 256 / 4 ^ i.val % 4 = 2 then .retired else .live, if st / 16 / 2 ^ i.val % 2 = 1 then .i32 else .fp32,
       BitVec.ofNat 1048576 (s.areaLE pa (0x40000 + 0x20000 * i.val) 0x20000)⟩
    else ⟨.empty, .fp32, 0⟩

def State.areaFifo (s : State) (pa n off tags : Nat) : Fifo :=
  ⟨(List.range n).map fun i => ⟨BitVec.ofNat 4 (s.areaLE pa (tags + i) 1), BitVec.ofNat 2048 (s.areaLE pa (off + 256 * i) 256), 0, s.poisoned (pa + off + 256 * i) 256⟩, []⟩

/-- The version reads of a restored command: when a unit behind it has read a digested block, a read that stands for the comparison with VERSION,
which was made before the save (R243). DESIGN CHOICE: log 56. -/
def State.areaReads (s : State) (asid : BitVec 8) (i : Instr) (d : BitVec 512) (progress : Nat) : List VerRead :=
  let dev := match i with
    | .cpy _ _ _ _ e _ _ => e = 1
    | .cpym _ _ _ _ e => e = 1
    | .cpyq _ _ _ _ e _ _ => e = 1
    | .feed _ _ _ _ e _ _ => e = 1
    | _ => false
  let digested := fun (n : Nat) =>
    let p := nestPoint d n
    !p.pad && (blockStarts (BitVec.ofInt 64 p.s).toNat (unitSize (descFmt d))).any fun a => (s.regionOf asid a).isSome
  if descVchk d && dev && (List.range progress).any digested then [⟨0, 2 ^ 64, BitVec.ofNat 32 (descVersion d), BitVec.ofNat 32 (descVersion d)⟩]
  else []

/-- A command of an engine record, and nothing for a record that is not valid; a withdrawn link command is issued again (R349). Its EFMT is the member's, and a DRAIN's accumulator as the area holds it. DESIGN CHOICE: log 56. -/
def State.areaCmd (s : State) (pa : Nat) (slot : BitVec 3) (id : Nat) (c : Core) : Option Cmd :=
  let flags := s.areaLE pa 4 1
  match decodeSlot slot (BitVec.ofNat 32 (s.areaLE pa 0 4)) with
  | .error _ => none
  | .ok i =>
    if flags % 2 = 0 then none
    else
      let p := s.areaLE pa 8 8
      let gath := match i with | .gath .. => true | _ => false
      let d := BitVec.ofNat 512 (s.areaLE pa 64 64)
      some
        { id := id, i := i, ctx := BitVec.ofNat 2 (s.areaLE pa 5 1), phase := 0, mphase := 0, mark := producedMark i,
          ms := BitVec.ofNat 21 (s.areaLE pa 16 3), d0 := d, d1 := BitVec.ofNat 512 (s.areaLE pa 128 64),
          link := BitVec.ofNat 64 (s.areaLE pa 24 8), efmt := c.sh.efmt, gated := false, released := false,
          started := flags / 4 % 2 = 1 && flags / 8 % 2 = 0, progress := if gath then p % 2 ^ 20 else p, buf := [],
          pin := if gath && p / 2 ^ 63 = 1 then some (BitVec.ofNat 45 (p / 2 ^ 20 % 2 ^ 43 * 4)) else none,
          err := false, sent := false, done := false, vers := s.areaReads c.asid i d p, flags := 0,
          snap := match i with | .drain _ _ _ _ a _ => some (c.acc.read a) | _ => none
          pend := [] }

/-- The commands of one engine that a save area holds, oldest first, on the restored core `c` (R346). -/
def State.areaQueue (s : State) (pa : Nat) (slot : BitVec 3) (id : Nat) (c : Core) : List Cmd :=
  (List.range 32).filterMap fun i => s.areaCmd (pa + 256 * i) slot (id + i) c

/-- The lines of vector, tile and accumulator registers whose granules in a save area are poisoned. -/
def State.areaLines (s : State) (pa : Nat) : List PLine :=
  let lines := (List.range 32).map (fun i => PLine.reg 0 (.v (BitVec.ofNat 5 i))) ++
    (List.range 256).map (fun i => .tile (BitVec.ofNat 2 (i / 64)) (BitVec.ofNat 6 i)) ++
    (List.range 512).map fun i => .acc (BitVec.ofNat 2 (i / 128)) (BitVec.ofNat 7 i)
  lines.filter fun l => match l.place with | some p => s.poisoned (pa + p.1) p.2 | none => false

/-- The inline record; RELC's mode predicate, which it does not hold, is a free value from 0 to 47 (R128, R347). DESIGN CHOICE: log 56. -/
def State.areaInline (s : State) (pa : Nat) : Inline :=
  ⟨BitVec.ofNat 24 (s.areaLE pa 768 4), BitVec.ofNat 64 (s.areaLE pa 772 4), BitVec.ofNat 6 ((Config.freeWord s.freeCtr).toNat % 48),
   (List.range 8).map fun i => BitVec.ofNat 64 (s.areaLE pa (784 + 8 * i) 8), BitVec.ofNat 4 (s.areaLE pa 776 1)⟩

def runOf (n : Nat) : CtxRun := if n = 1 then .running else if n = 2 then .ended else .free

/-- The member that a save area holds, on core `c` (R349, steps 2 to 5). Its yield deadline, which the area does not hold, is a free value
(R328). DESIGN CHOICE: log 56. -/
def State.areaCore (s : State) (c : Core) (b : BitVec 512) (o : Overlay) : Core :=
  let pa := (bindResume b).toNat
  let le := s.areaLE pa
  let parts := le 4 4
  let tailst := le 148 4
  let cyc := le 24 8
  let sh := s.areaShared pa
  let accs := s.areaAccs pa
  let rec_ := le 208 8
  let latest := if rec_ = 3 then none
    else some ((match rec_ % 4 with | 0 => some false | 1 => some true | _ => none), BitVec.ofNat 24 (rec_ / 2 ^ 32))
  let inline := if parts / 64 % 2 = 1 then some (s.areaInline pa) else none
  let base := c.afterMember (c.reqs.filter (·.discard))
  let free := Config.freeWord (s.freeCtr + 1)
  let c' : Core := { base with
    main := s.areaCtx (pa + 0x1000) .running cyc (if accs.toList.any fun a => a.st = .live then .liveAcc else .safe)
    tail0 := s.areaCtx (pa + 0x1400) (runOf (tailst % 4)) cyc .safe
    tail1 := s.areaCtx (pa + 0x1800) (runOf (tailst / 4 % 4)) cyc .safe
    sh := sh
    dupSh := sh
    acc := accs
    fa := s.areaFifo pa (le 51 1) 0x20000 1280
    fb := s.areaFifo pa (le 50 1) 0x28000 1408
    spad := s.mem.filterMap fun m => if pa + 0x200000 ≤ m.1 && m.1 < pa + 0x400000 then some (m.1 - (pa + 0x200000), m.2) else none
    linePoison := s.areaLines pa
    spadPoison := (s.poison.filter fun g => pa + 0x200000 ≤ g && g < pa + 0x400000).map fun g => (g - (pa + 0x200000), 0)
    sched := BitVec.ofNat 64 (le 16 8)
    cyc := BitVec.ofNat 64 cyc
    rank := (bindMember b).setWidth 13
    team := bindTeamNo b ++ (bindTeamSize b &&& 0x1FFF#16)
    asid := bindAsid b
    ckey := bindCkey b
    frame0 := s.areaFrame pa 192
    frame1 := s.areaFrame pa 200
    latest := latest
    inline := inline
    inlineBit := tailst / 256 % 2 = 1
    dupCall := ⟨inline, latest, tailst / 256 % 2 = 1⟩
    nextId := c.nextId + 64
    overlay := some o
    deadline := if free.getLsbD 63 then some (free.toNat % 2 ^ 62) else none
    latePosted := free.getLsbD 62
    bound := true }
  { c' with q0 := s.areaQueue (pa + 0x8000) 6 c.nextId c', q1 := s.areaQueue (pa + 0xA000) 7 (c.nextId + 32) c' }

/-- The arrivals that a save area's word `w` stands for, whose counts are modulo 2^15: beside a mate that is restored already, with `r` arrivals,
those within two of its own, since no member is further ahead of another (R205, R347); for the first member any will do. -/
def arrivalsFor (w : Nat) (r : Option Nat) : Nat :=
  let v := w % 2 ^ 15 + w / 2 ^ 15
  match r with
  | some r => r + (v + 2 ^ 15 + 2 - r % 2 ^ 15) % 2 ^ 15 - 2
  | none => v + 2 ^ 15

/-- Restores one barrier of the focused member: its phase is the least count among the members of the instance that are bound; with the first
member, the phase from which on it was poisoned moves as the member's count does (R205, R207, R347). -/
def State.restoreBarrier (s : State) (t : BitVec 7) (pa n : Nat) : State :=
  let scope := BitVec.ofNat 3 (2 + n / 16)
  let inst := scopeInst scope t
  let b := s.barrier (bindGang (s.bind t)) scope inst (BitVec.ofNat 4 n)
  let mates := match s.gangOf t with | some g => g.tiles.filter fun x => x ≠ t && scopeInst scope x = inst && (s.coreAt x).bound | none => []
  let count := arrivalsFor (s.areaLE pa (1024 + 2 * n) 2) (mates.head?.map b.count)
  let b : Barrier := { b with
    arrived := (b.arrived.filter fun p => p.1 ≠ t) ++ [(t, count)]
    poisoned := if mates.isEmpty then b.poisoned.map fun k => k + count - b.count t else b.poisoned }
  s.setBarrier { b with phase := mates.foldl (fun (m : Nat) x => min m (b.count x)) count }

/-- The first address of a save area's regions at which home holds a read of tile `t`'s restore (R346, R349). -/
def State.areaHeld (s : State) (t : BitVec 7) (pa : Nat) : Option Nat :=
  let spans : List (Nat × Nat) := [(0, 0x2400), (0x4000, 0x2000), (0x8000, 0x4000), (0x10000, 0x20000), (0x40000, 0x80000), (0x200000, 0x200000)]
  (spans.flatMap fun p => (List.range (p.2 / 256)).map fun i => pa + p.1 + 256 * i).find? (s.homeHeld (.tile t))

/-- CONTEXT_RESTORE on tile `ev.tile`. -/
def execContextRestore (s : State) : Result :=
  let t := s.ev.tile
  let b := s.bind t
  let pa := (bindResume b).toNat
  .next <|
    if !s.toCreate t true then s
    else
      match s.image (.tile t) (bindAsid b) (bindImage b).toNat (s.coreAt t).overlay none, s.areaHeld t pa with
      | .held a, _ => s.arriveHeld (.tile t) a
      | .refused, _ => (s.leaveHeld (.tile t)).refuseGang t
      | .ok _, some a => s.arriveHeld (.tile t) a
      | .ok i, none =>
        let s := s.leaveHeld (.tile t)
        if s.areaLE pa 0 4 ≠ 1 || BitVec.ofNat 64 (s.areaLE pa 8 8) ≠ i.overlay.imageId || BitVec.ofNat 8 (s.areaLE pa 146 1) ≠ bindAsid b then
          s.refuseGang t
        else
          let s' := { s with freeCtr := s.freeCtr + 2 }.setCoreAt t { s.areaCore (s.coreAt t) b i.overlay with bornSuspect := s.suspects t }
          (List.range 64).foldl (fun (x : State) n => x.restoreBarrier t pa n) s'

end Sys2Proof.Machine
end

