-- ==== Sys2Proof/Machine/Regions.lean ====
section
/-!
DEFINITION. Digest regions: activation, scans, destruction and errors of the digest store (R264 to R269).
-/
namespace Sys2Proof.Machine

/-- Whether kind, format, layout and row width fit (R266). -/
def Region.shapeOk (r : Region) : Bool :=
  let plain := r.w = 0 && r.layout = 0
  match r.kind with
  | 0 => plain && [1, 2, 3, 4, 6, 7, 8, 9, 11].contains r.fmt
  | 1 => plain && [1, 2, 3, 4, 6, 7, 8, 9, 11].contains r.fmt
  | 2 => plain && r.fmt < 12 && r.fmt ≠ 5
  | _ =>
    if r.layout = 1 then r.fmt = 4 && r.bsz = 1 && 32 ≤ r.w && r.w ≤ 224 && r.w % 32 = 0
    else (r.fmt = 1 || r.fmt = 2 || r.fmt = 3) && 16 ≤ r.w && r.w ≤ 4080 && r.w % 16 = 0 && r.block % (r.w * (tagBits r.fmt / 8)) = 0

/-- The physical address and the leaf of each block of a region that translates. DEDUCED: log 65. -/
def State.regionBlocks (s : State) (r : Region) : List (Nat × Nat × BitVec 64) :=
  (List.range r.nblk).filterMap fun b => match s.walkPa s.outsideKey (BitVec.ofNat 8 r.asid) (r.base + b * r.block) with
    | .ok pa leaf => some (b, pa, leaf)
    | _ => none

/-- The address at which home holds the walk of a block of a region, if it does. -/
def State.walkHeldAt (s : State) (r : Region) (b : Nat) : Option Nat :=
  match s.walkPa s.outsideKey (BitVec.ofNat 8 r.asid) (r.base + b * r.block) with
  | .held pa => some pa
  | _ => none

/-- The address at which home holds the walk of some block of a region, if it does. -/
def State.regionHeld (s : State) (r : Region) : Option Nat := (List.range r.nblk).findSome? (s.walkHeldAt r)

/-- The regions that are scanning or active. -/
def State.liveRegions (s : State) : List (BitVec 8 × Region) :=
  ((List.range 256).map fun i => (BitVec.ofNat 8 i, Region.ofBits (s.regions.read (BitVec.ofNat 8 i)))).filter fun p => p.2.state ≠ 0

/-- Entries that a die holds or will hold: those in its table, and those of the blocks that scanning regions have still to scan (R264). -/
def State.entriesOf (s : State) (home : BitVec 8) : Nat :=
  (s.digests.filter fun e => e.home = home).length +
    ((s.liveRegions.filter fun p => p.2.state = 1).map fun p =>
      ((s.regionBlocks p.2).filter fun b => homeOf b.2.1 = home && (s.digEntry p.1 b.1).isNone).length).foldl (· + ·) 0

/-- Whether firmware creates the region (R264). -/
def State.regionOk (s : State) (r : Region) : Bool :=
  let blocks := s.regionBlocks r
  r.shapeOk && 1 ≤ r.nblk && r.base % r.block = 0 && r.base + r.nblk * r.block ≤ 2 ^ 52 &&
    (s.liveRegions.all fun p => p.2.asid ≠ r.asid || p.2.base + p.2.nblk * p.2.block ≤ r.base || r.base + r.nblk * r.block ≤ p.2.base) &&
    (blocks.all fun b => !leafCMP b.2.2 && !leafONCE b.2.2) &&
    (blocks.map fun b => homeOf b.2.1).eraseDups.all fun h => s.entriesOf h + (blocks.filter fun b => homeOf b.2.1 = h).length ≤ 1179648

/-- The Sieve writes STATE of a region's record (R265). -/
def State.setRegionState (s : State) (k : BitVec 8) (n : Nat) : State :=
  { s with
    regions := s.regions.write k (setField (s.regions.read k) 114 2 n)
    scanning := (s.scanning.filter fun x => x ≠ k) ++ (if n = 1 then [k] else []) }

/-- REGION_ACTIVATE of region `ev.id` (R264, R267); it waits while home holds a walk of its blocks, or of those that scanning regions count. -/
def execRegionActivate (s : State) : Result :=
  let k : BitVec 8 := BitVec.ofNat 8 s.ev.id
  let r := Region.ofBits (s.regions.read k)
  .next <|
    if r.state ≠ 0 then s.outsideDone
    else
      match (r :: ((s.liveRegions.filter fun p => p.2.state = 1).map (·.2))).findSome? s.regionHeld with
      | some pa => s.again pa .regionActivate
      | none => if s.regionOk r then s.outsideDone.setRegionState k 1 else s.outsideDone

/-- Whether every block of a region that translates has its entry, or lies on a page on which no region may lie; a block whose walk home holds has
still to be scanned. -/
def State.regionScanned (s : State) (k : BitVec 8) : Bool :=
  let r := Region.ofBits (s.regions.read k)
  ((s.regionBlocks r).all fun b => (s.digEntry k b.1).isSome || leafCMP b.2.2 || leafONCE b.2.2) &&
    (List.range r.nblk).all fun b => (s.digEntry k b).isSome || (s.walkHeldAt r b).isNone

/-- A region is active once every block is scanned. -/
def State.scanEnd (s : State) (k : BitVec 8) : State :=
  if (Region.ofBits (s.regions.read k)).state = 1 && s.regionScanned k then s.setRegionState k 2 else s

/-- The entry of a block becomes region-INVALID with its version (R267, R269). -/
def State.spoilEntry (s : State) (k : BitVec 8) (b : Nat) : State :=
  { s with digests := s.digests.map fun (e : DigEntry) =>
      if e.region = k && e.block = b then { e with bytes := regionInvalid (Region.ofBits (s.regions.read k)) (entVersion e.bytes).toNat } else e }

/-- Whether a block's page has become CMP or ONCE, on which no region lies: it is not scanned (R264). DEDUCED: log 65. -/
def State.blockBarred (s : State) (r : Region) (b : Nat) : Bool :=
  match s.walkPa s.outsideKey (BitVec.ofNat 8 r.asid) (r.base + b * r.block) with
  | .ok _ leaf => leafCMP leaf || leafONCE leaf
  | _ => false

/-- SIEVE_BLOCK_SCAN of block `ev.count` of region `ev.id`: its entry is computed with version 0; with `ev.flag` firmware makes it
region-INVALID, before it changes the translation of its page; past the last block there is nothing to scan, and the region is active once all are
(R267). -/
def execSieveBlockScan (s : State) : Result :=
  let k : BitVec 8 := BitVec.ofNat 8 s.ev.id
  let r := Region.ofBits (s.regions.read k)
  let b := s.ev.count
  .next <|
    if r.state = 0 then s.outsideDone
    else if r.nblk ≤ b then (s.scanEnd k).outsideDone
    else if s.ev.flag then (s.spoilEntry k b).outsideDone
    else
      let fresh := { s with digests := s.digests.filter fun e => !(e.region = k && e.block = b) }
      match fresh.blockHeld s.outsideKey k (fresh.blockNow s.outsideKey k b) with
      | some pa => s.again pa .sieveBlockScan
      | none => if s.blockBarred r b then ((s.spoilEntry k b).scanEnd k).outsideDone else ((fresh.scanBlock s.outsideKey k b false).scanEnd k).outsideDone

/-- REGION_DESTROY of region `ev.id` (R267). -/
def execRegionDestroy (s : State) : Result :=
  let k : BitVec 8 := BitVec.ofNat 8 s.ev.id
  .next ({ s with digests := s.digests.filter fun e => e.region ≠ k }.setRegionState k 0)

/-- DIGEST_ENTRY_ECC_ERROR in the entry of block `ev.count` of region `ev.id`; the record goes to the ring of the entry's die, when that is one of
this package (R15, R269, R385). -/
def execDigestEntryEccError (s : State) : Result :=
  let k : BitVec 8 := BitVec.ofNat 8 s.ev.id
  .next <|
    match s.digEntry k s.ev.count with
    | none => s
    | some e =>
      let r : Rec :=
        { kind := 7, cause := 0, who := 0, unit := 8, flags := 0, rolls := 0, asid := (Region.ofBits (s.regions.read k)).asid, ix := 0,
          addr := e.pa.toNat, detail := 0, sched := 0, orphans := [], teamno := 0, queue := 0 }
      let s := s.spoilEntry k s.ev.count
      if e.home.toNat / 4 = Config.pkgId.toNat then s.postRecord (e.home.setWidth 2) none r.bits else s

end Sys2Proof.Machine
end

