-- ==== Sys2Proof/Machine/Links.lean ====
section
/-!
DEFINITION. Pod links: transfers between a send and a posted receive, ports going down and coming up, retransmission and retraining (R236 to
R238, R418, R419).
-/
namespace Sys2Proof.Machine

/-- The command that a wait of a link names. -/
def State.linkCmd (s : State) (w : LinkWait) : Option Cmd := ((s.coreAt w.tile).queue w.eng).find? fun k => k.id = w.cmd

/-- A link command ends. -/
def State.linkEnd (s : State) (w : LinkWait) (err : Bool) : State :=
  let s := { s with linkWaits := s.linkWaits.filter fun x => x ≠ w }
  match s.linkCmd w with
  | some k => s.setCoreAt w.tile ((s.coreAt w.tile).putCmd w.eng { k with done := true, err := k.err || err })
  | none => s

/-- A pair moves its bytes: the local command of wait `w`, and at the far end one of `len` units, whose bytes are `data` when it is the send (R237).
LRECV has its bytes on their way (R248), LRXADD has them at hand for its additions (R238). -/
def State.linkMove (s : State) (w : LinkWait) (k : Cmd) (len : Nat) (data : List Byte) : State :=
  let c := s.coreAt w.tile
  let n := 64 * min (linkLen k.link) len
  let a := linkAddr k.link
  let old := Memory.readList c.spad a n
  let err : Bool := linkLen k.link ≠ len
  if w.send then
    if c.spadPoisoned a n then ({ s with linkWaits := s.linkWaits.filter fun x => x ≠ w }.focus w.tile).engStop k w.eng .poison
    else { s with out := s.out ++ [Out.link w.port w.chan old] }.linkEnd w err
  else
    let new := data.take n ++ List.replicate (n - data.length) 0
    let got := { k with progress := 1, err := k.err || err }
    let k' := match k.i with
      | .lrxadd .. => { got with buf := new }
      | _ => { got with pend := new.zipIdx.map fun b => (w.tile, a + b.2, b.1) }
    { s with linkWaits := s.linkWaits.filter fun x => x ≠ w }.setCoreAt w.tile (c.putCmd w.eng k')

/-- LINK_PAIR on port `ev.port` and channel `ev.count`: the first local send (`ev.flag`) or receive meets the far end's, of `ev.id` units, whose bytes
are `ev.data`. A send sees every scratchpad write of earlier bundles (R212). -/
def execLinkPair (s : State) : Result :=
  .next <|
    match s.linkWaits.find? fun w => w.port = s.ev.port && w.chan.toNat = s.ev.count && w.send = s.ev.flag with
    | none => s
    | some w =>
      match s.linkCmd w with
      | none => s
      | some k =>
        let reads := w.send && (s.focus w.tile).storeOnWay k w.tile
        if (s.coreAt w.tile).enginesRun && (s.ports.read w.port).state = 2 && !reads then s.linkMove w k s.ev.id s.ev.data else s

/-- LINK_PORT_DOWN of port `ev.port`, or, with `ev.flag`, of its far end's tile alone: the pending commands end in error (R237). DEDUCED: log
100. -/
def execLinkPortDown (s : State) : Result :=
  let p := s.ev.port
  let ws := s.linkWaits.filter fun w => w.port = p
  let s := ws.foldl (fun (s : State) w => s.linkEnd w true) s
  .next (if s.ev.flag then s else { s with ports := s.ports.write p { s.ports.read p with state := 0, lanes := 0 } })

/-- LINK_PORT_UP of port `ev.port` with the lanes that it trains, where a cable is fitted; what found no route goes on its way (R17, R407, R418,
R419). -/
def execLinkPortUp (s : State) : Result :=
  let p := s.ev.port
  .next (if p.toNat < 12 && Config.lanes p ≠ 0 then { s with ports := s.ports.write p { s.ports.read p with state := 2, lanes := Config.lanes p } }.retryStalled
    else s)

/-- FLIT_RETRANSMIT on port `ev.port`: RETRY saturates, and the retransmissions of the last 1 ms are kept (R418). -/
def execFlitRetransmit (s : State) : Result :=
  let x := s.ports.read s.ev.port
  .next { s with ports := s.ports.write s.ev.port { x with retry := if x.retry = 0xFFFF then x.retry else x.retry + 1, recent := (x.recent.filter fun a => s.refClk < a + 100000) ++ [s.refClk] } }

/-- Whether a port retransmits more than it may. DEDUCED: log 100. -/
def Port.noisy (x : Port) : Bool := 1024 < x.recent.length && x.state = 2

/-- LINK_RETRAIN of port `ev.port`, with its record (R385, R418). -/
def execLinkRetrain (s : State) : Result :=
  let p := s.ev.port
  let x := s.ports.read p
  let r : Rec :=
    { kind := 12, cause := 0, who := 0, unit := 15, flags := 0, rolls := 0, asid := 0, ix := 0, addr := 0, detail := 0, sched := 0,
      orphans := [], teamno := 0, queue := 0 }
  .next (if x.noisy then { s with ports := s.ports.write p { x with state := 1, lanes := 0, recent := [] } }.postRecord (BitVec.ofNat 2 (p.toNat / 3)) none r.bits
    else s)

end Sys2Proof.Machine
end

