-- ==== Sys2Proof/Machine/Watch.lean ====
section
/-!
DEFINITION. Neighbour watch: heartbeats, suspicion, accusations and quorum, fences, self-test, appeal and readmission (R390 to R403).
-/
namespace Sys2Proof.Machine

/-! ## Parameters, in reference clocks of 10 ns (R390) -/

def watchTHB : Nat := 2000
def watchTVIOL : Nat := 10000
def watchTACC : Nat := 20000
def watchTBIST : Nat := 800000
def watchTPROB : Nat := 200000

/-! ## Places (R13, R395, R396) -/

/-- The watch ring of a tile, in order of travel 0. -/
def ringTiles (t : BitVec 7) : List (BitVec 7) :=
  let x := tileX t
  let y := tileY t
  [tileOf (x + 1) y, tileOf (x + 1) (y + 1), tileOf x (y + 1), tileOf (x + 15) (y + 1), tileOf (x + 15) y, tileOf (x + 15) (y + 7),
   tileOf x (y + 7), tileOf (x + 1) (y + 7)]

/-- The next tile on the ring of `t` after tile `p`, in a direction of travel. -/
def ringNext (t p : BitVec 7) (back : Bool) : BitVec 7 :=
  let l := ringTiles t
  l.getD ((l.idxOf p + (if back then 7 else 1)) % 8) p

/-- The direction in which tile `v` has neighbour `t`. -/
def dirTo (v t : BitVec 7) : Option (BitVec 2) := [0#2, 1#2, 2#2, 3#2].find? fun d => neighbour v d = t

/-- Whether tile `t` is neither fenced nor fused off in the watch map of tile `v`. -/
def State.votes (s : State) (v t : BitVec 7) : Bool := !(s.mapAt v t).fused && !(s.mapAt v t).fenced

/-- How many voters tile `t` has in the watch map of tile `v`, and the quorum (R396). -/
def State.voters (s : State) (v t : BitVec 7) : Nat := ([0#2, 1#2, 2#2, 3#2].filter fun d => s.votes v (neighbour t d)).length
def quorum (e : Nat) : Nat := max 2 (e / 2 + 1)

def State.vote (s : State) (v : BitVec 7) (d : BitVec 2) : Vote := (s.trellisAt v).votes.read d

def State.mapVote (s : State) (v : BitVec 7) (d : BitVec 2) (f : Vote → Vote) : State :=
  let t := s.trellisAt v
  s.setTrellis v { t with votes := t.votes.write d (f (t.votes.read d)) }

/-- The state that tile `v` records of a neighbour has changed: the member on `v` no longer reads it as it was at its creation (R39). -/
def State.stateNew (s : State) (v : BitVec 7) (d : BitVec 2) : State :=
  let c := s.coreAt v
  if c.bornSuspect.getLsbD d.toNat then s.setCoreAt v { c with bornSuspect := c.bornSuspect &&& ~~~(BitVec.ofNat 4 (2 ^ d.toNat)) } else s

/-! ## Messages (R395, R401) -/

/-- Whether tile `v` may send tile `u` beside it a watch flit: its link is not fenced (R399). -/
def State.sendsTo (s : State) (v u : BitVec 7) : Bool := match dirTo v u with | some d => !(s.vote v d).linkFenced | none => false

/-- Sends a watch flit about tile `t` both ways round its ring, but over no fenced link (R395, R399). -/
def State.sendRing (s : State) (v t : BitVec 7) (kind : BitVec 3) : State :=
  { s with flits := s.flits ++ ([false, true].filter fun back => s.sendsTo v (ringNext t v back)).map fun back =>
      { dest := ringNext t v back, dir := if back then 1 else 0, kind := kind, payload := 0, subject := t, sender := v, sent := s.refClk } }

/-- Posts a watch record about tile `t`, with team and queue of its bind record, and sends it to the service core: event code, the reporting
neighbour's direction or 15. DEDUCED: log 60. -/
def State.watchRecord (s : State) (t : BitVec 7) (code dir cause : Nat) : State :=
  let r : Rec :=
    { kind := 9, cause := cause, who := whoOf t 0, unit := 15, flags := 0, rolls := 0, asid := 0, ix := 0, addr := 0, detail := code + 16 * dir,
      sched := 0, orphans := [], teamno := (bindTeamNo (s.bind t)).toNat, queue := (bindQueue (s.bind t)).toNat }
  { s with out := s.out ++ [Out.record (dieOf t) r.bits] }.postRecord (dieOf t) none r.bits

/-- The tiles whose Trellises are fused off, by number: no notice has to reach them. -/
def State.fusedTiles (s : State) : BitVec 128 := BitVec.ofNat 128 (packElems 1 (s.map.toList.map fun m => if m.fused then 1 else 0))

/-- Tile `v` posts a notice about tile `t` on the management ring; it has reached its own map. -/
def State.notice (s : State) (v : BitVec 7) (kind : BitVec 3) (t : BitVec 7) : State :=
  { s with mring := s.mring ++ [⟨kind, t, s.refClk, s.fusedTiles ||| BitVec.ofNat 128 (2 ^ v.toNat)⟩] }

/-- Takes flit number `n` when it is of a kind and addressed to tile `v`. -/
def State.takeFlit (s : State) (v : BitVec 7) (kind : BitVec 3) (n : Nat) (k : Flit → State → State) : State :=
  match s.flits[n]? with
  | some f => if f.dest = v && f.kind = kind then k f { s with flits := s.flits.eraseIdx n } else s
  | none => s

/-- Whether tile `v` takes a watch flit from tile `p` beside it: neither its link nor its map holds `p` as fenced (R399). -/
def State.hears (s : State) (v p : BitVec 7) : Bool :=
  s.votes v p && (match dirTo v p with | some d => !(s.vote v d).linkFenced | none => false)

/-- A ring tile that is not fenced or fused off takes a flit, and forwards it until it has gone round, but over no fenced link; at another, and over
a fenced link, the flit is lost (R395, R399). -/
def State.ringTake (s : State) (v : BitVec 7) (kind : BitVec 3) (n : Nat) (k : Flit → State → State) : State :=
  s.takeFlit v kind n fun f s =>
    if !s.votes v v || !s.hears v (ringNext f.subject v (f.dir = 0)) then s
    else
      let next := ringNext f.subject v (f.dir = 1)
      k f (if next = f.sender || !s.sendsTo v next then s else { s with flits := s.flits ++ [{ f with dest := next, sent := s.refClk }] })

/-! ## Suspicion (R393 to R395) -/

def Trellis.noticed (x : Trellis) (t : BitVec 7) : Bool := x.notices.contains t

/-- Tile `v` begins to suspect its neighbour in direction `d`, and accuses it; or it finds it babbling as well, and renews its accusation when that is
due. -/
def State.suspect (s : State) (v : BitVec 7) (d : BitVec 2) (kind : BitVec 2) : State :=
  let t := neighbour v d
  let was := (s.vote v d).state = 1
  let s := (s.mapVote v d fun x => { x with state := 1, kind := kind, accusing := true, renewed := if was then x.renewed else s.refClk }).watchRecord t kind.toNat (d ^^^ 1).toNat 0
  if was then s else s.sendRing v t 1

/-- The suspicion clears: the accusation is withdrawn. -/
def State.unsuspect (s : State) (v : BitVec 7) (d : BitVec 2) : State :=
  ((s.mapVote v d fun x => { x with state := 0, kind := 0, accusing := false }).stateNew v d).sendRing v (neighbour v d) 2

/-! ## Heartbeats (R391, R393, R394) -/

/-- The payload of a tile's heartbeat of period `k`. -/
def State.heartbeat (s : State) (t : BitVec 7) (k : Nat) : BitVec 64 :=
  let m := s.mapAt t t
  let hi : BitVec 48 := BitVec.ofNat 48 (k % 2 ^ 16 * 2 ^ 32 + podTile t * 2 ^ 19 + (if (s.trellisAt t).probation.isSome then 2 ^ 18 else 0) +
    min m.strikes.length 2 * 2 ^ 16 + watchView (s.neighbourState t))
  hi ++ Config.heartbeatCheck hi

/-- Whether a tile sends heartbeats at edge `k`: it is not fenced, or it is on probation since an earlier period. -/
def State.sends (s : State) (t : BitVec 7) (k : Nat) : Bool :=
  !(s.map.read t).fused && !Config.silent t k &&
    (!(s.mapAt t t).fenced || (match (s.trellisAt t).probation with | some b => b < watchTHB * k | none => false))

/-- The heartbeats that a tile sends at edge `k`, one to each neighbour that is not fused off. -/
def State.beats (s : State) (t : BitVec 7) (k : Nat) : List Flit :=
  if s.sends t k then
    ([0#2, 1#2, 2#2, 3#2].filter fun d => !(s.map.read (neighbour t d)).fused).map fun d =>
      { dest := neighbour t d, dir := d ^^^ 1, kind := 0, payload := s.heartbeat t k, subject := t, sender := t, sent := s.refClk }
  else []

/-- HEARTBEAT_SEND of tile `ev.tile`, once for each edge after that of the boot. -/
def execHeartbeatSend (s : State) : Result :=
  let t := s.ev.tile
  let x := s.trellisAt t
  let k := x.beatSent + 1
  .next <|
    if s.refClk / watchTHB < k then s
    else { s with flits := s.flits ++ s.beats t k }.setTrellis t { x with beatSent := k }

/-- Whether a heartbeat is valid by its own fields (R391). -/
def Vote.beatOk (v : Vote) (t : BitVec 7) (p : BitVec 64) : Bool :=
  Config.heartbeatCheck (p.extractLsb' 16 48) = p.extractLsb' 0 16 && (p.extractLsb' 35 13).toNat = podTile t && field p 24 8 = 0 &&
    (match v.lastSeq with
     | none => true
     | some q => let k := (p.extractLsb' 48 16 - q).toNat; decide (1 ≤ k ∧ k ≤ 32767))

/-- Whether a link leads between two tiles that are not fused off (R2). -/
def State.linkLives (s : State) (v : BitVec 7) (d : BitVec 2) : Bool := !(s.map.read v).fused && !(s.map.read (neighbour v d)).fused

/-- A violation on the link of tile `v` in direction `d` (R394). -/
def State.violation (s : State) (v : BitVec 7) (d : BitVec 2) : State :=
  if !s.linkLives v d then s
  else
  let x := s.vote v d
  let recent := x.viol.filter fun a => s.refClk ≤ a + watchTVIOL
  let s := s.mapVote v d fun x => { x with viol := (recent ++ [s.refClk]).drop (recent.length + 1 - 5), badPeriod := true }
  if 4 ≤ recent.length && x.state < 2 && x.kind ≠ 2 && !(s.trellisAt v).noticed (neighbour v d) then s.suspect v d 2 else s

/-- A heartbeat arrives at tile `v` from direction `d`. A fenced link lets only a probation heartbeat pass (R399). -/
def State.heartbeatIn (s : State) (v : BitVec 7) (d : BitVec 2) (p : BitVec 64) : State :=
  let x := s.vote v d
  if !s.linkLives v d || (x.linkFenced && !p.getLsbD 34) then s
  else if x.beats ≠ 0 || !x.beatOk (neighbour v d) p then (s.mapVote v d fun x => { x with beats := x.beats + 1 }).violation v d
  else
    let s := s.mapVote v d fun x =>
      { x with beats := x.beats + 1, beatsValid := x.beatsValid + 1, lastSeq := some (p.extractLsb' 48 16) }
    if x.state = 1 && x.kind = 1 && !(s.trellisAt v).noticed (neighbour v d) then s.unsuspect v d else s

/-- HEARTBEAT_RECEIVE at tile `ev.tile`: heartbeat number `ev.id` of the flits in flight, once the receiver has closed the periods before; or, with
`ev.flag`, from outside on the link in direction `ev.dir`: by `ev.count` a heartbeat of payload `ev.value`, a flit with a bad header, or data beyond the
credits. -/
def execHeartbeatReceive (s : State) : Result :=
  let v := s.ev.tile
  .next <|
    if s.ev.flag then
      if s.ev.count = 0 then s.heartbeatIn v s.ev.dir (s.ev.value.setWidth 64) else s.violation v s.ev.dir
    else
      match s.flits[s.ev.id]? with
      | some f =>
        if (s.trellisAt v).periodsEnded.read f.dir < s.refClk / watchTHB then s
        else s.takeFlit v 0 s.ev.id fun f s => s.heartbeatIn v f.dir f.payload
      | none => s

/-! ## Readmission (R402) -/

/-- The link of tile `v` in direction `d` opens again, and its watch begins anew. -/
def State.reopen (s : State) (v : BitVec 7) (d : BitVec 2) : State :=
  let t := neighbour v d
  let x := s.trellisAt v
  (s.stateNew v d).setTrellis v { x with
    votes := x.votes.write d .fresh
    accs := x.accs.filter fun h => h.subject ≠ t
    admits := x.admits.filter fun h => h.subject ≠ t
    notices := x.notices.filter fun n => n ≠ t }

/-- Whether tile `t` is on probation: no admission counts outside one (R402). -/
def State.onProbation (s : State) (t : BitVec 7) : Bool := (s.trellisAt t).probation.isSome

/-- Whether a voter holds a quorum of admissions by voters for the neighbour behind a fenced link, which is on probation. -/
def State.admitDue (s : State) (v : BitVec 7) (d : BitVec 2) : Bool :=
  let t := neighbour v d
  let n := ((s.trellisAt v).admits.filter fun h => h.subject = t && s.votes v h.by_).length
  (s.vote v d).linkFenced && s.onProbation t && s.votes v v && decide (quorum (s.voters v t) ≤ n)

/-- A voter that holds a quorum of admissions by voters sends the readmission notice and opens its link. -/
def State.admitCheck (s : State) (v : BitVec 7) (d : BitVec 2) : State :=
  let t := neighbour v d
  if s.admitDue v d then ((s.sendRing v t 5).notice v 2 t).reopen v d else s

/-- The admissions of an appeal that has ended count in no later one. -/
def State.dropAdmits (s : State) (t : BitVec 7) : State :=
  { s with trellis := s.trellis.map fun p => (p.1, { p.2 with admits := p.2.admits.filter fun h => h.subject ≠ t }) }

/-- A voter holds the admission of `t` by tile `b`. -/
def State.admitHeld (s : State) (v t b : BitVec 7) : State :=
  let x := s.trellisAt v
  s.setTrellis v { x with admits := (x.admits.filter fun h => !(h.subject = t && h.by_ = b)) ++ [⟨t, b, s.refClk⟩] }

/-- The end of a period on a live link: MISS, and silence (R393). -/
def State.missEnd (s : State) (v : BitVec 7) (d : BitVec 2) : State :=
  let x := s.vote v d
  let miss : BitVec 2 := if 0 < x.beatsValid then 0 else if x.miss = 3 then 3 else x.miss + 1
  let s := s.mapVote v d fun x => { x with miss := miss }
  if miss = 3 && x.state = 0 && !(s.trellisAt v).noticed (neighbour v d) then s.suspect v d 1 else s

/-- The end of a period on a fenced link: GOOD, and the admission at sixteen (R402). -/
def State.goodEnd (s : State) (v : BitVec 7) (d : BitVec 2) : State :=
  let x := s.vote v d
  let good : BitVec 5 := if x.beatsValid = 1 && !x.badPeriod then (if x.good = 16 then 16 else x.good + 1) else 0
  let s := s.mapVote v d fun x => { x with good := good }
  if good = 16 && x.good = 15 && s.onProbation (neighbour v d) then ((s.sendRing v (neighbour v d) 4).admitHeld v (neighbour v d) v).admitCheck v d else s

/-- PERIOD_END on the link of tile `ev.tile` in direction `ev.dir`. -/
def execPeriodEnd (s : State) : Result :=
  let v := s.ev.tile
  let d := s.ev.dir
  let x := s.trellisAt v
  let k := x.periodsEnded.read d + 1
  .next <|
    if s.refClk / watchTHB < k then s
    else
      let s := s.setTrellis v { x with periodsEnded := x.periodsEnded.write d k }
      if !s.linkLives v d then s
      else
        (if (s.vote v d).linkFenced then s.goodEnd v d else s.missEnd v d).mapVote v d fun x =>
          { x with beats := 0, beatsValid := 0, badPeriod := false }

/-- Whether the babbling suspicion of a link has lasted for TVIOL without a violation. -/
def State.babbleOver (s : State) (v : BitVec 7) (d : BitVec 2) : Bool :=
  let x := s.vote v d
  x.state = 1 && x.kind = 2 && !(s.trellisAt v).noticed (neighbour v d) && x.viol.all fun a => a + watchTVIOL ≤ s.refClk

/-- BABBLE_CLEAR on the link of tile `ev.tile` in direction `ev.dir`: silence alone remains when MISS stands at its limit and no valid heartbeat has
come since (R393, R394). -/
def execBabbleClear (s : State) : Result :=
  let v := s.ev.tile
  let d := s.ev.dir
  .next <|
    if !s.babbleOver v d then s
    else if (s.vote v d).miss = 3 && (s.vote v d).beatsValid = 0 then s.mapVote v d fun x => { x with kind := 1 }
    else s.unsuspect v d

/-! ## Accusations (R395) -/

/-- ACCUSATION_RECEIVE at tile `ev.tile`: flit number `ev.id`; a voter holds the accusation. -/
def execAccusationReceive (s : State) : Result :=
  let v := s.ev.tile
  .next <| s.ringTake v 1 s.ev.id fun f s =>
    match dirTo v f.subject with
    | some _ =>
      let x := s.trellisAt v
      s.setTrellis v { x with accs := (x.accs.filter fun h => !(h.subject = f.subject && h.by_ = f.sender)) ++ [⟨f.subject, f.sender, s.refClk⟩] }
    | none => s

/-- Whether an accuser's renewal is due. -/
def State.renewDue (s : State) (v : BitVec 7) (d : BitVec 2) : Bool :=
  let x := s.vote v d
  x.accusing && s.votes v v && x.renewed + watchTHB ≤ s.refClk

/-- ACCUSATION_RENEW of tile `ev.tile` about its neighbour in direction `ev.dir`. -/
def execAccusationRenew (s : State) : Result :=
  let v := s.ev.tile
  let d := s.ev.dir
  .next (if s.renewDue v d then (s.mapVote v d fun x => { x with renewed := s.refClk }).sendRing v (neighbour v d) 1 else s)

/-- ACCUSATION_EXPIRY at tile `ev.tile`: accusations past TACC. -/
def execAccusationExpiry (s : State) : Result :=
  let v := s.ev.tile
  let x := s.trellisAt v
  .next (s.setTrellis v { x with accs := x.accs.filter fun h => s.refClk ≤ h.time + watchTACC })

/-- WITHDRAWAL_RECEIVE at tile `ev.tile`: flit number `ev.id`. -/
def execWithdrawalReceive (s : State) : Result :=
  let v := s.ev.tile
  .next <| s.ringTake v 2 s.ev.id fun f s =>
    let x := s.trellisAt v
    s.setTrellis v { x with accs := x.accs.filter fun h => !(h.subject = f.subject && h.by_ = f.sender) }

/-! ## Fences (R397 to R400) -/

/-- Tile `v` fences its link in direction `d`; what it holds about the neighbour is settled. -/
def State.fenceLink (s : State) (v : BitVec 7) (d : BitVec 2) : State :=
  let t := neighbour v d
  let x := s.trellisAt v
  (s.stateNew v d).setTrellis v { x with
    votes := x.votes.write d { Vote.fresh with state := 2, linkFenced := true }
    accs := x.accs.filter fun h => h.subject ≠ t
    notices := x.notices ++ [t] }

/-- The requests that a fenced tile has sent to homes and peers: a free choice of them crossed before the fence and perform, and the others are
dropped whole (R399). DESIGN CHOICE: log 3. -/
def State.cutRequests (s : State) : State :=
  let out := s.core.survivors
  let (k, s) := s.choose (2 ^ out.length)
  let lost := (out.zipIdx.filter fun x => k.testBit x.2).map (·.1)
  s.mapCore fun c => { c with reqs := c.reqs.filter fun r => !lost.contains r }

/-- The messages of a fenced tile's commands to its quad: the tiles for which a command's unit in hand has bytes, or a CPYM an arrival on its way. -/
def State.unitMessages (s : State) (k : Cmd) : List (BitVec 7) :=
  ((k.pend.map (·.1)) ++ (match k.i with | .cpym .. => (s.arrivals.filter fun a => k.sent && a.2 = k.mark && quadOf a.1 = quadOf s.coreTile).map (·.1) | _ => [])).dedup.filter
    (· ≠ s.coreTile)

/-- What a fenced tile's engines had on its way to its quad, the unit in hand for each tile being one message: a free choice of the messages crossed
before the fence and perform, and the others are dropped whole (R399). DESIGN CHOICE: log 125. -/
def State.cutUnits (s : State) : State :=
  let cut := fun (s : State) (e : BitVec 1) (k : Cmd) => (s.unitMessages k).foldl (fun (s : State) t =>
    let (n, s) := s.choose 2
    if n = 0 then s
    else { s with arrivals := if k.sent then s.arrivals.erase (t, k.mark) else s.arrivals }.mapCore fun (c : Core) =>
      c.setQueue e ((c.queue e).map fun (x : Cmd) => if x.id = k.id then { x with pend := x.pend.filter fun w => w.1 ≠ t } else x)) s
  s.core.q1.foldl (fun s k => cut s 1 k) (s.core.q0.foldl (fun s k => cut s 0 k) s)

/-- A fence of tile `t` takes effect (R400): its member, if any, is killed with FENCED, its entry is Unavailable, and its self-test begins
(R402). A reserved entry keeps its gang, which can then not be committed (R321). A member that is killed already, and whose record waits for room, is
not killed again (R314). -/
def State.fenceEffect (s : State) (t : BitVec 7) : State :=
  let n := bindState (s.bind t)
  if n = 5 then s
  else
    let s := s.setTrellis t { s.trellisAt t with selfTest := some s.refClk, probation := none }
    if n = 2 || n = 3 || n = 4 then
      let s := ((s.setBindState t 5).focus t).cutRequests.cutUnits
      if s.killWaits t then s
      else s.killMember ⟨.fenced, 15, 0, 0⟩ 0 s.core.main.ix s.core.main.unprotFlag Cause.fenced.code 1 Cause.fenced.code false
    else if n = 1 then s.setBindState t 5
    else { s with binds := s.binds.write t 5 }

/-- Live accusations of the neighbour in direction `d` that tile `v` holds, its own included: those of voters, up to TACC after their renewal
(R395, R397). -/
def State.accusers (s : State) (v : BitVec 7) (d : BitVec 2) : Nat :=
  ((s.trellisAt v).accs.filter fun h =>
    h.subject = neighbour v d && h.by_ ≠ v && s.votes v h.by_ && decide (s.refClk ≤ h.time + watchTACC)).length +
    (if (s.vote v d).accusing then 1 else 0)

/-- Whether a voter has a quorum against its neighbour and no notice yet. -/
def State.quorate (s : State) (v : BitVec 7) (d : BitVec 2) : Bool :=
  let t := neighbour v d
  s.votes v v && s.votes v t && !(s.trellisAt v).noticed t && 2 ≤ s.voters v t && quorum (s.voters v t) ≤ s.accusers v d

/-- Whether the isolated condition of a neighbour must change: its single voter suspects it, or no longer does (R398). -/
def State.isolating (s : State) (v : BitVec 7) (d : BitVec 2) : Bool :=
  let t := neighbour v d
  let on : Bool := s.voters v t = 1 && (s.vote v d).state = 1
  s.votes v v && s.votes v t && on ≠ (s.mapAt v t).isolated

/-- Whether a tile must fence itself: all its links lead to fenced or fused-off tiles (R398). -/
def State.selfFencing (s : State) (t : BitVec 7) : Bool := s.votes t t && s.voters t t = 0

/-- QUORUM_CHECK of tile `ev.tile` about its neighbour in direction `ev.dir` (R397, R398, R402): a fence, of the neighbour or of the tile itself, takes
effect at once, and so does a readmission whose quorum a change of the watch map has lowered. -/
def execQuorumCheck (s : State) : Result :=
  let v := s.ev.tile
  let d := s.ev.dir
  let t := neighbour v d
  .next <|
    if s.quorate v d then ((((s.sendRing v t 3).notice v 0 t).watchRecord t 3 (d ^^^ 1).toNat 15).fenceLink v d).fenceEffect t
    else if s.selfFencing v then ((s.notice v 1 v).watchRecord v 5 15 15).fenceEffect v
    else if s.isolating v d then
      if (s.mapAt v t).isolated then s.notice v 4 t else (s.notice v 3 t).watchRecord t 4 (d ^^^ 1).toNat 0
    else s.admitCheck v d

/-- FENCE_NOTICE_RECEIVE at tile `ev.tile`: flit number `ev.id`; a voter fences its link, and the fence takes effect. -/
def execFenceNoticeReceive (s : State) : Result :=
  let v := s.ev.tile
  .next <| s.ringTake v 3 s.ev.id fun f s =>
    match dirTo v f.subject with
    | some d => (if (s.trellisAt v).noticed f.subject then s else s.fenceLink v d).fenceEffect f.subject
    | none => s

/-! ## The watch map (R396, R401 to R403) -/

/-- What a notice does where it reaches tile `u`, beside the change of the tile's map: a neighbour of a fenced tile fences its link, and opens it
again at a readmission; the readmitted tile itself is free again (R397, R402). -/
def State.noticeAt (s : State) (u : BitVec 7) (n : Notice) : State :=
  let t := n.subject
  match n.kind.toNat with
  | 2 =>
    if u = t then
      if bindState (s.bind t) ≠ 5 then s
      else
        ({ s with binds := s.binds.write t 0 }.setTrellis t { s.trellisAt t with probation := none, selfTest := none }).watchRecord t 9 15 0
    else match dirTo u t with
      | some d => if (s.vote u d).linkFenced then s.reopen u d else s
      | none => s
  | 0 | 1 =>
    match dirTo u t with
    | some d => (if (s.vote u d).linkFenced then s else s.fenceLink u d).fenceEffect t
    | none => s.fenceEffect t
  | _ => s

/-- The watch maps once the oldest notices have reached every tile. -/
def settleMap : List Notice → Bank 7 MapEntry → List Notice × Bank 7 MapEntry
  | [], m => ([], m)
  | n :: l, m => if n.seen = BitVec.allOnes 128 then settleMap l (m.write n.subject (n.applied (m.read n.subject))) else (n :: l, m)

/-- The first notice that has not reached tile `u`: its place. -/
def State.unseen (s : State) (u : BitVec 7) : Option Nat := s.mring.findIdx? fun n => !n.seen.getLsbD u.toNat

/-- WATCH_MAP_UPDATE of tile `ev.tile`: the first notice on the management ring that has not reached it does (R396). -/
def execWatchMapUpdate (s : State) : Result :=
  let u := s.ev.tile
  .next <|
    match s.unseen u with
    | none => s
    | some i =>
      match s.mring[i]? with
      | none => s
      | some n =>
        let ring := s.mring.set i { n with seen := n.seen ||| BitVec.ofNat 128 (2 ^ u.toNat) }
        let r := settleMap ring s.map
        { s with mring := r.1, map := r.2 }.noticeAt u n

/-- Whether a tile has a strike 24 h old whose lapse is not yet on the management ring (R403). -/
def State.strikeOld (s : State) (t : BitVec 7) : Bool :=
  ((s.map.read t).strikes.any fun a => a + watchDay ≤ s.refClk) && !(s.mring.any fun n => n.kind = 5 && n.subject = t)

/-- STRIKE_LAPSE of tile `ev.tile`: the lapse of its old strikes goes to every map (R396, R403). -/
def execStrikeLapse (s : State) : Result := .next (if s.strikeOld s.ev.tile then s.notice s.ev.tile 5 s.ev.tile else s)

/-! ## Self-test and appeal (R402) -/

/-- Whether a fenced tile's self-test has run its time. -/
def State.tested (s : State) (t : BitVec 7) : Bool :=
  (s.mapAt t t).fenced && !(s.trellisAt t).barred && (match (s.trellisAt t).selfTest with | some b => b + watchTBIST ≤ s.refClk | none => false)

/-- SELF_TEST_COMPLETE of tile `ev.tile`, which passes with `ev.flag`: it appeals, or it is refused and stays fenced until package reset. -/
def execSelfTestComplete (s : State) : Result :=
  let t := s.ev.tile
  let x := s.trellisAt t
  .next <|
    if !s.tested t then s
    else if !s.ev.flag then (s.setTrellis t { x with selfTest := none, barred := true }).watchRecord t 6 15 0
    else if 2 ≤ (s.mapAt t t).strikes.length then (s.setTrellis t { x with selfTest := none, barred := true }).watchRecord t 7 15 0
    else ({ s with out := s.out ++ [Out.appeal t] }.dropAdmits t).setTrellis t { x with selfTest := none, probation := some s.refClk }

/-- ADMISSION_RECEIVE at tile `ev.tile`: flit number `ev.id`. -/
def execAdmissionReceive (s : State) : Result :=
  let v := s.ev.tile
  .next <| s.ringTake v 4 s.ev.id fun f s =>
    match dirTo v f.subject with
    | some d => if (s.vote v d).linkFenced && s.onProbation f.subject then (s.admitHeld v f.subject f.sender).admitCheck v d else s
    | none => s

/-- READMISSION_NOTICE_RECEIVE at tile `ev.tile`: flit number `ev.id`; a voter opens its link. -/
def execReadmissionNoticeReceive (s : State) : Result :=
  let v := s.ev.tile
  .next <| s.ringTake v 5 s.ev.id fun f s =>
    match dirTo v f.subject with
    | some d => if (s.vote v d).linkFenced then s.reopen v d else s
    | none => s

/-- Whether the notice of a tile's readmission is on the management ring: its probation has reached quorum (R402). -/
def State.readmitted (s : State) (t : BitVec 7) : Bool := s.mring.any fun n => n.kind = 2 && n.subject = t

/-- Whether a probation has run its time without a quorum. -/
def State.probationOver (s : State) (t : BitVec 7) : Bool :=
  (s.mapAt t t).fenced && !s.readmitted t && (match (s.trellisAt t).probation with | some b => b + watchTPROB ≤ s.refClk | none => false)

/-- PROBATION_TIMEOUT of tile `ev.tile`: the appeal has failed, and the tile may appeal again from its self-test. -/
def execProbationTimeout (s : State) : Result :=
  let t := s.ev.tile
  let x := s.trellisAt t
  .next (if s.probationOver t then ((s.dropAdmits t).setTrellis t { x with probation := none, selfTest := some s.refClk }).watchRecord t 8 15 0 else s)

end Sys2Proof.Machine
end

