-- ==== Sys2Proof/Machine/Power.lean ====
section
/-!
DEFINITION. Errors of memories and soft repair (R380, R381, R405, R406), temperature, throttles and trips (R408 to R411), the power page
(R412), boot (R413, R414), attestation (R415) and dumps (R416).
-/
namespace Sys2Proof.Machine

/-! ## Repair (R405, R406) -/

/-- CORRECTED_ERROR in the row at `ev.addr`: eight within 24 h schedule its soft repair. -/
def execCorrectedError (s : State) : Result :=
  let row : BitVec 45 := s.ev.addr.setWidth 45
  let old := match s.rows.find? fun r => r.row = row with | some r => r.times | none => []
  let times := (old.filter fun a => s.refClk < a + watchDay) ++ [s.refClk]
  let s := { s with rows := s.rows.filter fun r => r.row ≠ row }
  .next (if 8 ≤ times.length then s.startRepair row else { s with rows := s.rows ++ [⟨row, times⟩] })

/-- Whether the requester of a held access still waits for it, so that its own step performs it when its turn has come. -/
def State.keyLive (s : State) (k : HeldAcc) : Bool :=
  let walked := fun (t : BitVec 7) (unit : BitVec 3) (id : Nat) => s.walks.any fun w => w.tile = t && w.unit = unit && w.cmd = id
  match k with
  | .write .. => false
  | .unpin _ => false
  | .req t id p =>
    let c := s.coreAt t
    !walked t 6 id && c.reqs.any fun r =>
      r.id = id && r.progress = p && r.result.isNone &&
        (match r.kind with | .pop _ => !r.waiting | .kvapp _ => c.kvRuns | _ => true)
  | .entry t ctx seq => ((s.coreAt t).ctx ctx).released.any fun e => e.seq = seq
  | .cmd t e id p =>
    let c := s.coreAt t
    c.enginesRun && !walked t (4 + e.setWidth 3) id && (c.queue e).any fun k => k.id = id && k.progress = p && (!k.done || k.pin.isSome)
  | .walk id => s.walks.any fun w => w.id = id && w.token.isNone
  | .tile t => bindState (s.bind t) = 2 && !(s.coreAt t).bound
  | .outside n => s.inputs.any fun x => x.ev.args.ticket = n

/-- The first access that a channel holds performs when it is a write or an unpin, which no requester waits for, and goes when its requester has
gone. -/
def State.heldTurn (s : State) (k : HeldAcc) : State :=
  let t := s.leaveHeld k
  match k with
  | .write ctl pa bs => if s.stalls pa.toNat then { t with stalled := t.stalled ++ [k] } else t.writeStep ctl pa.toNat bs
  | .unpin pa => if s.stalls pa.toNat then { t with stalled := t.stalled ++ [k] } else t.unpinStep pa.toNat
  | _ => if s.keyLive k then s else t

/-- Whether QUIESCE_END has something to do: the time has passed, and no requester's own step is to come first. -/
def State.quiesceDue (s : State) (q : Quiesce) : Bool :=
  decide (q.until_ ≤ s.refClk) && (match q.held with | k :: _ => !s.keyLive k | [] => true)

/-- QUIESCE_END of quiesce number `ev.id`, when its time has passed: the held accesses perform one by one in arrival order; then the row's repair is
recorded for a hard one, and the next repair of the stack begins (R405, R406). -/
def execQuiesceEnd (s : State) : Result :=
  .next <|
    match s.quiesces[s.ev.id]? with
    | none => s
    | some q =>
      if !s.quiesceDue q then s
      else
        match q.held with
        | k :: _ => s.heldTurn k
        | [] =>
          let s := { s with
            quiesces := s.quiesces.eraseIdx s.ev.id
            repairs := if s.repairs.contains q.row then s.repairs else s.repairs ++ [q.row]
            softDone := s.softDone ++ [q.row] }
          match s.repairQ.find? fun r => stackOf r = q.stack with
          | some r => { s with repairQ := s.repairQ.erase r }.startRepair r
          | none => s

/-- The line that an error names: by `ev.port` a scalar, predicate, branch, counter, vector, mask, tile, mark-set, descriptor or accumulator line, or
a bundle (R380). -/
def lineOf (sort : Nat) (ctx : BitVec 2) (n : Nat) : Option PLine :=
  match sort with
  | 0 => some (.reg ctx (.s (BitVec.ofNat 6 n)))
  | 1 => some (.reg ctx (.p (BitVec.ofNat 6 n)))
  | 2 => some (.reg ctx (.b (BitVec.ofNat 2 n)))
  | 3 => some (.reg ctx (.dc (BitVec.ofNat 3 n)))
  | 4 => some (.reg 0 (.v (BitVec.ofNat 5 n)))
  | 5 => some (.reg 0 (.lm (BitVec.ofNat 3 n)))
  | 6 => some (.tile (BitVec.ofNat 2 (n / 64)) (BitVec.ofNat 6 n))
  | 7 => some (.reg 0 (.ms (BitVec.ofNat 4 n)))
  | 8 => some (.reg 0 (.d (BitVec.ofNat 4 n)))
  | 9 => some (.acc (BitVec.ofNat 2 (n / 128)) (BitVec.ofNat 7 n))
  | 12 => some (.bundle (BitVec.ofNat 13 n))
  | _ => none

/-- A FIFO with the error in its line `n`. -/
def Fifo.spoil (f : Fifo) (n : Nat) : Fifo := { f with held := f.held.modify n fun l => { l with bad := true } }

/-- A core with an uncorrectable error in a line: 10 and 11 name the lines that the FIFOs hold. -/
def Core.spoil (c : Core) (sort : Nat) (ctx : BitVec 2) (n : Nat) : Core :=
  match sort, lineOf sort ctx n with
  | 10, _ => { c with fa := c.fa.spoil n }
  | 11, _ => { c with fb := c.fb.spoil n }
  | _, some l => if c.linePoison.contains l then c else { c with linePoison := c.linePoison ++ [l] }
  | _, none => c

/-- UNCORRECTABLE_ERROR, by `ev.count`: 0 in the device granule at `ev.addr`; 1 in the scratchpad line at `ev.addr` of tile
`ev.tile`; 2 in line `ev.id` of the sort `ev.port`, of context `ev.ctx`, of that tile's registers, accumulators, FIFOs or instruction store; 3 in
the duplicate set of context `ev.ctx`. -/
def execUncorrectableError (s : State) : Result :=
  let c := s.coreAt s.ev.tile
  let a := s.ev.addr.toNat
  .next <|
    match s.ev.count with
    | 0 =>
      let g := a % 2 ^ 45 / 64 * 64
      s.poisonGranule g
    | 1 =>
      let l := a % 0x200000 / 64 * 64
      s.setCoreAt s.ev.tile { c with spadPoison := (c.spadPoison.filter fun p => p.1 ≠ l) ++ [(l, 0)] }
    | 2 => s.setCoreAt s.ev.tile (c.spoil s.ev.port.toNat s.ev.ctx s.ev.id)
    | _ => s.setCoreAt s.ev.tile { c with dupPoison := c.dupPoison ||| BitVec.ofNat 3 (2 ^ min s.ev.ctx.toNat 2) }

/-! ## Boot (R413, R414) -/

def flashBytes (a n : Nat) : List Byte := (List.range n).map fun i => Config.flash (a + i)
def flashLE (a n : Nat) : Nat := leNat (flashBytes a n)

/-- Whether the object of manifest entry `i` has its digest. -/
def entryOk (i : Nat) : Bool :=
  let e := 1296 + 80 * i
  Config.shake256 (flashBytes (flashLE e 8) (flashLE (e + 8) 8)) = ofBytes 512 (flashBytes (e + 16) 64)

/-- The checks of a boot in order, each with its stage and its reason: the first that fails halts it. -/
def bootChecks : List (Nat × BootFault × Bool) :=
  let n := flashLE 8 4
  let len := flashLE 12 4
  let key := flashBytes (1296 + 80 * n) 1793
  let digest := Config.shake256 (flashBytes 0 16 ++ flashBytes 1296 (80 * n))
  [(1, BootFault.magic, decide (flashLE 0 4 = 0x4D584C50)), (1, BootFault.entryCount, decide (5 ≤ n ∧ n ≤ 16)), (1, BootFault.signatureLength, decide (1 ≤ len ∧ len ≤ 1280)),
   (2, BootFault.key, decide (Config.shake256 key = Config.fusedKeyDigest)), (3, BootFault.signature, Config.falconVerify key (flashBytes 16 len) digest),
   (4, BootFault.counter, decide (Config.fusedCounter.toNat ≤ flashLE 4 4))] ++ (List.range n).map fun i => (5 + i, BootFault.digest, entryOk i)

/-- The measurement chain M0 to M5 (R414). -/
def measureChain : List (BitVec 512) :=
  (List.range 5).foldl (fun (l : List (BitVec 512)) i =>
    l ++ [Config.shake256 (bytesOf (l.getLastD 0) 64 ++ flashBytes (1296 + 80 * i + 16) 64)]) [Config.shake256 Config.romIdentity]

/-- The package after reset, with what a reset leaves: device memory, the repair list and what has left the machine. -/
def State.afterReset (s : State) : State :=
  { State.reset with
    inputs := s.inputs, ev := s.ev, choiceCtr := s.choiceCtr, freeCtr := s.freeCtr, mem := s.mem, poison := s.poison, repairs := s.repairs, out := s.out }

/-- The rows of the repair list that a boot replaces: two of each bank (R406). -/
def hardRows (l : List (BitVec 45)) : List (BitVec 45) :=
  l.foldl (fun (done : List (BitVec 45)) r => if (done.filter fun x => Config.rowBank x = Config.rowBank r).length < 2 then done ++ [r] else done) []

/-- A boot that passes: the fuse map in every watch map, fused-off tiles unavailable, the ports up, the hard repairs applied, and the heartbeats of the
first edge sent (R391). -/
def State.booted (s : State) : State :=
  let s := { s with
    boot := .done
    chain := measureChain
    hardDone := (hardRows s.repairs).length
    map := Vector.ofFn fun i => ⟨Config.fusedQuad (quadOf (BitVec.ofNat 7 i.val)), false, false, []⟩
    binds := Vector.ofFn fun i => if Config.fusedQuad (quadOf (BitVec.ofNat 7 i.val)) then 5 else 0
    ports := Vector.ofFn fun i =>
      let l := Config.lanes (BitVec.ofNat 4 i.val)
      ⟨if i.val < 12 && l ≠ 0 then 2 else 0, if i.val < 12 then l else 0, 0, []⟩ }
  { s with flits := s.flits ++ (List.range 128).flatMap fun t => s.beats (BitVec.ofNat 7 t) 0 }

/-- Reset and boot; a failed check is reported on the management ring and on Ethernet port 0. -/
def State.bootUp (s : State) : State :=
  let s := s.afterReset
  match bootChecks.find? fun c => !c.2.2 with
  | some c => { s with boot := .halted c.1 c.2.1, out := s.out ++ [false, true].map fun e => Out.bootHalt e c.1 c.2.1 }
  | none => s.booted

/-- PACKAGE_RESET. DESIGN CHOICE: log 46. -/
def execPackageReset (s : State) : Result := .next s.bootUp

/-! ## Temperature (R408 to R411) -/

/-- LEVEL of a reading in units of 0.125 degrees, junction or case (R408). -/
def thsLevel (case_ : Bool) (temp : Int) : Nat :=
  let t := if case_ then temp + 80 else temp
  if 920 ≤ t then 3 else if 840 ≤ t then 2 else if 760 ≤ t then 1 else 0

/-- A sensor register after a conversion. -/
def thsWord (n : Nat) (x : BitVec 12) : BitVec 32 := BitVec.ofNat 32 (2 ^ 31 + thsLevel (n = 8) x.toInt * 2 ^ 26 + x.toNat)

/-- A register's reading in units of 0.125 degrees, and its LEVEL. -/
def thsTemp (w : BitVec 32) : Int := (w.extractLsb' 0 12).toInt
def thsLevelOf (w : BitVec 32) : Nat := field w 26 2

/-- The highest LEVEL of a die's junction sensors. -/
def junctionLevel (l : List (BitVec 32)) : Nat := (l.take 8).foldl (fun (m : Nat) w => max m (thsLevelOf w)) 0

/-- A record of a die about no tile. -/
def State.dieRecord (s : State) (d : BitVec 2) (kind : Nat) : State :=
  let r : Rec :=
    { kind := kind, cause := 0, who := 0, unit := 15, flags := 0, rolls := 0, asid := 0, ix := 0, addr := 0, detail := 0, sched := 0,
      orphans := [], teamno := 0, queue := 0 }
  s.postRecord d none r.bits

/-- A trip: every bound member is killed, every die has its record, and the dies are held in reset (R411). -/
def State.trip (s : State) : State :=
  let bound := ((List.range 128).map (BitVec.ofNat 7)).filter fun t => bindState (s.bind t) = 2 || bindState (s.bind t) = 3 || bindState (s.bind t) = 4
  let s := bound.foldl (fun (s : State) t =>
    let s := s.focus t
    s.killMember ⟨.fenced, 15, 0, 0⟩ 0 s.core.main.ix s.core.main.unprotFlag 0 4 0 false) s
  let s := [0#2, 1#2, 2#2, 3#2].foldl (fun (s : State) d => s.dieRecord d 11) s
  { s with tripped := true, boot := .inReset }

/-- Whether every sensor has a reading below 95 degrees. -/
def State.cool (s : State) : Bool := s.ths.toList.flatten.all fun w => w.getLsbD 31 && thsTemp w < 760

/-- THS_CONVERSION at die `ev.die`, one for each 10 us; the readings are free values. DEDUCED: log 61. -/
def execThsConversion (s : State) : Result :=
  let d := s.ev.die
  .next <|
    if s.refClk / 1000 ≤ s.convDone.read d then s
    else
      let old := junctionLevel (s.ths.read d)
      let l := (List.range 9).map fun n => thsWord n ((Config.freeWord (s.freeCtr + n)).setWidth 12)
      let s := { s with
        ths := s.ths.write d l
        freeCtr := s.freeCtr + 9
        convDone := s.convDone.write d (s.convDone.read d + 1)
        throttled := if 2 ≤ junctionLevel l then s.throttled.write d true else s.throttled }
      let s := if old = 0 && 1 ≤ junctionLevel l then s.dieRecord d 10 else s
      if s.tripped then (if s.cool then s.bootUp else s)
      else if junctionLevel l = 3 || thsLevelOf (l.getD 8 0) = 3 then s.trip
      else s

/-- The clock of a die after a step of its throttle (R409). -/
def throttled (mhz : Nat) (on : Bool) (l : List (BitVec 32)) : Nat × Bool :=
  let js := l.take 8
  if on && js.any fun w => 824 ≤ thsTemp w then (max 650 (mhz - 100), true)
  else if l.all fun w => thsTemp w < 800 then (min 1300 (mhz + 100), false) else (mhz, false)

/-- THROTTLE_STEP of die `ev.die`, one for each 10 us. -/
def execThrottleStep (s : State) : Result :=
  let d := s.ev.die
  let (m, on) := throttled (s.mhz.read d) (s.throttled.read d) (s.ths.read d)
  .next <|
    if s.refClk / 1000 ≤ s.stepDone.read d then s
    else { s with mhz := s.mhz.write d m, throttled := s.throttled.write d on, stepDone := s.stepDone.write d (s.stepDone.read d + 1) }

/-! ## The power page (R412) -/

/-- TARGET as the page shows it: 0 while any sensor reads LEVEL 1 or higher, else what firmware set, which is 0 or lies from 600 to 1,800. DESIGN
CHOICE: log 115. -/
def State.pageTarget (s : State) : Nat :=
  if (s.ths.toList.flatten.any fun w => 1 ≤ thsLevelOf w) || s.powerTarget.toNat < 600 then 0 else min 1800 s.powerTarget.toNat

/-- The 16 bytes that an update writes: TARGET, NOW, a free value, and STAMP. -/
def State.pageBytes (s : State) : List Byte := leBytes 4 s.pageTarget ++ leBytes 4 (Config.freeWord s.freeCtr).toNat ++ leBytes 8 s.refClk

/-- Where the power page lies: at ARG of the record at the head of queue 63, while that queue is open (R333). DESIGN CHOICE: log 115. -/
def State.powerPage (s : State) : PaRes :=
  if !s.queueOpen 63 then .none
  else match s.ringSlot 63 (s.headSeq 63) with
    | .ok rcd _ =>
      let va := s.homeRead (rcd + 16) 8
      if 48 < va % 64 then .none
      else match s.walkPa s.outsideKey (s.queueAsid 63) va with
        | .ok pa leaf => if (attrTrap leaf .store).isSome then .none else if s.homeHeld s.outsideKey pa then .held pa else .ok pa leaf
        | r => r
    | r => r

/-- POWER_PAGE_UPDATE, one for each 100 us: all 16 bytes in one home step, after the service core's earlier accesses (R263). An update that home
holds comes again in its turn. -/
def execPowerPageUpdate (s : State) : Result :=
  .next <|
    if s.ev.ticket = 0 && s.refClk / 10000 ≤ s.pageDone then s
    else
      let s := if s.ev.ticket = 0 then { s with pageDone := s.pageDone + 1 } else s
      if s.ctlPending 4 then s.ticketed.later .powerPageUpdate
      else
      match s.powerPage with
      | .ok pa _ => { s.outsideDone with freeCtr := s.freeCtr + 1 }.homeStep pa s.pageBytes
      | .held pa => s.again pa .powerPageUpdate
      | .none => s.outsideDone

/-! ## Attestation and dumps (R415, R416) -/

/-- Bytes 0 to 511 of the report. -/
def State.reportBytes (s : State) (nonce : BitVec 256) : List Byte :=
  let fuses := packElems 1 ((List.range 32).map fun q => if Config.fusedQuad (BitVec.ofNat 5 q) then 1 else 0)
  let stackMap := packElems 1 ((List.range 8).map fun k => if Config.stackPresent Config.pkgId (BitVec.ofNat 3 k) then 1 else 0)
  layOut 512 0 [(0, bytesOf nonce 32), (32, bytesOf Config.serial 8), (40, leBytes 1 Config.pkgId.toNat), (41, leBytes 1 Config.podId.toNat),
    (42, leBytes 4 fuses), (46, leBytes 1 stackMap), (47, (List.range 12).map fun p => (s.ports.read (BitVec.ofNat 4 p)).lanes.setWidth 8),
    (60, leBytes 4 s.hardDone), (64, (s.chain.map fun m => bytesOf m 64).flatten)]

/-- ATTESTATION_REQUEST with the nonce in `ev.value`. -/
def execAttestationRequest (s : State) : Result :=
  let r := s.reportBytes (s.ev.value.setWidth 256)
  let sig := Config.falconSign (Config.shake256 r)
  .next (if s.boot = .done then s.respond (.report (r ++ leBytes 2 sig.length ++ sig) sig) else s)

/-- The service core copies what is left of a die's dump buffer to the dump area, in blocks of 64 bytes, each once its access before has performed
(R263); with all copied, the buffer goes to the collector and is free (R416). DESIGN CHOICE: log 127. -/
def State.dumpCopy (s : State) (d : BitVec 2) (bs : List Byte) : List Nat → State
  | [] =>
    if s.ctlPending 4 then { s with dumps := s.dumps.write d { s.dumps.read d with copied := bs.length } }
    else { s.respond (.dump d bs) with dumps := s.dumps.write d ⟨false, 0, [], 0⟩ }
  | o :: l =>
    if s.ctlPending 4 then { s with dumps := s.dumps.write d { s.dumps.read d with copied := o } }
    else (s.homeWriteBy (some 4) (s.dumpArea.toNat + o) ((bs.drop o).take 64)).dumpCopy d bs l

/-- POST_FATAL_DUMP of die `ev.die`: the buffer, with the kill record and the bind record, goes to the dump area and to the collector. -/
def execPostFatalDump (s : State) : Result :=
  let d := s.ev.die
  let b := s.dumps.read d
  .next <|
    if b.busy then s.dumpCopy d b.bytes (((List.range ((b.bytes.length + 63) / 64)).map (64 * ·)).filter (b.copied ≤ ·))
    else s

end Sys2Proof.Machine
end

