-- ==== Sys2Proof/Machine/Hazards.lean ====
section
/-!
DEFINITION. Which registers an instruction reads and writes (R73), when its results are ready (R105, R140, R180, R184, R192, R216),
and the interlock (R74, R281).
-/
namespace Sys2Proof.Machine

/-! ## Registers of an operand; `s0`, `p0`, `lm0` and `ms0` do not count -/

def rs (i : BitVec 6) : List RegId := if i = 0 then [] else [.s i]
def rp (i : BitVec 6) : List RegId := if i = 0 then [] else [.p i]
def rlm (i : BitVec 3) : List RegId := if i = 0 then [] else [.lm i]
def rms (i : BitVec 4) : List RegId := if i = 0 then [] else [.ms i]
/-- Both predicates of pair `k`. -/
def rpair (k : BitVec 5) : List RegId := rp (k ++ 0#1) ++ rp (k ++ 1#1)
/-- The predicate of a TREE test. -/
def rtest (t : BitVec 7) : List RegId := rp (t.extractLsb' 1 6)
def allB : List RegId := [.b 0, .b 1, .b 2, .b 3]
/-- The destination of a masked instruction, whose inactive elements keep their bytes (R137). -/
def rvd (l : BitVec 3) (d : BitVec 5) : List RegId := if l = 0 then [] else [.v d]
/-- The predicate that a guard reads (R69). -/
def rguard (g : Guard) : List RegId := if g.idx.toNat < 48 then rp g.idx else []

/-- `s40` to `s61` and `p32` to `p47`, with the mode predicate (R128). -/
def relcWrites (pm : BitVec 6) : List RegId :=
  ((List.range 22).map fun i => RegId.s (BitVec.ofNat 6 (40 + i))) ++ ((List.range 16).map fun i => RegId.p (BitVec.ofNat 6 (32 + i))) ++
    (if 32 ≤ pm.toNat then [] else rp pm)

/-- What an inline-mode TEND writes (R129). -/
def tendWrites (pm : BitVec 6) : List RegId :=
  (((List.range 8).map fun i => RegId.s (BitVec.ofNat 6 (1 + i))) ++ ((List.range 4).map fun i => RegId.p (BitVec.ofNat 6 (1 + i))) ++
    relcWrites pm).dedup

/-- The guard of an instruction. -/
def guardRead : Instr → List RegId
  | .callr _ g _ => rguard g
  | .ret _ g _ => rguard g
  | .relc _ g _ _ => rguard g
  | .fjoin _ g _ _ => rguard g
  | .tend _ g => rguard g
  | .endMember _ g => rguard g
  | .loop _ g _ _ => rguard g
  | .loopx _ g _ _ => rguard g
  | .bsel _ g _ _ => rguard g
  | .chkpt _ g => rguard g
  | .yield _ g _ => rguard g
  | .trap _ g _ => rguard g
  | .brk _ g _ => rguard g
  | .br _ g _ => rguard g
  | .call _ g _ => rguard g
  | .add g _ _ _ => rguard g
  | .sub g _ _ _ => rguard g
  | .mul g _ _ _ => rguard g
  | .mulh g _ _ _ => rguard g
  | .mulhz g _ _ _ => rguard g
  | .div g _ _ _ => rguard g
  | .divz g _ _ _ => rguard g
  | .rem g _ _ _ => rguard g
  | .remz g _ _ _ => rguard g
  | .and g _ _ _ => rguard g
  | .andn g _ _ _ => rguard g
  | .or g _ _ _ => rguard g
  | .xor g _ _ _ => rguard g
  | .shl g _ _ _ => rguard g
  | .shli g _ _ _ => rguard g
  | .shr g _ _ _ => rguard g
  | .shri g _ _ _ => rguard g
  | .sar g _ _ _ => rguard g
  | .sari g _ _ _ => rguard g
  | .rotr g _ _ _ => rguard g
  | .rotrImm g _ _ _ => rguard g
  | .min g _ _ _ => rguard g
  | .minz g _ _ _ => rguard g
  | .max g _ _ _ => rguard g
  | .maxz g _ _ _ => rguard g
  | .clz g _ _ => rguard g
  | .ctz g _ _ => rguard g
  | .popc g _ _ => rguard g
  | .bfx g _ _ _ => rguard g
  | .bfxz g _ _ _ => rguard g
  | .bfi g _ _ _ => rguard g
  | .sel g _ _ _ => rguard g
  | .addi g _ _ _ => rguard g
  | .andi g _ _ _ => rguard g
  | .ori g _ _ _ => rguard g
  | .xori g _ _ _ => rguard g
  | .lea g _ _ _ => rguard g
  | .movi g _ _ => rguard g
  | .movhi g _ _ => rguard g
  | .cmpEq g _ _ _ _ => rguard g
  | .cmpiEq g _ _ _ _ => rguard g
  | .cmpNe g _ _ _ _ => rguard g
  | .cmpiNe g _ _ _ _ => rguard g
  | .cmpLt g _ _ _ _ => rguard g
  | .cmpiLt g _ _ _ _ => rguard g
  | .cmpLe g _ _ _ _ => rguard g
  | .cmpiLe g _ _ _ _ => rguard g
  | .cmpGt g _ _ _ _ => rguard g
  | .cmpiGt g _ _ _ _ => rguard g
  | .cmpGe g _ _ _ _ => rguard g
  | .cmpiGe g _ _ _ _ => rguard g
  | .cmpLo g _ _ _ _ => rguard g
  | .cmpiLo g _ _ _ _ => rguard g
  | .cmpLs g _ _ _ _ => rguard g
  | .cmpiLs g _ _ _ _ => rguard g
  | .cmpHi g _ _ _ _ => rguard g
  | .cmpiHi g _ _ _ _ => rguard g
  | .cmpHs g _ _ _ _ => rguard g
  | .cmpiHs g _ _ _ _ => rguard g
  | .pand g _ _ _ => rguard g
  | .pandn g _ _ _ => rguard g
  | .por g _ _ _ => rguard g
  | .pxor g _ _ _ => rguard g
  | .setb g _ _ => rguard g
  | .setefImm g _ => rguard g
  | .setefReg g _ => rguard g
  | .mfs g _ _ => rguard g
  | .mts g _ _ => rguard g
  | .schk g _ _ => rguard g
  | .schkPred g _ _ => rguard g
  | .lds g _ _ _ _ _ => rguard g
  | .sts g _ _ _ _ => rguard g
  | .ldg g _ _ _ _ _ => rguard g
  | .stg g _ _ _ _ => rguard g
  | .faddH g _ _ _ => rguard g
  | .fsubH g _ _ _ => rguard g
  | .faddF g _ _ _ => rguard g
  | .fsubF g _ _ _ => rguard g
  | .faddD g _ _ _ => rguard g
  | .fsubD g _ _ _ => rguard g
  | .fmulH g _ _ _ => rguard g
  | .ffmaH g _ _ _ => rguard g
  | .fmulF g _ _ _ => rguard g
  | .ffmaF g _ _ _ => rguard g
  | .fmulD g _ _ _ => rguard g
  | .ffmaD g _ _ _ => rguard g
  | .fminH g _ _ _ => rguard g
  | .fmaxH g _ _ _ => rguard g
  | .fminF g _ _ _ => rguard g
  | .fmaxF g _ _ _ => rguard g
  | .fminD g _ _ _ => rguard g
  | .fmaxD g _ _ _ => rguard g
  | .fcmpH g _ _ _ _ _ => rguard g
  | .fcmpF g _ _ _ _ _ => rguard g
  | .fcmpD g _ _ _ _ _ => rguard g
  | .fcvt g _ _ _ _ => rguard g
  | .waitdc g _ _ => rguard g
  | .waitm g _ => rguard g
  | .waitany g _ => rguard g
  | .ffrm g _ _ => rguard g
  | .mclr g _ => rguard g
  | .mclrSet g _ => rguard g
  | .cfence g _ _ => rguard g
  | .atomAdd g _ _ _ _ => rguard g
  | .atomMin g _ _ _ _ => rguard g
  | .atomMax g _ _ _ _ => rguard g
  | .atomMinz g _ _ _ _ => rguard g
  | .atomMaxz g _ _ _ _ => rguard g
  | .atomAnd g _ _ _ _ => rguard g
  | .atomOr g _ _ _ _ => rguard g
  | .atomXor g _ _ _ _ => rguard g
  | .atomXchg g _ _ _ _ => rguard g
  | .atomCas g _ _ _ _ => rguard g
  | .propose g _ _ _ _ => rguard g
  | .ocread g _ _ _ _ => rguard g
  | .ocrecycle g _ _ _ _ => rguard g
  | .bara g _ _ => rguard g
  | .barw g _ _ _ => rguard g
  | .bar g _ _ _ => rguard g
  | .popw g _ _ => rguard g
  | .popwB g _ _ => rguard g
  | .pushw g _ _ => rguard g
  | .pushwC g _ _ => rguard g
  | .qpush g _ _ _ => rguard g
  | .trigger g => rguard g
  | .wstat g _ _ => rguard g
  | .digq g _ _ _ => rguard g
  | .digb g _ _ _ => rguard g
  | .digrs g _ _ _ => rguard g
  | .kvapp g _ _ _ => rguard g
  | .vadd g _ _ _ _ => rguard g
  | .vaddS g _ _ _ _ => rguard g
  | .vsub g _ _ _ _ => rguard g
  | .vsubS g _ _ _ _ => rguard g
  | .vmul g _ _ _ _ => rguard g
  | .vmulS g _ _ _ _ => rguard g
  | .vfma g _ _ _ _ => rguard g
  | .vfms g _ _ _ _ => rguard g
  | .vmin g _ _ _ _ => rguard g
  | .vmax g _ _ _ _ => rguard g
  | .vabs g _ _ _ _ => rguard g
  | .vneg g _ _ _ _ => rguard g
  | .vrcp g _ _ _ => rguard g
  | .vrsq g _ _ _ => rguard g
  | .vexp2 g _ _ _ => rguard g
  | .vlog2 g _ _ _ => rguard g
  | .vand g _ _ _ _ => rguard g
  | .vor g _ _ _ _ => rguard g
  | .vxor g _ _ _ _ => rguard g
  | .vshl g _ _ _ _ => rguard g
  | .vshr g _ _ _ _ => rguard g
  | .vsar g _ _ _ _ => rguard g
  | .vcmp g _ _ _ _ _ => rguard g
  | .vsel g _ _ _ _ => rguard g
  | .vcvt g _ _ _ _ => rguard g
  | .vcvtBits g _ _ _ => rguard g
  | .vqntT8 g _ _ _ _ => rguard g
  | .vqntT6 g _ _ _ _ => rguard g
  | .vsclT8 g _ _ => rguard g
  | .vsclT6 g _ _ => rguard g
  | .vredadd g _ _ _ => rguard g
  | .vredaddS g _ _ _ => rguard g
  | .vredmax g _ _ _ => rguard g
  | .vredmin g _ _ _ => rguard g
  | .vscan g _ _ _ => rguard g
  | .vscanX g _ _ _ => rguard g
  | .vbcast g _ _ _ _ => rguard g
  | .vext g _ _ _ => rguard g
  | .vins g _ _ _ => rguard g
  | .vperm g _ _ _ _ => rguard g
  | .vslide g _ _ _ _ => rguard g
  | .vhash g _ _ _ _ => rguard g
  | .viota g _ _ _ _ => rguard g
  | .lmand g _ _ _ => rguard g
  | .lmandn g _ _ _ => rguard g
  | .lmor g _ _ _ => rguard g
  | .lmxor g _ _ _ => rguard g
  | .lmnot g _ _ => rguard g
  | .lmcnt g _ _ _ => rguard g
  | .lmff g _ _ _ => rguard g
  | .twr g _ _ _ => rguard g
  | .trdc g _ _ _ _ => rguard g
  | .trdr g _ _ _ _ => rguard g
  | .tzero g _ _ => rguard g
  | .vchk g _ _ _ => rguard g
  | .vchkLm g _ _ => rguard g
  | .vskb g _ _ _ => rguard g
  | .vld g _ _ _ _ _ => rguard g
  | .vst g _ _ _ _ _ => rguard g
  | .vldg g _ _ _ _ => rguard g
  | .vstg g _ _ _ _ => rguard g
  | .vgath g _ _ _ _ => rguard g
  | .vgathG g _ _ _ _ => rguard g
  | .vscat g _ _ _ _ => rguard g
  | .vscatG g _ _ _ _ => rguard g
  | .vatom g _ _ _ _ => rguard g
  | .mma g _ _ _ _ => rguard g
  | .mmaZ g _ _ _ _ => rguard g
  | .mmas g _ _ _ _ => rguard g
  | .mmasZ g _ _ _ _ => rguard g
  | .mzero g _ _ => rguard g
  | .mpop g _ _ _ _ _ => rguard g
  | .mpush g _ _ _ _ => rguard g
  | .mret g _ => rguard g
  | .mfmt g _ _ => rguard g
  | .mflush g _ _ => rguard g
  | .mflushPc g _ _ _ => rguard g
  | .mstat g _ => rguard g
  | .mstatC g _ => rguard g
  | .dld g _ _ => rguard g
  | .dset g _ _ _ => rguard g
  | .dsetAdd g _ _ _ => rguard g
  | .msetw g _ _ => rguard g
  | .cpy g _ _ _ _ _ _ => rguard g
  | .cpym g _ _ _ _ => rguard g
  | .cpyq g _ _ _ _ _ _ => rguard g
  | .cpyx g _ _ _ _ _ => rguard g
  | .gath g _ _ _ _ _ => rguard g
  | .feed g _ _ _ _ _ _ => rguard g
  | .drain g _ _ _ _ _ => rguard g
  | .lsend g _ _ _ => rguard g
  | .lrecv g _ _ _ => rguard g
  | .lrxadd g _ _ _ _ => rguard g
  | _ => []

/-- The registers that an instruction counts as reading, besides its guard's predicate (R73). VREDADD, VREDMAX, VREDMIN and VSCAN with LM not 0
count as reading `vd` (R137). DESIGN CHOICE: log 114. -/
def operandReads : Instr → List RegId
  | .callr _ _ a => rs a
  | .ret _ _ a => rs a
  | .relc _ _ _ _ => rs 61 ++ rs 62
  | .fjoin _ _ _ _ => rs 62
  | .loop _ _ k _ => [.d k]
  | .loopx _ _ a _ => rs a
  | .bsel _ _ a _ => rs a ++ allB
  | .tree _ a b c d => rtest a ++ rtest b ++ rtest c ++ rtest d ++ allB
  | .add _ _ a b => rs a ++ rs b
  | .sub _ _ a b => rs a ++ rs b
  | .mul _ _ a b => rs a ++ rs b
  | .mulh _ _ a b => rs a ++ rs b
  | .mulhz _ _ a b => rs a ++ rs b
  | .div _ _ a b => rs a ++ rs b
  | .divz _ _ a b => rs a ++ rs b
  | .rem _ _ a b => rs a ++ rs b
  | .remz _ _ a b => rs a ++ rs b
  | .and _ _ a b => rs a ++ rs b
  | .andn _ _ a b => rs a ++ rs b
  | .or _ _ a b => rs a ++ rs b
  | .xor _ _ a b => rs a ++ rs b
  | .shl _ _ a b => rs a ++ rs b
  | .shli _ _ a _ => rs a
  | .shr _ _ a b => rs a ++ rs b
  | .shri _ _ a _ => rs a
  | .sar _ _ a b => rs a ++ rs b
  | .sari _ _ a _ => rs a
  | .rotr _ _ a b => rs a ++ rs b
  | .rotrImm _ _ a _ => rs a
  | .min _ _ a b => rs a ++ rs b
  | .minz _ _ a b => rs a ++ rs b
  | .max _ _ a b => rs a ++ rs b
  | .maxz _ _ a b => rs a ++ rs b
  | .clz _ _ a => rs a
  | .ctz _ _ a => rs a
  | .popc _ _ a => rs a
  | .bfx _ _ a b => rs a ++ rs b
  | .bfxz _ _ a b => rs a ++ rs b
  | .bfi _ d a b => rs d ++ rs a ++ rs b
  | .sel _ _ a b => rs a ++ rs b
  | .addi _ _ a _ => rs a
  | .andi _ _ a _ => rs a
  | .ori _ _ a _ => rs a
  | .xori _ _ a _ => rs a
  | .lea _ _ a _ => rs a
  | .movhi _ d _ => rs d
  | .cmpEq _ _ _ a b => rs a ++ rs b
  | .cmpiEq _ _ _ a _ => rs a
  | .cmpNe _ _ _ a b => rs a ++ rs b
  | .cmpiNe _ _ _ a _ => rs a
  | .cmpLt _ _ _ a b => rs a ++ rs b
  | .cmpiLt _ _ _ a _ => rs a
  | .cmpLe _ _ _ a b => rs a ++ rs b
  | .cmpiLe _ _ _ a _ => rs a
  | .cmpGt _ _ _ a b => rs a ++ rs b
  | .cmpiGt _ _ _ a _ => rs a
  | .cmpGe _ _ _ a b => rs a ++ rs b
  | .cmpiGe _ _ _ a _ => rs a
  | .cmpLo _ _ _ a b => rs a ++ rs b
  | .cmpiLo _ _ _ a _ => rs a
  | .cmpLs _ _ _ a b => rs a ++ rs b
  | .cmpiLs _ _ _ a _ => rs a
  | .cmpHi _ _ _ a b => rs a ++ rs b
  | .cmpiHi _ _ _ a _ => rs a
  | .cmpHs _ _ _ a b => rs a ++ rs b
  | .cmpiHs _ _ _ a _ => rs a
  | .pand _ _ a b => rp a ++ rp b
  | .pandn _ _ a b => rp a ++ rp b
  | .por _ _ a b => rp a ++ rp b
  | .pxor _ _ a b => rp a ++ rp b
  | .setefReg _ a => rs a
  | .mts _ a _ => rs a
  | .schk _ a b => rs a ++ rs b
  | .schkPred _ a b => rp a ++ rp b
  | .lds _ _ a _ _ _ => rs a
  | .sts _ d a _ _ => rs d ++ rs a
  | .ldg _ _ a _ _ _ => rs a
  | .stg _ d a _ _ => rs d ++ rs a
  | .faddH _ _ a b => rs a ++ rs b
  | .fsubH _ _ a b => rs a ++ rs b
  | .faddF _ _ a b => rs a ++ rs b
  | .fsubF _ _ a b => rs a ++ rs b
  | .faddD _ _ a b => rs a ++ rs b
  | .fsubD _ _ a b => rs a ++ rs b
  | .fmulH _ _ a b => rs a ++ rs b
  | .ffmaH _ d a b => rs d ++ rs a ++ rs b
  | .fmulF _ _ a b => rs a ++ rs b
  | .ffmaF _ d a b => rs d ++ rs a ++ rs b
  | .fmulD _ _ a b => rs a ++ rs b
  | .ffmaD _ d a b => rs d ++ rs a ++ rs b
  | .fminH _ _ a b => rs a ++ rs b
  | .fmaxH _ _ a b => rs a ++ rs b
  | .fminF _ _ a b => rs a ++ rs b
  | .fmaxF _ _ a b => rs a ++ rs b
  | .fminD _ _ a b => rs a ++ rs b
  | .fmaxD _ _ a b => rs a ++ rs b
  | .fcmpH _ _ _ _ a b => rs (a.setWidth 6) ++ rs (b.setWidth 6)
  | .fcmpF _ _ _ _ a b => rs (a.setWidth 6) ++ rs (b.setWidth 6)
  | .fcmpD _ _ _ _ a b => rs (a.setWidth 6) ++ rs (b.setWidth 6)
  | .fcvt _ _ a _ _ => rs a
  | .waitdc _ c _ => [.dc c]
  | .waitany _ j => rms j
  | .ffrm _ _ j => rms j
  | .mclrSet _ j => rms j
  | .atomAdd _ d a _ _ => rs d ++ rs a
  | .atomMin _ d a _ _ => rs d ++ rs a
  | .atomMax _ d a _ _ => rs d ++ rs a
  | .atomMinz _ d a _ _ => rs d ++ rs a
  | .atomMaxz _ d a _ _ => rs d ++ rs a
  | .atomAnd _ d a _ _ => rs d ++ rs a
  | .atomOr _ d a _ _ => rs d ++ rs a
  | .atomXor _ d a _ _ => rs d ++ rs a
  | .atomXchg _ d a _ _ => rs d ++ rs a
  | .atomCas _ d a _ _ => rs d ++ rs (d + 1) ++ rs a
  | .propose _ d a _ _ => rs d ++ rs (d + 1) ++ rs a
  | .ocread _ d a _ _ => rs d ++ rs (d + 1) ++ rs a
  | .ocrecycle _ d a _ _ => rs d ++ rs (d + 1) ++ rs a
  | .popw _ _ a => rs a
  | .popwB _ _ a => rs a
  | .pushw _ d a => rs d ++ rs a
  | .pushwC _ d a => rs d ++ rs a
  | .qpush _ _ a _ => rs a
  | .wstat _ _ a => rs a
  | .digq _ d a _ => rs d ++ rs a
  | .digb _ t a _ => rs t ++ rs a
  | .digrs _ _ a _ => rs a
  | .kvapp _ _ a _ => rs a
  | .vadd _ d a b l => [.v a] ++ [.v b] ++ rlm l ++ rvd l d
  | .vaddS _ d a b l => [.v a] ++ [.v b] ++ rlm l ++ rvd l d
  | .vsub _ d a b l => [.v a] ++ [.v b] ++ rlm l ++ rvd l d
  | .vsubS _ d a b l => [.v a] ++ [.v b] ++ rlm l ++ rvd l d
  | .vmul _ d a b l => [.v a] ++ [.v b] ++ rlm l ++ rvd l d
  | .vmulS _ d a b l => [.v a] ++ [.v b] ++ rlm l ++ rvd l d
  | .vfma _ d a b l => [.v d] ++ [.v a] ++ [.v b] ++ rlm l
  | .vfms _ d a b l => [.v d] ++ [.v a] ++ [.v b] ++ rlm l
  | .vmin _ d a b l => [.v a] ++ [.v b] ++ rlm l ++ rvd l d
  | .vmax _ d a b l => [.v a] ++ [.v b] ++ rlm l ++ rvd l d
  | .vabs _ d a l _ => [.v a] ++ rlm l ++ rvd l d
  | .vneg _ d a l _ => [.v a] ++ rlm l ++ rvd l d
  | .vrcp _ d a l => [.v a] ++ rlm l ++ rvd l d
  | .vrsq _ d a l => [.v a] ++ rlm l ++ rvd l d
  | .vexp2 _ d a l => [.v a] ++ rlm l ++ rvd l d
  | .vlog2 _ d a l => [.v a] ++ rlm l ++ rvd l d
  | .vand _ d a b l => [.v a] ++ [.v b] ++ rlm l ++ rvd l d
  | .vor _ d a b l => [.v a] ++ [.v b] ++ rlm l ++ rvd l d
  | .vxor _ d a b l => [.v a] ++ [.v b] ++ rlm l ++ rvd l d
  | .vshl _ d a b l => [.v a] ++ [.v b] ++ rlm l ++ rvd l d
  | .vshr _ d a b l => [.v a] ++ [.v b] ++ rlm l ++ rvd l d
  | .vsar _ d a b l => [.v a] ++ [.v b] ++ rlm l ++ rvd l d
  | .vcmp _ _ _ a b l => [.v a] ++ [.v b] ++ rlm l
  | .vsel _ _ a b l => [.v a] ++ [.v b] ++ rlm l
  | .vcvt _ d a _ _ => [.v a] ++ [.v d]
  | .vcvtBits _ _ a _ => [.v a]
  | .vqntT8 _ d a b _ => [.v a] ++ [.v b] ++ [.v d]
  | .vqntT6 _ d a b _ => [.v a] ++ [.v b] ++ [.v d]
  | .vsclT8 _ _ a => [.v a]
  | .vsclT6 _ _ a => [.v a]
  | .vredadd _ d a l => [.v a] ++ rlm l ++ rvd l d
  | .vredaddS _ d a l => [.v a] ++ rlm l ++ rvd l d
  | .vredmax _ d a l => [.v a] ++ rlm l ++ rvd l d
  | .vredmin _ d a l => [.v a] ++ rlm l ++ rvd l d
  | .vscan _ d a l => [.v a] ++ rlm l ++ rvd l d
  | .vscanX _ d a l => [.v a] ++ rlm l ++ rvd l d
  | .vbcast _ d _ s l => rs s ++ rlm l ++ rvd l d
  | .vext _ _ a _ => [.v a]
  | .vins _ d _ s => rs s ++ [.v d]
  | .vperm _ d a b l => [.v a] ++ [.v b] ++ rlm l ++ rvd l d
  | .vslide _ d a s l => [.v a] ++ rs s ++ rlm l ++ rvd l d
  | .vhash _ d a b l => [.v a] ++ [.v b] ++ rlm l ++ rvd l d
  | .viota _ d _ s l => rs s ++ rlm l ++ rvd l d
  | .lmand _ _ a b => rlm a ++ rlm b
  | .lmandn _ _ a b => rlm a ++ rlm b
  | .lmor _ _ a b => rlm a ++ rlm b
  | .lmxor _ _ a b => rlm a ++ rlm b
  | .lmnot _ _ a => rlm a
  | .lmcnt _ _ a _ => rlm a
  | .lmff _ _ a _ => rlm a
  | .twr _ v _ _ => [.v v]
  | .trdc _ _ t _ _ => [.t t]
  | .trdr _ _ t _ _ => [.t t]
  | .vchk _ a b l => [.v a] ++ [.v b] ++ rlm l
  | .vchkLm _ a b => rlm a ++ rlm b
  | .vskb _ _ a b => [.v a] ++ [.v b]
  | .vld _ _ a _ _ _ => rs a
  | .vst _ v a k _ _ => [.v v] ++ rs a ++ rlm k
  | .vldg _ _ a _ _ => rs a
  | .vstg _ v a k _ => [.v v] ++ rs a ++ rlm k
  | .vgath _ v x a k => [.v v] ++ [.v x] ++ rs a ++ rlm (k.setWidth 3)
  | .vgathG _ v x a k => [.v v] ++ [.v x] ++ rs a ++ rlm (k.setWidth 3)
  | .vscat _ v x a k => [.v v] ++ [.v x] ++ rs a ++ rlm (k.setWidth 3)
  | .vscatG _ v x a k => [.v v] ++ [.v x] ++ rs a ++ rlm (k.setWidth 3)
  | .vatom _ v x a _ => [.v v] ++ [.v x] ++ rs a
  | .mpush _ _ v _ _ => [.v v]
  | .mflushPc _ s _ _ => rs s
  | .dld _ _ a => rs a
  | .dset _ d a _ => rs a ++ [.d d]
  | .dsetAdd _ d a _ => rs a ++ [.d d]
  | .msetw _ _ a => rs a
  | .cpy _ d _ s _ _ _ => [.d d] ++ rms s
  | .cpym _ d _ s _ => [.d d] ++ rms s
  | .cpyq _ d _ s _ _ _ => [.d d] ++ [.d (d + 1)] ++ rms s
  | .cpyx _ d _ s _ _ => [.d d] ++ rms s
  | .gath _ d _ s _ _ => [.d d] ++ [.d (d + 1)] ++ rms s
  | .feed _ d _ s _ _ _ => [.d d] ++ rms s
  | .drain _ d _ s _ _ => [.d d] ++ rms s
  | .lsend _ a _ s => rs a ++ rms s
  | .lrecv _ a _ s => rs a ++ rms s
  | .lrxadd _ a _ s _ => rs a ++ rms s
  | _ => []

/-- All registers that an instruction counts as reading. -/
def regReads (i : Instr) : List RegId := guardRead i ++ operandReads i

/-- The registers that an instruction counts as writing; `inl` is the mode predicate of the inline record of its context (R73). -/
def regWrites (inl : Option (BitVec 6)) : Instr → List RegId
  | .tend _ _ => match inl with | some pm => tendWrites pm | none => []
  | .callr _ _ _ => rs 61
  | .relc _ _ p _ => relcWrites p
  | .fjoin _ _ d _ => rs d
  | .bsel _ _ a _ => rs a
  | .call _ _ _ => rs 61
  | .add _ d _ _ => rs d
  | .sub _ d _ _ => rs d
  | .mul _ d _ _ => rs d
  | .mulh _ d _ _ => rs d
  | .mulhz _ d _ _ => rs d
  | .div _ d _ _ => rs d
  | .divz _ d _ _ => rs d
  | .rem _ d _ _ => rs d
  | .remz _ d _ _ => rs d
  | .and _ d _ _ => rs d
  | .andn _ d _ _ => rs d
  | .or _ d _ _ => rs d
  | .xor _ d _ _ => rs d
  | .shl _ d _ _ => rs d
  | .shli _ d _ _ => rs d
  | .shr _ d _ _ => rs d
  | .shri _ d _ _ => rs d
  | .sar _ d _ _ => rs d
  | .sari _ d _ _ => rs d
  | .rotr _ d _ _ => rs d
  | .rotrImm _ d _ _ => rs d
  | .min _ d _ _ => rs d
  | .minz _ d _ _ => rs d
  | .max _ d _ _ => rs d
  | .maxz _ d _ _ => rs d
  | .clz _ d _ => rs d
  | .ctz _ d _ => rs d
  | .popc _ d _ => rs d
  | .bfx _ d _ _ => rs d
  | .bfxz _ d _ _ => rs d
  | .bfi _ d _ _ => rs d
  | .sel _ d _ _ => rs d
  | .addi _ d _ _ => rs d
  | .andi _ d _ _ => rs d
  | .ori _ d _ _ => rs d
  | .xori _ d _ _ => rs d
  | .lea _ d _ _ => rs d
  | .movi _ d _ => rs d
  | .movhi _ d _ => rs d
  | .cmpEq _ k _ _ _ => rpair k
  | .cmpiEq _ k _ _ _ => rpair k
  | .cmpNe _ k _ _ _ => rpair k
  | .cmpiNe _ k _ _ _ => rpair k
  | .cmpLt _ k _ _ _ => rpair k
  | .cmpiLt _ k _ _ _ => rpair k
  | .cmpLe _ k _ _ _ => rpair k
  | .cmpiLe _ k _ _ _ => rpair k
  | .cmpGt _ k _ _ _ => rpair k
  | .cmpiGt _ k _ _ _ => rpair k
  | .cmpGe _ k _ _ _ => rpair k
  | .cmpiGe _ k _ _ _ => rpair k
  | .cmpLo _ k _ _ _ => rpair k
  | .cmpiLo _ k _ _ _ => rpair k
  | .cmpLs _ k _ _ _ => rpair k
  | .cmpiLs _ k _ _ _ => rpair k
  | .cmpHi _ k _ _ _ => rpair k
  | .cmpiHi _ k _ _ _ => rpair k
  | .cmpHs _ k _ _ _ => rpair k
  | .cmpiHs _ k _ _ _ => rpair k
  | .pand _ d _ _ => rp d
  | .pandn _ d _ _ => rp d
  | .por _ d _ _ => rp d
  | .pxor _ d _ _ => rp d
  | .setb _ k _ => [.b (k.setWidth 2)]
  | .mfs _ a _ => rs a
  | .lds _ d _ _ _ _ => rs d
  | .ldg _ d _ q _ _ => rs d ++ [.dc (dcOf q)]
  | .faddH _ d _ _ => rs d
  | .fsubH _ d _ _ => rs d
  | .faddF _ d _ _ => rs d
  | .fsubF _ d _ _ => rs d
  | .faddD _ d _ _ => rs d
  | .fsubD _ d _ _ => rs d
  | .fmulH _ d _ _ => rs d
  | .ffmaH _ d _ _ => rs d
  | .fmulF _ d _ _ => rs d
  | .ffmaF _ d _ _ => rs d
  | .fmulD _ d _ _ => rs d
  | .ffmaD _ d _ _ => rs d
  | .fminH _ d _ _ => rs d
  | .fmaxH _ d _ _ => rs d
  | .fminF _ d _ _ => rs d
  | .fmaxF _ d _ _ => rs d
  | .fminD _ d _ _ => rs d
  | .fmaxD _ d _ _ => rs d
  | .fcmpH _ k _ _ _ _ => rpair k
  | .fcmpF _ k _ _ _ _ => rpair k
  | .fcmpD _ k _ _ _ _ => rpair k
  | .fcvt _ d _ _ _ => rs d
  | .ffrm _ d _ => rs d
  | .atomAdd _ d _ q _ => rs d ++ [.dc (dcOf q)]
  | .atomMin _ d _ q _ => rs d ++ [.dc (dcOf q)]
  | .atomMax _ d _ q _ => rs d ++ [.dc (dcOf q)]
  | .atomMinz _ d _ q _ => rs d ++ [.dc (dcOf q)]
  | .atomMaxz _ d _ q _ => rs d ++ [.dc (dcOf q)]
  | .atomAnd _ d _ q _ => rs d ++ [.dc (dcOf q)]
  | .atomOr _ d _ q _ => rs d ++ [.dc (dcOf q)]
  | .atomXor _ d _ q _ => rs d ++ [.dc (dcOf q)]
  | .atomXchg _ d _ q _ => rs d ++ [.dc (dcOf q)]
  | .atomCas _ d _ q _ => rs d ++ [.dc (dcOf q)]
  | .propose _ d _ q _ => rs d ++ rs (d + 1) ++ [.dc (dcOf q)]
  | .ocread _ d _ q _ => rs d ++ rs (d + 1) ++ [.dc (dcOf q)]
  | .ocrecycle _ d _ q _ => rs d ++ rs (d + 1) ++ [.dc (dcOf q)]
  | .barw _ p _ _ => rp p
  | .bar _ p _ _ => rp p
  | .popw _ d _ => rs d ++ rs (d + 1)
  | .popwB _ d _ => rs d ++ rs (d + 1)
  | .pushw _ d _ => rs (d + 1)
  | .pushwC _ d _ => rs (d + 1)
  | .qpush _ d _ _ => rs d
  | .wstat _ d _ => rs d ++ [.dc 0]
  | .digb _ _ _ k => rpair k ++ [.dc 0]
  | .digrs _ d _ _ => rs d ++ [.dc 0]
  | .kvapp _ d _ p => rs d ++ rp p
  | .vadd _ d _ _ _ => [.v d]
  | .vaddS _ d _ _ _ => [.v d]
  | .vsub _ d _ _ _ => [.v d]
  | .vsubS _ d _ _ _ => [.v d]
  | .vmul _ d _ _ _ => [.v d]
  | .vmulS _ d _ _ _ => [.v d]
  | .vfma _ d _ _ _ => [.v d]
  | .vfms _ d _ _ _ => [.v d]
  | .vmin _ d _ _ _ => [.v d]
  | .vmax _ d _ _ _ => [.v d]
  | .vabs _ d _ _ _ => [.v d]
  | .vneg _ d _ _ _ => [.v d]
  | .vrcp _ d _ _ => [.v d]
  | .vrsq _ d _ _ => [.v d]
  | .vexp2 _ d _ _ => [.v d]
  | .vlog2 _ d _ _ => [.v d]
  | .vand _ d _ _ _ => [.v d]
  | .vor _ d _ _ _ => [.v d]
  | .vxor _ d _ _ _ => [.v d]
  | .vshl _ d _ _ _ => [.v d]
  | .vshr _ d _ _ _ => [.v d]
  | .vsar _ d _ _ _ => [.v d]
  | .vcmp _ _ d _ _ _ => rlm d
  | .vsel _ d _ _ _ => [.v d]
  | .vcvt _ d _ _ _ => [.v d]
  | .vcvtBits _ d _ _ => [.v d]
  | .vqntT8 _ d _ _ _ => [.v d]
  | .vqntT6 _ d _ _ _ => [.v d]
  | .vsclT8 _ d _ => [.v d]
  | .vsclT6 _ d _ => [.v d]
  | .vredadd _ d _ _ => [.v d]
  | .vredaddS _ d _ _ => [.v d]
  | .vredmax _ d _ _ => [.v d]
  | .vredmin _ d _ _ => [.v d]
  | .vscan _ d _ _ => [.v d]
  | .vscanX _ d _ _ => [.v d]
  | .vbcast _ d _ _ _ => [.v d]
  | .vext _ _ _ s => rs s
  | .vins _ d _ _ => [.v d]
  | .vperm _ d _ _ _ => [.v d]
  | .vslide _ d _ _ _ => [.v d]
  | .vhash _ d _ _ _ => [.v d]
  | .viota _ d _ _ _ => [.v d]
  | .lmand _ d _ _ => rlm d
  | .lmandn _ d _ _ => rlm d
  | .lmor _ d _ _ => rlm d
  | .lmxor _ d _ _ => rlm d
  | .lmnot _ d _ => rlm d
  | .lmcnt _ _ _ s => rs s
  | .lmff _ _ _ s => rs s
  | .twr _ _ t _ => [.t t]
  | .trdc _ v _ _ _ => [.v v]
  | .trdr _ v _ _ _ => [.v v]
  | .tzero _ t _ => [.t t]
  | .vskb _ d _ _ => [.v d]
  | .vld _ v _ _ _ _ => [.v v]
  | .vldg _ v _ _ q => [.v v] ++ [.dc (dcOf q)]
  | .vgath _ v _ _ _ => [.v v]
  | .vgathG _ v _ _ _ => [.v v] ++ [.dc 0]
  | .vatom _ v _ _ _ => [.v v]
  | .mpop _ _ v _ _ _ => [.v v]
  | .mstat _ d => rs d
  | .mstatC _ d => rs d
  | .dld _ d _ => [.d d]
  | .dset _ d _ _ => [.d d]
  | .dsetAdd _ d _ _ => [.d d]
  | .msetw _ j _ => rms j
  | _ => []

/-- FP32, BF16 or FP16. -/
def floatTag (t : BitVec 4) : Bool := t = 1 || t = 2 || t = 3

/-- Cycles from issue after which an instruction's results are ready; `tag` gives the tags of vector registers. -/
def latency (tag : BitVec 5 → BitVec 4) : Instr → Nat
  | .mul _ _ _ _ => 3
  | .mulh _ _ _ _ => 3
  | .mulhz _ _ _ _ => 3
  | .div _ _ _ _ => 36
  | .divz _ _ _ _ => 36
  | .rem _ _ _ _ => 36
  | .remz _ _ _ _ => 36
  | .mfs _ _ _ => 2
  | .lds _ _ _ _ _ _ => 3
  | .faddH _ _ _ _ => 4
  | .fsubH _ _ _ _ => 4
  | .faddF _ _ _ _ => 4
  | .fsubF _ _ _ _ => 4
  | .faddD _ _ _ _ => 6
  | .fsubD _ _ _ _ => 6
  | .fmulH _ _ _ _ => 4
  | .ffmaH _ _ _ _ => 4
  | .fmulF _ _ _ _ => 4
  | .ffmaF _ _ _ _ => 4
  | .fmulD _ _ _ _ => 6
  | .ffmaD _ _ _ _ => 6
  | .fminH _ _ _ _ => 4
  | .fmaxH _ _ _ _ => 4
  | .fminF _ _ _ _ => 4
  | .fmaxF _ _ _ _ => 4
  | .fminD _ _ _ _ => 6
  | .fmaxD _ _ _ _ => 6
  | .fcmpH _ _ _ _ _ _ => 4
  | .fcmpF _ _ _ _ _ _ => 4
  | .fcmpD _ _ _ _ _ _ => 6
  | .fcvt _ _ _ _ _ => 4
  | .vadd _ _ a _ _ => (if floatTag (tag a) then 4 else 2)
  | .vaddS _ _ a _ _ => (if floatTag (tag a) then 4 else 2)
  | .vsub _ _ a _ _ => (if floatTag (tag a) then 4 else 2)
  | .vsubS _ _ a _ _ => (if floatTag (tag a) then 4 else 2)
  | .vmul _ _ _ _ _ => 4
  | .vmulS _ _ _ _ _ => 4
  | .vfma _ _ _ _ _ => 4
  | .vfms _ _ _ _ _ => 4
  | .vmin _ _ a _ _ => (if floatTag (tag a) then 4 else 2)
  | .vmax _ _ a _ _ => (if floatTag (tag a) then 4 else 2)
  | .vabs _ _ _ _ _ => 2
  | .vneg _ _ _ _ _ => 2
  | .vrcp _ _ _ _ => 8
  | .vrsq _ _ _ _ => 8
  | .vexp2 _ _ _ _ => 8
  | .vlog2 _ _ _ _ => 8
  | .vand _ _ _ _ _ => 2
  | .vor _ _ _ _ _ => 2
  | .vxor _ _ _ _ _ => 2
  | .vshl _ _ _ _ _ => 2
  | .vshr _ _ _ _ _ => 2
  | .vsar _ _ _ _ _ => 2
  | .vcmp _ _ _ _ _ _ => 2
  | .vsel _ _ _ _ _ => 2
  | .vcvt _ _ _ _ _ => 4
  | .vcvtBits _ _ _ _ => 2
  | .vqntT8 _ _ _ _ _ => 4
  | .vqntT6 _ _ _ _ _ => 4
  | .vsclT8 _ _ _ => 4
  | .vsclT6 _ _ _ => 4
  | .vredadd _ _ _ _ => 8
  | .vredaddS _ _ _ _ => 8
  | .vredmax _ _ _ _ => 8
  | .vredmin _ _ _ _ => 8
  | .vscan _ _ _ _ => 12
  | .vscanX _ _ _ _ => 12
  | .vbcast _ _ _ _ _ => 2
  | .vext _ _ _ _ => 3
  | .vins _ _ _ _ => 2
  | .vperm _ _ _ _ _ => 4
  | .vslide _ _ _ _ _ => 4
  | .vhash _ _ _ _ _ => 4
  | .viota _ _ _ _ _ => 2
  | .lmand _ _ _ _ => 2
  | .lmandn _ _ _ _ => 2
  | .lmor _ _ _ _ => 2
  | .lmxor _ _ _ _ => 2
  | .lmnot _ _ _ => 2
  | .lmcnt _ _ _ _ => 3
  | .lmff _ _ _ _ => 3
  | .twr _ _ _ _ => 2
  | .trdc _ _ _ _ _ => 4
  | .trdr _ _ _ _ _ => 2
  | .tzero _ _ _ => 2
  | .vskb _ _ _ _ => 8
  | .vld _ _ _ _ _ _ => 4
  | .vgath _ _ _ _ _ => 6
  | .mpop _ _ _ _ _ _ => 6
  | .mstat _ _ => 2
  | .mstatC _ _ => 2
  | .dld _ _ _ => 4
  | .dset _ _ _ _ => 2
  | .dsetAdd _ _ _ _ => 2
  | .msetw _ _ _ => 2
  | _ => 1

/-- Whether an instruction uses the divider. -/
def usesDivider : Instr → Bool
  | .div _ _ _ _ => true
  | .divz _ _ _ _ => true
  | .rem _ _ _ _ => true
  | .remz _ _ _ _ => true
  | _ => false

/-- Whether an instruction has its effect on its destination whatever its guard: SEL and the `.x` compares (R69, R110, R113). -/
def effectAlways : Instr → Bool
  | .sel _ _ _ _ => true
  | .cmpEq _ _ x _ _ => x = 1
  | .cmpiEq _ _ x _ _ => x = 1
  | .cmpNe _ _ x _ _ => x = 1
  | .cmpiNe _ _ x _ _ => x = 1
  | .cmpLt _ _ x _ _ => x = 1
  | .cmpiLt _ _ x _ _ => x = 1
  | .cmpLe _ _ x _ _ => x = 1
  | .cmpiLe _ _ x _ _ => x = 1
  | .cmpGt _ _ x _ _ => x = 1
  | .cmpiGt _ _ x _ _ => x = 1
  | .cmpGe _ _ x _ _ => x = 1
  | .cmpiGe _ _ x _ _ => x = 1
  | .cmpLo _ _ x _ _ => x = 1
  | .cmpiLo _ _ x _ _ => x = 1
  | .cmpLs _ _ x _ _ => x = 1
  | .cmpiLs _ _ x _ _ => x = 1
  | .cmpHi _ _ x _ _ => x = 1
  | .cmpiHi _ _ x _ _ => x = 1
  | .cmpHs _ _ x _ _ => x = 1
  | .cmpiHs _ _ x _ _ => x = 1
  | .fcmpH _ _ x _ _ _ => x = 1
  | .fcmpF _ _ x _ _ _ => x = 1
  | .fcmpD _ _ x _ _ _ => x = 1
  | _ => false

/-- The guard of an instruction that has one. -/
def guardOfInstr : Instr → Guard
  | .nopb _ g => g
  | .callr _ g _ => g
  | .ret _ g _ => g
  | .relc _ g _ _ => g
  | .fjoin _ g _ _ => g
  | .tend _ g => g
  | .endMember _ g => g
  | .loop _ g _ _ => g
  | .loopx _ g _ _ => g
  | .bsel _ g _ _ => g
  | .chkpt _ g => g
  | .yield _ g _ => g
  | .trap _ g _ => g
  | .brk _ g _ => g
  | .br _ g _ => g
  | .call _ g _ => g
  | .add g _ _ _ => g
  | .sub g _ _ _ => g
  | .mul g _ _ _ => g
  | .mulh g _ _ _ => g
  | .mulhz g _ _ _ => g
  | .div g _ _ _ => g
  | .divz g _ _ _ => g
  | .rem g _ _ _ => g
  | .remz g _ _ _ => g
  | .and g _ _ _ => g
  | .andn g _ _ _ => g
  | .or g _ _ _ => g
  | .xor g _ _ _ => g
  | .shl g _ _ _ => g
  | .shli g _ _ _ => g
  | .shr g _ _ _ => g
  | .shri g _ _ _ => g
  | .sar g _ _ _ => g
  | .sari g _ _ _ => g
  | .rotr g _ _ _ => g
  | .rotrImm g _ _ _ => g
  | .min g _ _ _ => g
  | .minz g _ _ _ => g
  | .max g _ _ _ => g
  | .maxz g _ _ _ => g
  | .clz g _ _ => g
  | .ctz g _ _ => g
  | .popc g _ _ => g
  | .bfx g _ _ _ => g
  | .bfxz g _ _ _ => g
  | .bfi g _ _ _ => g
  | .sel g _ _ _ => g
  | .addi g _ _ _ => g
  | .andi g _ _ _ => g
  | .ori g _ _ _ => g
  | .xori g _ _ _ => g
  | .lea g _ _ _ => g
  | .movi g _ _ => g
  | .movhi g _ _ => g
  | .cmpEq g _ _ _ _ => g
  | .cmpiEq g _ _ _ _ => g
  | .cmpNe g _ _ _ _ => g
  | .cmpiNe g _ _ _ _ => g
  | .cmpLt g _ _ _ _ => g
  | .cmpiLt g _ _ _ _ => g
  | .cmpLe g _ _ _ _ => g
  | .cmpiLe g _ _ _ _ => g
  | .cmpGt g _ _ _ _ => g
  | .cmpiGt g _ _ _ _ => g
  | .cmpGe g _ _ _ _ => g
  | .cmpiGe g _ _ _ _ => g
  | .cmpLo g _ _ _ _ => g
  | .cmpiLo g _ _ _ _ => g
  | .cmpLs g _ _ _ _ => g
  | .cmpiLs g _ _ _ _ => g
  | .cmpHi g _ _ _ _ => g
  | .cmpiHi g _ _ _ _ => g
  | .cmpHs g _ _ _ _ => g
  | .cmpiHs g _ _ _ _ => g
  | .pand g _ _ _ => g
  | .pandn g _ _ _ => g
  | .por g _ _ _ => g
  | .pxor g _ _ _ => g
  | .setb g _ _ => g
  | .setefImm g _ => g
  | .setefReg g _ => g
  | .mfs g _ _ => g
  | .mts g _ _ => g
  | .schk g _ _ => g
  | .schkPred g _ _ => g
  | .lds g _ _ _ _ _ => g
  | .sts g _ _ _ _ => g
  | .ldg g _ _ _ _ _ => g
  | .stg g _ _ _ _ => g
  | .faddH g _ _ _ => g
  | .fsubH g _ _ _ => g
  | .faddF g _ _ _ => g
  | .fsubF g _ _ _ => g
  | .faddD g _ _ _ => g
  | .fsubD g _ _ _ => g
  | .fmulH g _ _ _ => g
  | .ffmaH g _ _ _ => g
  | .fmulF g _ _ _ => g
  | .ffmaF g _ _ _ => g
  | .fmulD g _ _ _ => g
  | .ffmaD g _ _ _ => g
  | .fminH g _ _ _ => g
  | .fmaxH g _ _ _ => g
  | .fminF g _ _ _ => g
  | .fmaxF g _ _ _ => g
  | .fminD g _ _ _ => g
  | .fmaxD g _ _ _ => g
  | .fcmpH g _ _ _ _ _ => g
  | .fcmpF g _ _ _ _ _ => g
  | .fcmpD g _ _ _ _ _ => g
  | .fcvt g _ _ _ _ => g
  | .waitdc g _ _ => g
  | .waitm g _ => g
  | .waitany g _ => g
  | .ffrm g _ _ => g
  | .mclr g _ => g
  | .mclrSet g _ => g
  | .cfence g _ _ => g
  | .atomAdd g _ _ _ _ => g
  | .atomMin g _ _ _ _ => g
  | .atomMax g _ _ _ _ => g
  | .atomMinz g _ _ _ _ => g
  | .atomMaxz g _ _ _ _ => g
  | .atomAnd g _ _ _ _ => g
  | .atomOr g _ _ _ _ => g
  | .atomXor g _ _ _ _ => g
  | .atomXchg g _ _ _ _ => g
  | .atomCas g _ _ _ _ => g
  | .propose g _ _ _ _ => g
  | .ocread g _ _ _ _ => g
  | .ocrecycle g _ _ _ _ => g
  | .bara g _ _ => g
  | .barw g _ _ _ => g
  | .bar g _ _ _ => g
  | .popw g _ _ => g
  | .popwB g _ _ => g
  | .pushw g _ _ => g
  | .pushwC g _ _ => g
  | .qpush g _ _ _ => g
  | .trigger g => g
  | .wstat g _ _ => g
  | .digq g _ _ _ => g
  | .digb g _ _ _ => g
  | .digrs g _ _ _ => g
  | .kvapp g _ _ _ => g
  | .vadd g _ _ _ _ => g
  | .vaddS g _ _ _ _ => g
  | .vsub g _ _ _ _ => g
  | .vsubS g _ _ _ _ => g
  | .vmul g _ _ _ _ => g
  | .vmulS g _ _ _ _ => g
  | .vfma g _ _ _ _ => g
  | .vfms g _ _ _ _ => g
  | .vmin g _ _ _ _ => g
  | .vmax g _ _ _ _ => g
  | .vabs g _ _ _ _ => g
  | .vneg g _ _ _ _ => g
  | .vrcp g _ _ _ => g
  | .vrsq g _ _ _ => g
  | .vexp2 g _ _ _ => g
  | .vlog2 g _ _ _ => g
  | .vand g _ _ _ _ => g
  | .vor g _ _ _ _ => g
  | .vxor g _ _ _ _ => g
  | .vshl g _ _ _ _ => g
  | .vshr g _ _ _ _ => g
  | .vsar g _ _ _ _ => g
  | .vcmp g _ _ _ _ _ => g
  | .vsel g _ _ _ _ => g
  | .vcvt g _ _ _ _ => g
  | .vcvtBits g _ _ _ => g
  | .vqntT8 g _ _ _ _ => g
  | .vqntT6 g _ _ _ _ => g
  | .vsclT8 g _ _ => g
  | .vsclT6 g _ _ => g
  | .vredadd g _ _ _ => g
  | .vredaddS g _ _ _ => g
  | .vredmax g _ _ _ => g
  | .vredmin g _ _ _ => g
  | .vscan g _ _ _ => g
  | .vscanX g _ _ _ => g
  | .vbcast g _ _ _ _ => g
  | .vext g _ _ _ => g
  | .vins g _ _ _ => g
  | .vperm g _ _ _ _ => g
  | .vslide g _ _ _ _ => g
  | .vhash g _ _ _ _ => g
  | .viota g _ _ _ _ => g
  | .lmand g _ _ _ => g
  | .lmandn g _ _ _ => g
  | .lmor g _ _ _ => g
  | .lmxor g _ _ _ => g
  | .lmnot g _ _ => g
  | .lmcnt g _ _ _ => g
  | .lmff g _ _ _ => g
  | .twr g _ _ _ => g
  | .trdc g _ _ _ _ => g
  | .trdr g _ _ _ _ => g
  | .tzero g _ _ => g
  | .vchk g _ _ _ => g
  | .vchkLm g _ _ => g
  | .vskb g _ _ _ => g
  | .vld g _ _ _ _ _ => g
  | .vst g _ _ _ _ _ => g
  | .vldg g _ _ _ _ => g
  | .vstg g _ _ _ _ => g
  | .vgath g _ _ _ _ => g
  | .vgathG g _ _ _ _ => g
  | .vscat g _ _ _ _ => g
  | .vscatG g _ _ _ _ => g
  | .vatom g _ _ _ _ => g
  | .mma g _ _ _ _ => g
  | .mmaZ g _ _ _ _ => g
  | .mmas g _ _ _ _ => g
  | .mmasZ g _ _ _ _ => g
  | .mzero g _ _ => g
  | .mpop g _ _ _ _ _ => g
  | .mpush g _ _ _ _ => g
  | .mret g _ => g
  | .mfmt g _ _ => g
  | .mflush g _ _ => g
  | .mflushPc g _ _ _ => g
  | .mstat g _ => g
  | .mstatC g _ => g
  | .dld g _ _ => g
  | .dset g _ _ _ => g
  | .dsetAdd g _ _ _ => g
  | .msetw g _ _ => g
  | .cpy g _ _ _ _ _ _ => g
  | .cpym g _ _ _ _ => g
  | .cpyq g _ _ _ _ _ _ => g
  | .cpyx g _ _ _ _ _ => g
  | .gath g _ _ _ _ _ => g
  | .feed g _ _ _ _ _ _ => g
  | .drain g _ _ _ _ _ => g
  | .lsend g _ _ _ => g
  | .lrecv g _ _ _ => g
  | .lrxadd g _ _ _ _ => g
  | _ => .always

/-! ## Interlock (R74, R281) -/

/-- Whether a register is one that all contexts of a core share. -/
def RegId.shared : RegId → Bool
  | .s _ => false
  | .p _ => false
  | .b _ => false
  | .dc _ => false
  | _ => true

/-- The registers that the reply of a request writes. -/
def reqWrites (r : Req) : List RegId :=
  match r.kind with
  | .load _ _ => rs r.dst
  | .vload _ => [.v (r.dst.setWidth 5)]
  | .gather _ => [.v (r.dst.setWidth 5)]
  | .atom _ => rs r.dst
  | .vatom _ _ => [.v (r.dst.setWidth 5)]
  | .once _ => rs r.dst ++ rs (r.dst + 1)
  | .pop _ => rs r.dst ++ rs (r.dst + 1)
  | .push _ => rs (r.dst + 1)
  | .qpush _ => rs r.dst
  | .wstat => rs r.dst
  | .digb k => rpair k
  | .digrs _ => rs r.dst
  | .kvapp pd => rs r.dst ++ rp pd
  | .winLoad _ _ => rs r.dst
  | .winVLoad _ _ => [.v (r.dst.setWidth 5)]
  | _ => []

/-- Whether a write of register `r` by context `m` is one that an access by context `n` waits for. -/
def RegId.meets (r : RegId) (m n : BitVec 2) : Bool := r.shared || m = n

/-- Whether a register that context `n` reads or writes has a pending write. -/
def Core.pending (c : Core) (n : BitVec 2) (r : RegId) : Bool :=
  (c.busy.any fun b => b.reg = r && c.cyc.toNat < b.ready && r.meets b.ctx n) ||
    c.reqs.any fun q => !q.discard && r.meets q.ctx n && (reqWrites q).contains r

end Sys2Proof.Machine
end

