-- ==== Sys2Proof/Machine/Pick.lean ====
section
/-!
DEFINITION. The context that issues in a core cycle (R282).
-/
namespace Sys2Proof.Machine

/-- Whether context `n` was found ready in this cycle. -/
def Core.readyCtx (c : Core) (n : BitVec 2) : Bool := (c.ctx n).run = .running && (c.ctx n).ready

/-- Of the tails that a test marks, the one with larger W, tail 0 on a tie. -/
def Core.largerW (c : Core) (ok : BitVec 2 → Bool) : Option (BitVec 2) :=
  if ok 1 && (!ok 2 || c.tail1.w ≤ c.tail0.w) then some 1 else if ok 2 then some 2 else none

/-- `pick_context`. -/
def Core.pick (c : Core) : Option (BitVec 2) :=
  match c.largerW fun n => c.readyCtx n && decide (6 ≤ (c.ctx n).w) with
  | some n => some n
  | none => if c.readyCtx 0 then some 0 else c.largerW c.readyCtx

/-- A tail's count of ready cycles without issue. -/
def Core.waited (c : Core) (n : BitVec 2) (p : Option (BitVec 2)) : Core :=
  c.mapCtx n fun x => { x with w := if p = some n then 0 else if x.run = .running && x.ready then x.w + 1 else x.w }

/-- The choice of a cycle, with the counts it changes. -/
def Core.picks (c : Core) : Core :=
  let p := c.pick
  { (c.waited 1 p).waited 2 p with cur := { c.cur with picked := p } }

/-- PICK_CONTEXT of tile `ev.tile`, once the readiness of each context in the cycle stands in its context. -/
def execPickContext (s : State) : Result := .next ((s.focus s.ev.tile).mapCore Core.picks)

end Sys2Proof.Machine
end

