-- ==== Sys2Proof/Machine/ScalarFp.lean ====
section
/-!
DEFINITION. Scalar floating point of the S slot (R115 to R117).
-/
namespace Sys2Proof.Machine

/-- A rounded scalar result: `f` gives the bits and the flags for the rounding mode (R115, R62). -/
def State.writeF (s : State) (g : Guard) (d : BitVec 6) (f : State → RMode → Nat × BitVec 32) : Result :=
  s.guarded g fun s =>
    let (rm, s) := s.draw
    let (x, fl) := f s rm
    (s.setS d (BitVec.ofNat 64 x)).orFlags fl

/-- An unrounded scalar result (R115). -/
def State.writeFExact (s : State) (g : Guard) (d : BitVec 6) (f : State → Nat × BitVec 32) : Result :=
  s.guarded g fun s =>
    let (x, fl) := f s
    (s.setS d (BitVec.ofNat 64 x)).orFlags fl

/-- The value of register `i` in a format. -/
def State.freg (s : State) (f : Fmt) (i : BitVec 6) : FVal := f.ofReg (s.sreg i)

/-- The bits of register `i` in a format. -/
def State.fbits (s : State) (f : Fmt) (i : BitVec 6) : Nat := (s.sreg i).toNat % 2 ^ f.width

/-- FCMP of two scalar registers from `s0` to `s31` (R116). -/
def State.fcompare (s : State) (f : Fmt) (g : Guard) (k : BitVec 5) (x : BitVec 1) (c : BitVec 2) (a b : BitVec 5) : Result :=
  let (t, fl) := fcond c (s.freg f (a.setWidth 6)) (s.freg f (b.setWidth 6))
  s.orFlags (if s.guard g then fl else 0) |>.compare g k x t

/-- FADD.h (R115). -/
def execFaddH (g : Guard) (d a b : BitVec 6) (s : State) : Result :=
  s.writeF g d fun s rm => Fmt.finish fmtFP16 rm (FVal.add rm (s.freg fmtFP16 a) (s.freg fmtFP16 b))

/-- FSUB.h: sa - sb (R115). -/
def execFsubH (g : Guard) (d a b : BitVec 6) (s : State) : Result :=
  s.writeF g d fun s rm => Fmt.finish fmtFP16 rm (FVal.add rm (s.freg fmtFP16 a) (s.freg fmtFP16 b).negate)

/-- FMUL.h (R115). -/
def execFmulH (g : Guard) (d a b : BitVec 6) (s : State) : Result :=
  s.writeF g d fun s rm => Fmt.finish fmtFP16 rm (FVal.mul (s.freg fmtFP16 a) (s.freg fmtFP16 b))

/-- FFMA.h: sa × sb + sd, rounded once (R115). -/
def execFfmaH (g : Guard) (d a b : BitVec 6) (s : State) : Result :=
  s.writeF g d fun s rm => Fmt.finish fmtFP16 rm (FVal.fma rm (s.freg fmtFP16 a) (s.freg fmtFP16 b) (s.freg fmtFP16 d))

/-- FMIN.h (R50, R115). -/
def execFminH (g : Guard) (d a b : BitVec 6) (s : State) : Result :=
  s.writeFExact g d fun s => Fmt.minMax fmtFP16 false (s.fbits fmtFP16 a) (s.fbits fmtFP16 b)

/-- FMAX.h (R50, R115). -/
def execFmaxH (g : Guard) (d a b : BitVec 6) (s : State) : Result :=
  s.writeFExact g d fun s => Fmt.minMax fmtFP16 true (s.fbits fmtFP16 a) (s.fbits fmtFP16 b)

/-- FCMP.h (R116). -/
def execFcmpH (g : Guard) (k : BitVec 5) (x : BitVec 1) (c : BitVec 2) (a b : BitVec 5) (s : State) : Result :=
  s.fcompare fmtFP16 g k x c a b

/-- FADD.f (R115). -/
def execFaddF (g : Guard) (d a b : BitVec 6) (s : State) : Result :=
  s.writeF g d fun s rm => Fmt.finish fmtFP32 rm (FVal.add rm (s.freg fmtFP32 a) (s.freg fmtFP32 b))

/-- FSUB.f: sa - sb (R115). -/
def execFsubF (g : Guard) (d a b : BitVec 6) (s : State) : Result :=
  s.writeF g d fun s rm => Fmt.finish fmtFP32 rm (FVal.add rm (s.freg fmtFP32 a) (s.freg fmtFP32 b).negate)

/-- FMUL.f (R115). -/
def execFmulF (g : Guard) (d a b : BitVec 6) (s : State) : Result :=
  s.writeF g d fun s rm => Fmt.finish fmtFP32 rm (FVal.mul (s.freg fmtFP32 a) (s.freg fmtFP32 b))

/-- FFMA.f: sa × sb + sd, rounded once (R115). -/
def execFfmaF (g : Guard) (d a b : BitVec 6) (s : State) : Result :=
  s.writeF g d fun s rm => Fmt.finish fmtFP32 rm (FVal.fma rm (s.freg fmtFP32 a) (s.freg fmtFP32 b) (s.freg fmtFP32 d))

/-- FMIN.f (R50, R115). -/
def execFminF (g : Guard) (d a b : BitVec 6) (s : State) : Result :=
  s.writeFExact g d fun s => Fmt.minMax fmtFP32 false (s.fbits fmtFP32 a) (s.fbits fmtFP32 b)

/-- FMAX.f (R50, R115). -/
def execFmaxF (g : Guard) (d a b : BitVec 6) (s : State) : Result :=
  s.writeFExact g d fun s => Fmt.minMax fmtFP32 true (s.fbits fmtFP32 a) (s.fbits fmtFP32 b)

/-- FCMP.f (R116). -/
def execFcmpF (g : Guard) (k : BitVec 5) (x : BitVec 1) (c : BitVec 2) (a b : BitVec 5) (s : State) : Result :=
  s.fcompare fmtFP32 g k x c a b

/-- FADD.d (R115). -/
def execFaddD (g : Guard) (d a b : BitVec 6) (s : State) : Result :=
  s.writeF g d fun s rm => Fmt.finish fmtFP64 rm (FVal.add rm (s.freg fmtFP64 a) (s.freg fmtFP64 b))

/-- FSUB.d: sa - sb (R115). -/
def execFsubD (g : Guard) (d a b : BitVec 6) (s : State) : Result :=
  s.writeF g d fun s rm => Fmt.finish fmtFP64 rm (FVal.add rm (s.freg fmtFP64 a) (s.freg fmtFP64 b).negate)

/-- FMUL.d (R115). -/
def execFmulD (g : Guard) (d a b : BitVec 6) (s : State) : Result :=
  s.writeF g d fun s rm => Fmt.finish fmtFP64 rm (FVal.mul (s.freg fmtFP64 a) (s.freg fmtFP64 b))

/-- FFMA.d: sa × sb + sd, rounded once (R115). -/
def execFfmaD (g : Guard) (d a b : BitVec 6) (s : State) : Result :=
  s.writeF g d fun s rm => Fmt.finish fmtFP64 rm (FVal.fma rm (s.freg fmtFP64 a) (s.freg fmtFP64 b) (s.freg fmtFP64 d))

/-- FMIN.d (R50, R115). -/
def execFminD (g : Guard) (d a b : BitVec 6) (s : State) : Result :=
  s.writeFExact g d fun s => Fmt.minMax fmtFP64 false (s.fbits fmtFP64 a) (s.fbits fmtFP64 b)

/-- FMAX.d (R50, R115). -/
def execFmaxD (g : Guard) (d a b : BitVec 6) (s : State) : Result :=
  s.writeFExact g d fun s => Fmt.minMax fmtFP64 true (s.fbits fmtFP64 a) (s.fbits fmtFP64 b)

/-- FCMP.d (R116). -/
def execFcmpD (g : Guard) (k : BitVec 5) (x : BitVec 1) (c : BitVec 2) (a b : BitVec 5) (s : State) : Result :=
  s.fcompare fmtFP64 g k x c a b

/-- The result of FCVT (R64, R117): equal T8 or integer codes copy the value, a NaR with NRF (R45); an I32 widens by its sign. -/
def fcvtValue (src dst : CvtFmt) (rm : RMode) (x : Word) : Word × BitVec 32 :=
  if src = .t8 ∧ dst = .t8 then (x &&& 0xFF#64, flagIf (x &&& 0xFF#64 = 0x80#64) flagNR)
  else if src = .i32 ∧ dst = .u64 then (BitVec.ofInt 64 (intOf 32 true (x.toNat % 2 ^ 32)), 0)
  else dst.result rm (src.value x)

/-- FCVT (R117): it draws on the generator only when its row of R64 rounds (R62). -/
def execFcvt (g : Guard) (d a : BitVec 6) (c t : BitVec 3) (s : State) : Result :=
  s.guarded g fun s =>
    let src := cvtFmt c
    let dst := cvtFmt t
    let (rm, s) := if src.draws dst then s.draw else (.rne, s)
    let (x, fl) := fcvtValue src dst rm (s.sreg a)
    (s.setS d x).orFlags fl

end Sys2Proof.Machine
end

