-- ==== Sys2Proof/Machine/Dispatch.lean ====
section
/-!
DEFINITION. The dispatch of every instruction and event to its meaning.
-/
namespace Sys2Proof.Machine

def exec (i : Instr) (s : State) : Host.Outcome State Fault Refusal :=
  match i with
  | .nopb stop g => Sys2Proof.Machine.execNopb stop g s
  | .callr stop g a => Sys2Proof.Machine.execCallr stop g a s
  | .ret stop g a => Sys2Proof.Machine.execRet stop g a s
  | .relc stop g p o => Sys2Proof.Machine.execRelc stop g p o s
  | .fjoin stop g d t => Sys2Proof.Machine.execFjoin stop g d t s
  | .tend stop g => Sys2Proof.Machine.execTend stop g s
  | .endMember stop g => Sys2Proof.Machine.execEndMember stop g s
  | .loop stop g k i1 => Sys2Proof.Machine.execLoop stop g k i1 s
  | .loopx stop g a i1 => Sys2Proof.Machine.execLoopx stop g a i1 s
  | .bsel stop g a i1 => Sys2Proof.Machine.execBsel stop g a i1 s
  | .chkpt stop g => Sys2Proof.Machine.execChkpt stop g s
  | .yield stop g i1 => Sys2Proof.Machine.execYield stop g i1 s
  | .trap stop g c => Sys2Proof.Machine.execTrap stop g c s
  | .brk stop g c => Sys2Proof.Machine.execBrk stop g c s
  | .br stop g o => Sys2Proof.Machine.execBr stop g o s
  | .call stop g o => Sys2Proof.Machine.execCall stop g o s
  | .tree stop a b c d => Sys2Proof.Machine.execTree stop a b c d s
  | .add g d a b => Sys2Proof.Machine.execAdd g d a b s
  | .sub g d a b => Sys2Proof.Machine.execSub g d a b s
  | .mul g d a b => Sys2Proof.Machine.execMul g d a b s
  | .mulh g d a b => Sys2Proof.Machine.execMulh g d a b s
  | .mulhz g d a b => Sys2Proof.Machine.execMulhz g d a b s
  | .div g d a b => Sys2Proof.Machine.execDiv g d a b s
  | .divz g d a b => Sys2Proof.Machine.execDivz g d a b s
  | .rem g d a b => Sys2Proof.Machine.execRem g d a b s
  | .remz g d a b => Sys2Proof.Machine.execRemz g d a b s
  | .and g d a b => Sys2Proof.Machine.execAnd g d a b s
  | .andn g d a b => Sys2Proof.Machine.execAndn g d a b s
  | .or g d a b => Sys2Proof.Machine.execOr g d a b s
  | .xor g d a b => Sys2Proof.Machine.execXor g d a b s
  | .shl g d a b => Sys2Proof.Machine.execShl g d a b s
  | .shli g d a c => Sys2Proof.Machine.execShli g d a c s
  | .shr g d a b => Sys2Proof.Machine.execShr g d a b s
  | .shri g d a c => Sys2Proof.Machine.execShri g d a c s
  | .sar g d a b => Sys2Proof.Machine.execSar g d a b s
  | .sari g d a c => Sys2Proof.Machine.execSari g d a c s
  | .rotr g d a b => Sys2Proof.Machine.execRotr g d a b s
  | .rotrImm g d a c => Sys2Proof.Machine.execRotrImm g d a c s
  | .min g d a b => Sys2Proof.Machine.execMin g d a b s
  | .minz g d a b => Sys2Proof.Machine.execMinz g d a b s
  | .max g d a b => Sys2Proof.Machine.execMax g d a b s
  | .maxz g d a b => Sys2Proof.Machine.execMaxz g d a b s
  | .clz g d a => Sys2Proof.Machine.execClz g d a s
  | .ctz g d a => Sys2Proof.Machine.execCtz g d a s
  | .popc g d a => Sys2Proof.Machine.execPopc g d a s
  | .bfx g d a b => Sys2Proof.Machine.execBfx g d a b s
  | .bfxz g d a b => Sys2Proof.Machine.execBfxz g d a b s
  | .bfi g d a b => Sys2Proof.Machine.execBfi g d a b s
  | .sel g d a b => Sys2Proof.Machine.execSel g d a b s
  | .addi g d a i1 => Sys2Proof.Machine.execAddi g d a i1 s
  | .andi g d a i1 => Sys2Proof.Machine.execAndi g d a i1 s
  | .ori g d a i1 => Sys2Proof.Machine.execOri g d a i1 s
  | .xori g d a i1 => Sys2Proof.Machine.execXori g d a i1 s
  | .lea g d a i1 => Sys2Proof.Machine.execLea g d a i1 s
  | .movi g d i1 => Sys2Proof.Machine.execMovi g d i1 s
  | .movhi g d i1 => Sys2Proof.Machine.execMovhi g d i1 s
  | .cmpEq g k x a b => Sys2Proof.Machine.execCmpEq g k x a b s
  | .cmpiEq g k x a i1 => Sys2Proof.Machine.execCmpiEq g k x a i1 s
  | .cmpNe g k x a b => Sys2Proof.Machine.execCmpNe g k x a b s
  | .cmpiNe g k x a i1 => Sys2Proof.Machine.execCmpiNe g k x a i1 s
  | .cmpLt g k x a b => Sys2Proof.Machine.execCmpLt g k x a b s
  | .cmpiLt g k x a i1 => Sys2Proof.Machine.execCmpiLt g k x a i1 s
  | .cmpLe g k x a b => Sys2Proof.Machine.execCmpLe g k x a b s
  | .cmpiLe g k x a i1 => Sys2Proof.Machine.execCmpiLe g k x a i1 s
  | .cmpGt g k x a b => Sys2Proof.Machine.execCmpGt g k x a b s
  | .cmpiGt g k x a i1 => Sys2Proof.Machine.execCmpiGt g k x a i1 s
  | .cmpGe g k x a b => Sys2Proof.Machine.execCmpGe g k x a b s
  | .cmpiGe g k x a i1 => Sys2Proof.Machine.execCmpiGe g k x a i1 s
  | .cmpLo g k x a b => Sys2Proof.Machine.execCmpLo g k x a b s
  | .cmpiLo g k x a i1 => Sys2Proof.Machine.execCmpiLo g k x a i1 s
  | .cmpLs g k x a b => Sys2Proof.Machine.execCmpLs g k x a b s
  | .cmpiLs g k x a i1 => Sys2Proof.Machine.execCmpiLs g k x a i1 s
  | .cmpHi g k x a b => Sys2Proof.Machine.execCmpHi g k x a b s
  | .cmpiHi g k x a i1 => Sys2Proof.Machine.execCmpiHi g k x a i1 s
  | .cmpHs g k x a b => Sys2Proof.Machine.execCmpHs g k x a b s
  | .cmpiHs g k x a i1 => Sys2Proof.Machine.execCmpiHs g k x a i1 s
  | .pand g d a b => Sys2Proof.Machine.execPand g d a b s
  | .pandn g d a b => Sys2Proof.Machine.execPandn g d a b s
  | .por g d a b => Sys2Proof.Machine.execPor g d a b s
  | .pxor g d a b => Sys2Proof.Machine.execPxor g d a b s
  | .setb g k i1 => Sys2Proof.Machine.execSetb g k i1 s
  | .ximm t p => Sys2Proof.Machine.execXimm t p s
  | .setefImm g v => Sys2Proof.Machine.execSetefImm g v s
  | .setefReg g a => Sys2Proof.Machine.execSetefReg g a s
  | .mfs g a r => Sys2Proof.Machine.execMfs g a r s
  | .mts g a r => Sys2Proof.Machine.execMts g a r s
  | .schk g a b => Sys2Proof.Machine.execSchk g a b s
  | .schkPred g a b => Sys2Proof.Machine.execSchkPred g a b s
  | .lds g d a m z e => Sys2Proof.Machine.execLds g d a m z e s
  | .sts g d a m z => Sys2Proof.Machine.execSts g d a m z s
  | .ldg g d a q z e => Sys2Proof.Machine.execLdg g d a q z e s
  | .stg g d a q z => Sys2Proof.Machine.execStg g d a q z s
  | .faddH g d a b => Sys2Proof.Machine.execFaddH g d a b s
  | .fsubH g d a b => Sys2Proof.Machine.execFsubH g d a b s
  | .faddF g d a b => Sys2Proof.Machine.execFaddF g d a b s
  | .fsubF g d a b => Sys2Proof.Machine.execFsubF g d a b s
  | .faddD g d a b => Sys2Proof.Machine.execFaddD g d a b s
  | .fsubD g d a b => Sys2Proof.Machine.execFsubD g d a b s
  | .fmulH g d a b => Sys2Proof.Machine.execFmulH g d a b s
  | .ffmaH g d a b => Sys2Proof.Machine.execFfmaH g d a b s
  | .fmulF g d a b => Sys2Proof.Machine.execFmulF g d a b s
  | .ffmaF g d a b => Sys2Proof.Machine.execFfmaF g d a b s
  | .fmulD g d a b => Sys2Proof.Machine.execFmulD g d a b s
  | .ffmaD g d a b => Sys2Proof.Machine.execFfmaD g d a b s
  | .fminH g d a b => Sys2Proof.Machine.execFminH g d a b s
  | .fmaxH g d a b => Sys2Proof.Machine.execFmaxH g d a b s
  | .fminF g d a b => Sys2Proof.Machine.execFminF g d a b s
  | .fmaxF g d a b => Sys2Proof.Machine.execFmaxF g d a b s
  | .fminD g d a b => Sys2Proof.Machine.execFminD g d a b s
  | .fmaxD g d a b => Sys2Proof.Machine.execFmaxD g d a b s
  | .fcmpH g k x c a b => Sys2Proof.Machine.execFcmpH g k x c a b s
  | .fcmpF g k x c a b => Sys2Proof.Machine.execFcmpF g k x c a b s
  | .fcmpD g k x c a b => Sys2Proof.Machine.execFcmpD g k x c a b s
  | .fcvt g d a s1 t => Sys2Proof.Machine.execFcvt g d a s1 t s
  | .waitdc g c v => Sys2Proof.Machine.execWaitdc g c v s
  | .waitm g k => Sys2Proof.Machine.execWaitm g k s
  | .waitany g j => Sys2Proof.Machine.execWaitany g j s
  | .ffrm g d j => Sys2Proof.Machine.execFfrm g d j s
  | .mclr g k => Sys2Proof.Machine.execMclr g k s
  | .mclrSet g j => Sys2Proof.Machine.execMclrSet g j s
  | .cfence g m s1 => Sys2Proof.Machine.execCfence g m s1 s
  | .atomAdd g d a q s1 => Sys2Proof.Machine.execAtomAdd g d a q s1 s
  | .atomMin g d a q s1 => Sys2Proof.Machine.execAtomMin g d a q s1 s
  | .atomMax g d a q s1 => Sys2Proof.Machine.execAtomMax g d a q s1 s
  | .atomMinz g d a q s1 => Sys2Proof.Machine.execAtomMinz g d a q s1 s
  | .atomMaxz g d a q s1 => Sys2Proof.Machine.execAtomMaxz g d a q s1 s
  | .atomAnd g d a q s1 => Sys2Proof.Machine.execAtomAnd g d a q s1 s
  | .atomOr g d a q s1 => Sys2Proof.Machine.execAtomOr g d a q s1 s
  | .atomXor g d a q s1 => Sys2Proof.Machine.execAtomXor g d a q s1 s
  | .atomXchg g d a q s1 => Sys2Proof.Machine.execAtomXchg g d a q s1 s
  | .atomCas g d a q s1 => Sys2Proof.Machine.execAtomCas g d a q s1 s
  | .propose g d a q s1 => Sys2Proof.Machine.execPropose g d a q s1 s
  | .ocread g d a q s1 => Sys2Proof.Machine.execOcread g d a q s1 s
  | .ocrecycle g d a q s1 => Sys2Proof.Machine.execOcrecycle g d a q s1 s
  | .bara g i1 s1 => Sys2Proof.Machine.execBara g i1 s1 s
  | .barw g p i1 s1 => Sys2Proof.Machine.execBarw g p i1 s1 s
  | .bar g p i1 s1 => Sys2Proof.Machine.execBar g p i1 s1 s
  | .popw g d a => Sys2Proof.Machine.execPopw g d a s
  | .popwB g d a => Sys2Proof.Machine.execPopwB g d a s
  | .pushw g d a => Sys2Proof.Machine.execPushw g d a s
  | .pushwC g d a => Sys2Proof.Machine.execPushwC g d a s
  | .qpush g d a q => Sys2Proof.Machine.execQpush g d a q s
  | .trigger g => Sys2Proof.Machine.execTrigger g s
  | .wstat g d a => Sys2Proof.Machine.execWstat g d a s
  | .digq g d a c => Sys2Proof.Machine.execDigq g d a c s
  | .digb g t a k => Sys2Proof.Machine.execDigb g t a k s
  | .digrs g d a c => Sys2Proof.Machine.execDigrs g d a c s
  | .kvapp g d a p => Sys2Proof.Machine.execKvapp g d a p s
  | .vadd g d a b l => Sys2Proof.Machine.execVadd g d a b l s
  | .vaddS g d a b l => Sys2Proof.Machine.execVaddS g d a b l s
  | .vsub g d a b l => Sys2Proof.Machine.execVsub g d a b l s
  | .vsubS g d a b l => Sys2Proof.Machine.execVsubS g d a b l s
  | .vmul g d a b l => Sys2Proof.Machine.execVmul g d a b l s
  | .vmulS g d a b l => Sys2Proof.Machine.execVmulS g d a b l s
  | .vfma g d a b l => Sys2Proof.Machine.execVfma g d a b l s
  | .vfms g d a b l => Sys2Proof.Machine.execVfms g d a b l s
  | .vmin g d a b l => Sys2Proof.Machine.execVmin g d a b l s
  | .vmax g d a b l => Sys2Proof.Machine.execVmax g d a b l s
  | .vabs g d a l m => Sys2Proof.Machine.execVabs g d a l m s
  | .vneg g d a l m => Sys2Proof.Machine.execVneg g d a l m s
  | .vrcp g d a l => Sys2Proof.Machine.execVrcp g d a l s
  | .vrsq g d a l => Sys2Proof.Machine.execVrsq g d a l s
  | .vexp2 g d a l => Sys2Proof.Machine.execVexp2 g d a l s
  | .vlog2 g d a l => Sys2Proof.Machine.execVlog2 g d a l s
  | .vand g d a b l => Sys2Proof.Machine.execVand g d a b l s
  | .vor g d a b l => Sys2Proof.Machine.execVor g d a b l s
  | .vxor g d a b l => Sys2Proof.Machine.execVxor g d a b l s
  | .vshl g d a b l => Sys2Proof.Machine.execVshl g d a b l s
  | .vshr g d a b l => Sys2Proof.Machine.execVshr g d a b l s
  | .vsar g d a b l => Sys2Proof.Machine.execVsar g d a b l s
  | .vcmp g c d a b l => Sys2Proof.Machine.execVcmp g c d a b l s
  | .vsel g d a b l => Sys2Proof.Machine.execVsel g d a b l s
  | .vcvt g d a f p => Sys2Proof.Machine.execVcvt g d a f p s
  | .vcvtBits g d a f => Sys2Proof.Machine.execVcvtBits g d a f s
  | .vqntT8 g d a b p => Sys2Proof.Machine.execVqntT8 g d a b p s
  | .vqntT6 g d a b p => Sys2Proof.Machine.execVqntT6 g d a b p s
  | .vsclT8 g d a => Sys2Proof.Machine.execVsclT8 g d a s
  | .vsclT6 g d a => Sys2Proof.Machine.execVsclT6 g d a s
  | .vredadd g d a l => Sys2Proof.Machine.execVredadd g d a l s
  | .vredaddS g d a l => Sys2Proof.Machine.execVredaddS g d a l s
  | .vredmax g d a l => Sys2Proof.Machine.execVredmax g d a l s
  | .vredmin g d a l => Sys2Proof.Machine.execVredmin g d a l s
  | .vscan g d a l => Sys2Proof.Machine.execVscan g d a l s
  | .vscanX g d a l => Sys2Proof.Machine.execVscanX g d a l s
  | .vbcast g d f s1 l => Sys2Proof.Machine.execVbcast g d f s1 l s
  | .vext g i1 a s1 => Sys2Proof.Machine.execVext g i1 a s1 s
  | .vins g d i1 s1 => Sys2Proof.Machine.execVins g d i1 s1 s
  | .vperm g d a b l => Sys2Proof.Machine.execVperm g d a b l s
  | .vslide g d a s1 l => Sys2Proof.Machine.execVslide g d a s1 l s
  | .vhash g d a b l => Sys2Proof.Machine.execVhash g d a b l s
  | .viota g d f s1 l => Sys2Proof.Machine.execViota g d f s1 l s
  | .lmand g d a b => Sys2Proof.Machine.execLmand g d a b s
  | .lmandn g d a b => Sys2Proof.Machine.execLmandn g d a b s
  | .lmor g d a b => Sys2Proof.Machine.execLmor g d a b s
  | .lmxor g d a b => Sys2Proof.Machine.execLmxor g d a b s
  | .lmnot g d a => Sys2Proof.Machine.execLmnot g d a s
  | .lmcnt g w a s1 => Sys2Proof.Machine.execLmcnt g w a s1 s
  | .lmff g w a s1 => Sys2Proof.Machine.execLmff g w a s1 s
  | .twr g v t i1 => Sys2Proof.Machine.execTwr g v t i1 s
  | .trdc g v t i1 f => Sys2Proof.Machine.execTrdc g v t i1 f s
  | .trdr g v t i1 f => Sys2Proof.Machine.execTrdr g v t i1 f s
  | .tzero g t f => Sys2Proof.Machine.execTzero g t f s
  | .vchk g a b l => Sys2Proof.Machine.execVchk g a b l s
  | .vchkLm g a b => Sys2Proof.Machine.execVchkLm g a b s
  | .vskb g d a b => Sys2Proof.Machine.execVskb g d a b s
  | .vld g v a f m l => Sys2Proof.Machine.execVld g v a f m l s
  | .vst g v a k m l => Sys2Proof.Machine.execVst g v a k m l s
  | .vldg g v a f q => Sys2Proof.Machine.execVldg g v a f q s
  | .vstg g v a k q => Sys2Proof.Machine.execVstg g v a k q s
  | .vgath g v x a k => Sys2Proof.Machine.execVgath g v x a k s
  | .vgathG g v x a k => Sys2Proof.Machine.execVgathG g v x a k s
  | .vscat g v x a k => Sys2Proof.Machine.execVscat g v x a k s
  | .vscatG g v x a k => Sys2Proof.Machine.execVscatG g v x a k s
  | .vatom g v x a p => Sys2Proof.Machine.execVatom g v x a p s
  | .mma g c k a b => Sys2Proof.Machine.execMma g c k a b s
  | .mmaZ g c k a b => Sys2Proof.Machine.execMmaZ g c k a b s
  | .mmas g c k a b => Sys2Proof.Machine.execMmas g c k a b s
  | .mmasZ g c k a b => Sys2Proof.Machine.execMmasZ g c k a b s
  | .mzero g c t => Sys2Proof.Machine.execMzero g c t s
  | .mpop g c v r s1 w => Sys2Proof.Machine.execMpop g c v r s1 w s
  | .mpush g c v r s1 => Sys2Proof.Machine.execMpush g c v r s1 s
  | .mret g c => Sys2Proof.Machine.execMret g c s
  | .mfmt g c t => Sys2Proof.Machine.execMfmt g c t s
  | .mflush g b a => Sys2Proof.Machine.execMflush g b a s
  | .mflushPc g s1 b a => Sys2Proof.Machine.execMflushPc g s1 b a s
  | .mstat g d => Sys2Proof.Machine.execMstat g d s
  | .mstatC g d => Sys2Proof.Machine.execMstatC g d s
  | .dld g d a => Sys2Proof.Machine.execDld g d a s
  | .dset g d a f => Sys2Proof.Machine.execDset g d a f s
  | .dsetAdd g d a f => Sys2Proof.Machine.execDsetAdd g d a f s
  | .msetw g j a => Sys2Proof.Machine.execMsetw g j a s
  | .cpy g d m s1 e f l => Sys2Proof.Machine.execCpy g d m s1 e f l s
  | .cpym g d m s1 e => Sys2Proof.Machine.execCpym g d m s1 e s
  | .cpyq g d m s1 e f l => Sys2Proof.Machine.execCpyq g d m s1 e f l s
  | .cpyx g d m s1 e f => Sys2Proof.Machine.execCpyx g d m s1 e f s
  | .gath g d m s1 w p => Sys2Proof.Machine.execGath g d m s1 w p s
  | .feed g d m s1 e c f => Sys2Proof.Machine.execFeed g d m s1 e c f s
  | .drain g d m s1 a c => Sys2Proof.Machine.execDrain g d m s1 a c s
  | .lsend g a m s1 => Sys2Proof.Machine.execLsend g a m s1 s
  | .lrecv g a m s1 => Sys2Proof.Machine.execLrecv g a m s1 s
  | .lrxadd g a m s1 f => Sys2Proof.Machine.execLrxadd g a m s1 f s
  | .nopS => Sys2Proof.Machine.execNopS s
  | .nopD => Sys2Proof.Machine.execNopD s
  | .nopV => Sys2Proof.Machine.execNopV s
  | .nopM => Sys2Proof.Machine.execNopM s
  | .nopC => Sys2Proof.Machine.execNopC s
  | .pickContext => Sys2Proof.Machine.execPickContext s
  | .engineCommandStart => Sys2Proof.Machine.execEngineCommandStart s
  | .engineCommandComplete => Sys2Proof.Machine.execEngineCommandComplete s
  | .deviceReplyArrival => Sys2Proof.Machine.execDeviceReplyArrival s
  | .multicastArrival => Sys2Proof.Machine.execMulticastArrival s
  | .feedLineWrite => Sys2Proof.Machine.execFeedLineWrite s
  | .matrixKStep => Sys2Proof.Machine.execMatrixKStep s
  | .accumulatorCommit => Sys2Proof.Machine.execAccumulatorCommit s
  | .mAccCommit => Sys2Proof.Machine.execMAccCommit s
  | .mflushEffect => Sys2Proof.Machine.execMflushEffect s
  | .checkpoint => Sys2Proof.Machine.execCheckpoint s
  | .holdingEntryPerform => Sys2Proof.Machine.execHoldingEntryPerform s
  | .rollbackEvent => Sys2Proof.Machine.execRollbackEvent s
  | .rollbackRestore => Sys2Proof.Machine.execRollbackRestore s
  | .translationWalk => Sys2Proof.Machine.execTranslationWalk s
  | .xresolve => Sys2Proof.Machine.execXresolve s
  | .frcons => Sys2Proof.Machine.execFrcons s
  | .xinv => Sys2Proof.Machine.execXinv s
  | .xinvComplete => Sys2Proof.Machine.execXinvComplete s
  | .offer => Sys2Proof.Machine.execOffer s
  | .fitoffer => Sys2Proof.Machine.execFitoffer s
  | .returnHead => Sys2Proof.Machine.execReturnHead s
  | .skiphead => Sys2Proof.Machine.execSkiphead s
  | .ganggo => Sys2Proof.Machine.execGanggo s
  | .memberCreation => Sys2Proof.Machine.execMemberCreation s
  | .contextRestore => Sys2Proof.Machine.execContextRestore s
  | .killMember => Sys2Proof.Machine.execKillMember s
  | .bindRecordWrite => Sys2Proof.Machine.execBindRecordWrite s
  | .isflush => Sys2Proof.Machine.execIsflush s
  | .kvreclaim => Sys2Proof.Machine.execKvreclaim s
  | .kvtscfg => Sys2Proof.Machine.execKvtscfg s
  | .kvtscfgComplete => Sys2Proof.Machine.execKvtscfgComplete s
  | .registerWrite => Sys2Proof.Machine.execRegisterWrite s
  | .headPresent => Sys2Proof.Machine.execHeadPresent s
  | .headEligible => Sys2Proof.Machine.execHeadEligible s
  | .absentHeadTimeout => Sys2Proof.Machine.execAbsentHeadTimeout s
  | .qpushHomeStep => Sys2Proof.Machine.execQpushHomeStep s
  | .teamCompletion => Sys2Proof.Machine.execTeamCompletion s
  | .coreFree => Sys2Proof.Machine.execCoreFree s
  | .phaseOverrun => Sys2Proof.Machine.execPhaseOverrun s
  | .yieldDeadline => Sys2Proof.Machine.execYieldDeadline s
  | .waitPreemption => Sys2Proof.Machine.execWaitPreemption s
  | .contextSave => Sys2Proof.Machine.execContextSave s
  | .saveComplete => Sys2Proof.Machine.execSaveComplete s
  | .kvappExecute => Sys2Proof.Machine.execKvappExecute s
  | .atomHomeStep => Sys2Proof.Machine.execAtomHomeStep s
  | .onceCellHomeStep => Sys2Proof.Machine.execOnceCellHomeStep s
  | .workQueueHomeStep => Sys2Proof.Machine.execWorkQueueHomeStep s
  | .barrierPhaseComplete => Sys2Proof.Machine.execBarrierPhaseComplete s
  | .windowAccessArrival => Sys2Proof.Machine.execWindowAccessArrival s
  | .homeWriteStep => Sys2Proof.Machine.execHomeWriteStep s
  | .linkPair => Sys2Proof.Machine.execLinkPair s
  | .linkPortDown => Sys2Proof.Machine.execLinkPortDown s
  | .flitRetransmit => Sys2Proof.Machine.execFlitRetransmit s
  | .linkRetrain => Sys2Proof.Machine.execLinkRetrain s
  | .rdmaWrite => Sys2Proof.Machine.execRdmaWrite s
  | .rdmaRead => Sys2Proof.Machine.execRdmaRead s
  | .rdmaFetchAdd => Sys2Proof.Machine.execRdmaFetchAdd s
  | .regionActivate => Sys2Proof.Machine.execRegionActivate s
  | .sieveBlockScan => Sys2Proof.Machine.execSieveBlockScan s
  | .regionDestroy => Sys2Proof.Machine.execRegionDestroy s
  | .digestEntryEccError => Sys2Proof.Machine.execDigestEntryEccError s
  | .heartbeatSend => Sys2Proof.Machine.execHeartbeatSend s
  | .heartbeatReceive => Sys2Proof.Machine.execHeartbeatReceive s
  | .periodEnd => Sys2Proof.Machine.execPeriodEnd s
  | .babbleClear => Sys2Proof.Machine.execBabbleClear s
  | .accusationReceive => Sys2Proof.Machine.execAccusationReceive s
  | .accusationRenew => Sys2Proof.Machine.execAccusationRenew s
  | .accusationExpiry => Sys2Proof.Machine.execAccusationExpiry s
  | .withdrawalReceive => Sys2Proof.Machine.execWithdrawalReceive s
  | .quorumCheck => Sys2Proof.Machine.execQuorumCheck s
  | .fenceNoticeReceive => Sys2Proof.Machine.execFenceNoticeReceive s
  | .watchMapUpdate => Sys2Proof.Machine.execWatchMapUpdate s
  | .strikeLapse => Sys2Proof.Machine.execStrikeLapse s
  | .selfTestComplete => Sys2Proof.Machine.execSelfTestComplete s
  | .admissionReceive => Sys2Proof.Machine.execAdmissionReceive s
  | .readmissionNoticeReceive => Sys2Proof.Machine.execReadmissionNoticeReceive s
  | .probationTimeout => Sys2Proof.Machine.execProbationTimeout s
  | .correctedError => Sys2Proof.Machine.execCorrectedError s
  | .quiesceEnd => Sys2Proof.Machine.execQuiesceEnd s
  | .thsConversion => Sys2Proof.Machine.execThsConversion s
  | .throttleStep => Sys2Proof.Machine.execThrottleStep s
  | .powerPageUpdate => Sys2Proof.Machine.execPowerPageUpdate s
  | .packageReset => Sys2Proof.Machine.execPackageReset s
  | .attestationRequest => Sys2Proof.Machine.execAttestationRequest s
  | .postFatalDump => Sys2Proof.Machine.execPostFatalDump s
  | .linkPortUp => Sys2Proof.Machine.execLinkPortUp s
  | .uncorrectableError => Sys2Proof.Machine.execUncorrectableError s

end Sys2Proof.Machine
end

