-- ==== Sys2Proof/Machine/Issue.lean ====
section
/-!
DEFINITION. A bundle: its decoding, the checks at issue in their order, the slots, and what the bundle leaves (R66 to R75, R85, R91, R92,
R370 to R372); and one cycle of a core (R282).
-/
namespace Sys2Proof.Machine

/-! ## The words of a bundle (R66, R67, R85) -/

/-- The bundle that the resident overlay holds at an index. -/
def Core.bundleAt (c : Core) (ix : BitVec 13) : Option (BitVec 256) :=
  match c.overlay with
  | some o => o.bundles[ix.toNat]?
  | none => none

/-- The word of slot `k`. -/
def slotWord (b : BitVec 256) (k : BitVec 3) : BitVec 32 := b.extractLsb' (32 * k.toNat) 32

/-- The order in which the slots of a bundle take effect: V0, V1, S, D, C0, C1, M, B. Operands are those from before the bundle, and so are the
withheld stores that its loads see and the accumulator that a DRAIN takes (R72). The order decides draws of the generator (R62), what a new tail
copies, and which of two withheld stores of one bundle to the same bytes comes first (R40); and that the save-area reload of a RELC or an inline
TEND comes after a scratchpad store of its bundle (R249). DESIGN CHOICE: log 94. -/
def slotOrder : List (BitVec 3) := [3, 4, 1, 2, 6, 7, 5, 0]

/-- The slots whose words decode, with their instructions. -/
def slotInstrs (b : BitVec 256) : List (BitVec 3 × Instr) :=
  slotOrder.filterMap fun k => match decodeSlot k (slotWord b k) with
    | .ok i => some (k, i)
    | .error _ => none

/-- The slots whose words are no instruction. -/
def badSlots (b : BitVec 256) : List (BitVec 3) :=
  slotOrder.filter fun k => match decodeSlot k (slotWord b k) with
    | .ok _ => false
    | .error _ => true

/-- The XIMM of a bundle. -/
def ximmOf (l : List (BitVec 3 × Instr)) : Option (BitVec 3 × BitVec 19) :=
  l.findSome? fun p => match p.2 with
    | .ximm t pay => some (t, pay)
    | _ => none

/-- The slot that an XIMM of payload `pay` makes illegal, when the word of its target slot is instruction `i`: slot 1 when `i` is no consumer
(R85, R153), else the consumer's when its extended operand must be zero (R85, R86). -/
def ximmFault (pay : BitVec 19) (i : Instr) : Option (BitVec 3) :=
  let zero := fun (k : BitVec 3) => if pay = 0 then none else some k
  match i with
  | .nopb _ _ => zero 0
  | .callr _ _ _ => zero 0
  | .ret _ _ _ => zero 0
  | .tend _ _ => zero 0
  | .endMember _ _ => zero 0
  | .chkpt _ _ => zero 0
  | .relc _ _ _ _ => none
  | .fjoin _ _ _ _ => none
  | .loop _ _ _ _ => none
  | .loopx _ _ _ _ => none
  | .bsel _ _ _ _ => none
  | .yield _ _ _ => none
  | .trap _ _ _ => none
  | .brk _ _ _ => none
  | .popw _ _ _ => zero 2
  | .popwB _ _ _ => zero 2
  | .pushw _ _ _ => zero 2
  | .pushwC _ _ _ => zero 2
  | .qpush _ _ _ _ => zero 2
  | .wstat _ _ _ => zero 2
  | .digq _ _ _ _ => zero 2
  | .digb _ _ _ _ => zero 2
  | .digrs _ _ _ _ => zero 2
  | .kvapp _ _ _ _ => zero 2
  | .vbcast _ _ _ r _ => if r = 0 then none else some 1
  | .vins _ _ _ r => if r = 0 then none else some 1
  | .vslide _ _ _ r _ => if r = 0 then none else some 1
  | .viota _ _ _ r _ => if r = 0 then none else some 1
  | _ => some 1

/-- Whether a word in a slot is of a family that an XIMM extends, though it may be no instruction: B-CTL, D-MEM, or V-VVS with S = 0 and a scalar
operand (R70, R85, R88, R89, R153). -/
def consumerWord (k : BitVec 3) (w : BitVec 32) : Bool :=
  let op := (w.extractLsb' 19 6).toNat
  match k.toNat with
  | 0 => w.extractLsb' 28 3 = 0
  | 2 => [23, 24, 25, 27, 28, 29, 30, 31].contains op
  | 3 => [29, 31, 33, 35].contains op && w.extractLsb' 3 6 = 0
  | 4 => [29, 31, 33, 35].contains op && w.extractLsb' 3 6 = 0
  | _ => false

/-- The slots that the XIMM of a bundle makes illegal. A target word that is no instruction takes its own trap; the XIMM takes one as well when the word
is of no consumer family (R85, R92). -/
def ximmBad (b : BitVec 256) (l : List (BitVec 3 × Instr)) : List (BitVec 3) :=
  match ximmOf l with
  | none => []
  | some (t, pay) =>
    match l.find? fun p => p.1 = t with
    | some p => (ximmFault pay p.2).toList
    | none => if consumerWord t (slotWord b t) then [] else [1]

/-! ## The bundle in issue (R35, R71, R72) -/

/-- The SETEF writes that are in force from bundle number `t` on (R35). -/
def Shared.efmtDue (r : Shared) (t : Nat) : Shared :=
  { r with
    efmt := (r.efmtPend.filter fun p => p.1 ≤ t).foldl (fun (_ : BitVec 32) p => p.2.setWidth 32) r.efmt
    efmtPend := r.efmtPend.filter fun p => t < p.1 }

/-- The leaf that the TREE of a bundle makes true; L4 without one (R71). -/
def State.leafFor (s : State) (l : List (BitVec 3 × Instr)) : BitVec 3 :=
  match l.findSome? fun p => match p.2 with
    | .tree _ a b c d => some (s.leafOf a b c d)
    | _ => none with
  | some k => k
  | none => 4

/-- The state as the bundle of context `n` with instructions `l` begins: what its slots read is noted, an EFMT write that the main context's
bundle is the first to see among it (R35). -/
def State.begun (s : State) (n : BitVec 2) (l : List (BitVec 3 × Instr)) : State :=
  let s := s.mapCore fun c =>
    { c with cur := { Issue.idle with
        ctx := n, ix := (c.ctx n).ix, pre := (c.ctx n).regs, preSh := if n = 0 then c.sh.efmtDue c.sched.toNat else c.sh, part := (c.ctx n).part,
        ximm := ximmOf l, firstId := c.nextId, picked := c.cur.picked } }
  s.mapCur fun i => { i with leaf := s.leafFor l }

/-- Runs one slot's instruction. -/
def State.slotRun (s : State) (p : BitVec 3 × Instr) : State :=
  match exec p.2 (s.mapCur fun i => { i with slot := p.1 }) with
  | .next t => t
  | _ => s

/-! ## Register rules (R73, R74, R281) -/

/-- The mode predicate of the inline record that a TEND of context `n` would close. -/
def Core.inlineFor (c : Core) (n : BitVec 2) : Option (BitVec 6) := if n = 0 then c.inline.map (·.pm) else none

def RegId.isDc : RegId → Bool
  | .dc _ => true
  | _ => false

/-- Registers that the slots of a bundle write. -/
def bundleWrites (inl : Option (BitVec 6)) (l : List (BitVec 3 × Instr)) : List RegId := (l.map fun p => regWrites inl p.2).flatten

/-- Whether a slot breaks the group rule: it reads or writes a register that an earlier bundle of the group writes, or writes one that another
slot of the bundle writes (R73). -/
def groupBreach (group : List RegId) (inl : Option (BitVec 6)) (l : List (BitVec 3 × Instr)) (p : BitVec 3 × Instr) : Bool :=
  let w := (regWrites inl p.2).filter fun r => !r.isDc
  (regReads p.2).any group.contains || w.any group.contains ||
    w.any fun r => l.any fun q => q.1 ≠ p.1 && (regWrites inl q.2).contains r

/-- Whether the interlock holds the bundle of context `n`: a register that it reads or writes has a pending write from outside its group, or it
needs the divider (R74, R105, R281). -/
def Core.interlocked (c : Core) (n : BitVec 2) (l : List (BitVec 3 × Instr)) : Bool :=
  let x := c.ctx n
  l.any fun p =>
    ((regReads p.2 ++ regWrites (c.inlineFor n) p.2).any fun r => !x.group.contains r && c.pending n r) ||
      (usesDivider p.2 && c.cyc.toNat < c.divFree)

/-! ## Poisoned lines (R380) -/

/-- Whether the instructions of a bundle of context `n` read a poisoned line of a register or a tile. -/
def PLine.readBy (l : PLine) (n : BitVec 2) (i : Instr) (runs : Bool) : Bool :=
  match l with
  | .reg k r => (guardRead i ++ if runs then operandReads i else []).contains r && k = (if r.isPriv then n else 0)
  | .tile t row => runs && (match i with | .trdr _ _ u j _ => u = t && j = row | _ => (operandReads i).contains (.t t))
  | _ => false

/-- Whether an instruction of context `n` that has its effect rewrites a line. -/
def PLine.writtenBy (l : PLine) (n : BitVec 2) (inl : Option (BitVec 6)) (i : Instr) : Bool :=
  match l with
  | .reg k r => (regWrites inl i).contains r && k = (if r.isPriv then n else 0)
  | .tile t row => (match i with | .twr _ _ u j => u = t && j = row | .tzero _ u _ => u = t | _ => false)
  | _ => false

/-! ## Traps at issue (R91, R92, R370) -/

/-- A trap that a slot takes. -/
abbrev SlotTrap := BitVec 3 × Trap

def slotTrap (cause : Cause) (k : BitVec 3) : SlotTrap := (k, ⟨cause, slotUnit k, 0, 0⟩)

/-- Traps that the bits of a bundle, its context and the group rule decide. -/
def Core.earlyTraps (c : Core) (n : BitVec 2) (b : BitVec 256) (l : List (BitVec 3 × Instr)) : List SlotTrap :=
  let tail := n ≠ 0 || c.inline.isSome
  (badSlots b ++ ximmBad b l).map (slotTrap .illegalEnc) ++
    ((l.filter fun p => tail && (p.1 = 3 || p.1 = 4 || p.1 = 5) && p.2 ≠ .nopV && p.2 ≠ .nopM).map fun p => slotTrap .illegalSlot p.1) ++
    ((l.filter (groupBreach (c.ctx n).group (c.inlineFor n) l)).map fun p => slotTrap .illegalGroup p.1)

/-- Slots of the bundle that has begun that read a poisoned line (R380). -/
def State.lineTraps (s : State) (l : List (BitVec 3 × Instr)) : List SlotTrap :=
  (l.filter fun p => s.core.linePoison.any fun q => q.readBy s.core.cur.ctx p.2 (s.guard (guardOfInstr p.2) || effectAlways p.2)).map
    fun p => slotTrap .dataUe p.1

/-- The order of traps: freeze, fatal, rollback; ILLEGAL_ENC, ILLEGAL_SLOT, ILLEGAL_GROUP, others; the lowest slot. -/
def SlotTrap.key (t : SlotTrap) : Nat :=
  let k : Nat := match t.2.cause.cls with | .freeze => 0 | .fatal => 1 | .rollback => 2 | .stall => 3
  let c : Nat := match t.2.cause with | .illegalEnc => 0 | .illegalSlot => 1 | .illegalGroup => 2 | _ => 3
  k * 64 + c * 8 + t.1.toNat

/-- The trap that a bundle takes. -/
def firstTrapOf : List SlotTrap → Option SlotTrap
  | [] => none
  | t :: l => match firstTrapOf l with
    | some u => if u.key < t.key then some u else some t
    | none => some t

/-! ## Room in the holding buffer (R40, R195, R372) -/

/-- Entries of context `n` that stand in its partition or are promised to its gated commands, KVAPPs and untranslated scatters. -/
def Core.entries (c : Core) (n : BitVec 2) : Nat :=
  let x := c.ctx n
  x.part.length + x.released.length + ((c.q0 ++ c.q1).filter fun k => k.ctx = n && k.gated && !k.released).length +
    (c.reqs.filter fun r => match r.kind with | .kvapp _ => r.ctx = n && !r.discard && r.phase = x.phase | _ => false).length +
    ((c.reqs.filter fun r => match r.kind with | .scatter _ => r.ctx = n && !r.discard && !r.sc | _ => false).map fun r =>
      (r.addrs.map fun e => e.2.toNat / 64).dedup.length).sum

/-- The size of a context's partition (R40). -/
def partSize (n : BitVec 2) : Nat := if n = 0 then 384 else 64

/-! ## The end of a bundle (R73, R75, R104, R105, R127, R140) -/

/-- Whether a slot-0 instruction ends its group: any other than NOPB, and a stop bit (R73). -/
def endsGroup : Instr → Bool
  | .nopb stop _ => stop
  | .nopS => false
  | _ => true

/-- Registers whose results of the bundle are not ready in the next cycle. -/
def State.results (s0 s1 : State) (l : List (BitVec 3 × Instr)) : List Busy :=
  let c := s0.core
  let tag := fun v => (c.cur.preSh.v.read v).tag
  (l.filter fun p => s0.guard (guardOfInstr p.2) || effectAlways p.2).flatMap fun p =>
    let n := latency tag p.2 + (match p.2 with | .vgath _ _ _ _ _ => s1.core.cur.extra | _ => 0)
    if n ≤ 1 then [] else (regWrites (c.inlineFor c.cur.ctx) p.2).map fun r => ⟨c.cur.ctx, r, c.cyc.toNat + n⟩

/-- Whether the bundle divides. -/
def State.divides (s0 : State) (l : List (BitVec 3 × Instr)) : Bool := l.any fun p => usesDivider p.2 && s0.guard (guardOfInstr p.2)

/-- The context after its bundle: `next` follows, `ends` says that the group ends, and its next bundle can be fetched from cycle `fetch`. A
BAR stays at its bundle for its BARW part (R199). A bundle that a translation stall held stays in its group when it resumes. DESIGN CHOICE: log 118. -/
def Ctx.finish (x x0 : Ctx) (next : BitVec 13) (ends : Bool) (writes : List RegId) (fetch : Nat) : Ctx :=
  let bar := x.barwOnly && !x0.barwOnly
  let ix := if bar then x.ix else next
  { x with
    ix := ix
    irrevNext := if bar then next else x.irrevNext
    barwOnly := bar
    barWaiting := bar && x.barWaiting
    group := if x0.barwOnly then x.group else if ends then [] else x.group ++ writes
    ckDone := false
    issued := x.issued + 1
    waitCycles := 0
    fetchAt := max x.fetchAt fetch
    hold := none
    ready := false
    queued := none
    ck := x.ck.map fun k => { k with restart := ix, barwOnly := bar } }

/-- What the bundle `l`, which began in `s0` and whose slots have run, leaves. Bank conflicts hold its context alone (R190, R282). -/
def State.finished (s1 s0 : State) (l : List (BitVec 3 × Instr)) : State :=
  let n := s0.core.cur.ctx
  let x0 := s0.core.ctx n
  let (dest, loops, taken) := s1.following
  let next : BitVec 13 := if x0.barwOnly then x0.irrevNext else BitVec.ofInt 13 dest
  let cyc := s0.core.cyc.toNat + 1
  let ends := taken || l.any fun p => p.1 = 0 && endsGroup p.2
  let counted := n = 0 && !(x0.barwOnly && x0.barWaiting)
  s1.mapCore fun c =>
    { c.mapCtx n fun x => x.finish x0 next ends (bundleWrites (s0.core.inlineFor n) l) (cyc + s1.core.cur.extra) with
      sched := if counted then c.sched + 1 else c.sched
      cyc := BitVec.ofNat 64 cyc
      sh :=
        let sh := if counted then c.sh.efmtDue s0.core.sched.toNat else c.sh
        if n = 0 && !x0.barwOnly then { sh with loops := loops } else sh
      linePoison := c.linePoison.filter fun q => !(l.any fun p =>
        (s0.guard (guardOfInstr p.2) || effectAlways p.2) && q.writtenBy n (s0.core.inlineFor n) p.2)
      busy := (c.busy.filter fun b => cyc < b.ready) ++ State.results s0 s1 l
      divFree := if s0.divides l then s0.core.cyc.toNat + 36 else c.divFree }

/-- Whether execution would run past the end of the image after the slot-0 instruction has run in `s` (R104). -/
def State.fallsOff (s : State) : Bool :=
  let ends := match (s.core.ctx s.core.cur.ctx).ck with
    | some k => k.why = .endMember || k.why = .tendTail
    | none => false
  !ends && !s.core.inImage s.following.1

/-! ## Scratchpad accesses of one bundle in a free order (R190) -/

/-- 1 for a load from scratchpad, 2 for a store, else 0. -/
def spadUse : Instr → Nat
  | .lds _ _ _ _ _ _ => 1
  | .vld _ _ _ _ _ _ => 1
  | .vgath _ _ _ _ _ => 1
  | .dld _ _ _ => 1
  | .sts _ _ _ _ _ => 2
  | .vst _ _ _ _ _ _ => 2
  | .vscat _ _ _ _ _ => 2
  | _ => 0

/-- A list in an order of free choice. DESIGN CHOICE: log 70. -/
def State.shuffle (s : State) : Nat → List (BitVec 3 × Instr) → List (BitVec 3 × Instr) × State
  | 0, l => (l, s)
  | n + 1, l =>
    let (i, s) := s.choose l.length
    match l[i]? with
    | some p => let (r, s) := s.shuffle n (l.eraseIdx i); (p :: r, s)
    | none => (l, s)

/-- The instructions in the order in which they take effect. -/
def State.arranged (s : State) (l : List (BitVec 3 × Instr)) : List (BitVec 3 × Instr) × State :=
  let m := l.filter fun p => spadUse p.2 ≠ 0
  if 2 ≤ m.length && m.any fun p => spadUse p.2 = 2 then
    let (r, s) := s.shuffle m.length m
    (r ++ l.filter (fun p => spadUse p.2 = 0), s)
  else (l, s)

/-! ## One attempt to issue (R75, R92, R370 to R372) -/

/-- What comes of an attempt to issue a context's next bundle. -/
inductive Attempt where
  /-- The context does not run, or its core does not let it issue. -/
  | rests
  /-- The bundle is held; the state keeps the miss that a slot has met. -/
  | held (h : Hold) (s : State)
  /-- A checkpoint of the context comes first. -/
  | needs (w : CkWhy)
  /-- A trap at issue, with the state in which the bundle began. -/
  | traps (t : Trap) (s : State)
  /-- The bundle has issued. -/
  | issues (s : State)

/-- Holds before which no trap is looked for: the bundle is not yet at issue. DEDUCED: log 14. -/
def Hold.early : Hold → Bool
  | .walk => false
  | .stall _ => false
  | _ => true

/-- The first hold of slots that have run, early or late. -/
def firstHold (runs : List State) (early : Bool) : Option (Hold × State) :=
  runs.findSome? fun t => match t.core.cur.hold with
    | some h => if h.early = early then some (h, t) else none
    | none => none

/-- The checkpoint that comes before a bundle: a TRIGGER's, which every context of the member takes, stands for that of another slot (R209). -/
def firstCk (runs : List State) : Option CkWhy :=
  let ws := runs.filterMap fun t => t.core.cur.ckBefore
  if ws.contains .trigger then some .trigger else ws.head?

/-- The slots of a bundle take effect: after its waits, traps, misses and implicit checkpoints, and with room for its stores. DEDUCED: log 14. -/
def State.issueSlots (s : State) (early : List SlotTrap) (l : List (BitVec 3 × Instr)) : Attempt :=
  let n := s.core.cur.ctx
  let x := s.core.ctx n
  let runs := l.map s.slotRun
  let fall := (l.zip runs).filter fun p => p.1.1 = 0 && p.2.core.cur.trap.isNone && p.2.core.cur.hold.isNone && p.2.fallsOff
  let traps := early ++ ((l.zip runs).filterMap fun p => p.2.core.cur.trap.map fun t => (p.1.1, t)) ++
    fall.map fun p => (p.1.1, ⟨.illegalEnc, slotUnit p.1.1, 0, detailBranch⟩)
  match firstHold runs true with
  | some (h, _) => .held h s
  | none =>
    match firstTrapOf traps with
    | some t => .traps t.2 s
    | none =>
      match firstHold runs false with
      | some (h, t) => .held h t
      | none =>
        match firstCk runs with
        | some w => .needs w
        | none =>
          let (o, s) := s.arranged l
          let t := o.foldl State.slotRun s
          match t.core.cur.hold with
          | some h => .held h s
          | none =>
            if t.core.entries n ≤ partSize n then .issues (t.finished s l)
            else if x.released.isEmpty && s.core.entries n ≠ 0 then .needs .overflow
            else .held .room s

/-- Whether the main context is in a matrix wait: its queue is full, or its checkpoint waits for the drain (R171). -/
def Core.matrixWait (c : Core) : Bool := c.main.run = .running && (c.main.hold = some .matrix || (c.main.ck.isSome && !c.drained))

/-- Whether the pipeline stands at a tick: a line that it needs has not come (R170). -/
def Core.pipeStands (c : Core) : Bool := c.dueEntry.isSome || c.readyPend.isSome || c.flushDue

/-- Why a context does not come to its next bundle in this cycle: `none` when it does, else the hold to note, if any. In a matrix wait no
context issues. A rollback event of the same cycle leaves the bundle its freeze or fatal trap (R370). DEDUCED: log 76. -/
def State.hindered (s : State) (n : BitVec 2) : Option (Option Hold) :=
  let c := s.core
  let x := c.ctx n
  let stops := x.run ≠ .running || c.frozen.isSome || (x.rollPend.isSome && !x.rollFresh) || x.rolling.isSome ||
    (match c.save with | .none => false | .wanted => n = 0 | .reached => n = 0 || c.tailAtPoint n | _ => true) ||
    (n = 0 && c.ending) || decide (c.cyc.toNat < x.fetchAt) || (s.recWait.any fun r => r.holder = some (s.coreTile, n)) ||
    (n ≠ 0 && (c.matrixWait && !c.pipeStands || decide (c.main.phase < x.afterPhase) || c.main.released.any fun e => e.phase < x.afterPhase))
  if stops then some none
  else if x.ck.isSome then some (some .checkpoint)
  else if c.popOut n then some (some (.wait true))
  else if n = 0 && c.pipeStands && !x.rollFresh then some (some .starve)
  else none

/-- The instructions that the context's next issue runs: the whole bundle, or its BARW part alone (R199). -/
def Ctx.part199 (x : Ctx) (l : List (BitVec 3 × Instr)) : List (BitVec 3 × Instr) := if x.barwOnly then l.filter fun p => p.1 = 2 else l

/-- An attempt of context `n` of the focused core to issue its next bundle. -/
def State.attempt (s : State) (n : BitVec 2) : Attempt :=
  match s.hindered n with
  | some none => .rests
  | some (some h) => .held h s
  | none =>
    let x := s.core.ctx n
    match s.core.bundleAt x.ix with
    | none => .traps ⟨.illegalEnc, 6, 0, detailBranch⟩ (s.begun n [])
    | some b =>
      let l := x.part199 (slotInstrs b)
      let early := if x.barwOnly then [] else s.core.earlyTraps n b l
      let t := s.begun n l
      if s.core.linePoison.contains (.bundle x.ix) then .traps ⟨.dataUe, 15, 0, 0⟩ t
      else if s.core.interlocked n l then .held .interlock s
      else t.issueSlots (early ++ t.lineTraps l) l

/-! ## One cycle of a core (R75, R171, R199, R282) -/

/-- Context `n` reaches a checkpoint before its next bundle. -/
def State.askCk (s : State) (n : BitVec 2) (w : CkWhy) : State :=
  s.mapCore fun c => c.mapCtx n fun x => { x with ck := some ⟨w, x.ix, x.barwOnly, bindSlice (s.bind s.coreTile)⟩ }

/-- Whether a context runs on, so that a checkpoint may be asked of it. -/
def Core.ckFree (c : Core) (n : BitVec 2) : Bool :=
  let x := c.ctx n
  x.run = .running && x.ck.isNone && x.rollPend.isNone && x.rolling.isNone && c.frozen.isNone && !(n = 0 && c.ending)

/-- The checkpoints that requests of context `n` bring: the second one of an irrevocable operation that has its result, and the first one of
a gather or scatter with an element on an SC page (R195, R199). The second checkpoint awaits no asynchronous load of another slot. DESIGN CHOICE:
log 123. -/
def State.dueCk (s : State) (n : BitVec 2) : State :=
  let c := s.core
  let mine := c.reqs.filter fun r => r.ctx = n && !r.discard
  if !c.ckFree n then s
  else if (c.ctx n).irrevOut then
    (if mine.all fun r => !r.irrev && !(r.result.isSome && r.isPop) then s.askCk n .irrevAfter else s)
  else if mine.any Req.scReady then s.askCk n .scGather
  else s

/-- A TRIGGER of context `n` asks a checkpoint of every other context that withholds stores; a pop that waits at home has taken no item, and
its context takes none (R199, R209). -/
def State.triggerCks (s : State) (n : BitVec 2) : State :=
  [0#2, 1#2, 2#2].foldl (fun (s : State) k =>
    if k ≠ n && s.core.ckFree k && !(s.core.ctx k).irrevOut && !(s.core.ctx k).part.isEmpty && !s.core.popOut k then s.askCk k .trigger else s) s

/-- Whether a trap outranks a rollback event of the same cycle (R370). -/
def Cause.outranks (c : Cause) : Bool := match c.cls with | .freeze => true | .fatal => true | _ => false

/-- Notes in context `n` what an attempt to issue finds, and at the first wait the commands that are queued then (R250). -/
def State.noteReady (s : State) (n : BitVec 2) : State :=
  let s := s.dueCk n
  let note := fun (s : State) (ready : Bool) (h : Option Hold) =>
    let cmds := (s.quadCmds s.coreTile).map fun k => (k.1, k.2.id)
    s.mapCore fun c => c.mapCtx n fun x =>
      { x with ready := ready, hold := h, queued := if h = some (.wait false) && x.queued.isNone then some cmds else x.queued }
  let rests := s.mapCore fun c => c.mapCtx n fun x => { x with ready := false }
  if (s.core.ctx n).rollFresh then
    match s.attempt n with
    | .traps t _ => if t.cause.outranks then note s true none else rests
    | _ => rests
  else
    match s.attempt n with
    | .rests => rests
    | .held h t => note t false (some h)
    | .needs w => let s := note (s.askCk n w) false (some .checkpoint); if w = .trigger then s.triggerCks n else s
    | _ => note s true none

/-- The readiness of the three contexts. -/
def State.noteAll (s : State) : State := ((s.noteReady 0).noteReady 1).noteReady 2

/-- PICK_CONTEXT for the focused core. -/
def State.pickNow (s : State) : State :=
  match exec .pickContext { s with ev := { s.ev with tile := s.coreTile } } with
  | .next t => t
  | _ => s

/-- A cycle in which no context issues: the pipeline runs on in a matrix wait (R75, R171). -/
def Core.idleCycle (c : Core) : Core :=
  { c with cyc := c.cyc + 1, mOff := if c.matrixWait && c.frozen.isNone && !c.pipeStands then c.mOff + 1 else c.mOff }

/-- A cycle passes for the member: its wait (R327), its slice (R329), and the share of its core in the reference clock. -/
def State.pass (s : State) : State :=
  let b := s.bind s.coreTile
  let s := { s with
    clkAcc := s.clkAcc + 100
    binds := if bindBackfill b && s.core.bound then s.binds.write s.coreTile (setField b 448 32 ((bindSlice b).toNat - 1)) else s.binds }
  s.mapCore fun c => { c with main := { c.main with
    waitCycles := if c.main.hold = some (.wait true) then c.main.waitCycles + 1 else 0 } }

/-- A trap of the picked context: it takes the cycle, and a damaged line of the instruction store is loaded again (R380). -/
def State.trapNow (s : State) (t : Trap) (n : BitVec 2) : State :=
  let ix := (s.core.ctx n).ix
  (s.takeTrap t n ix).mapCore fun c =>
    if c.bound then { c with cyc := c.cyc + 1, linePoison := c.linePoison.filter fun q => q ≠ .bundle ix } else c

/-- The picked context issues. -/
def State.issueNow (s : State) (n : BitVec 2) : State :=
  (match s.attempt n with
   | .issues t => t
   | .traps t u => u.trapNow t n
   | _ => s.mapCore Core.idleCycle).pass

/-- The cycle in which a rollback event was detected is over (R370). -/
def Core.cycleOver (c : Core) : Core :=
  let done := fun (x : Ctx) => { x with rollFresh := false }
  { c with main := done c.main, tail0 := done c.tail0, tail1 := done c.tail1 }

/-- One cycle of the focused core. -/
def State.coreCycle (s : State) : State :=
  let s := s.noteAll.pickNow
  (match s.core.cur.picked with
   | some n => s.issueNow n
   | none => (s.mapCore Core.idleCycle).pass).mapCore Core.cycleOver

end Sys2Proof.Machine
end

