-- ==== Sys2Proof/Machine/Enabled.lean ====
section
/-!
DEFINITION. What can happen next: the events whose time has come, the cycles of the cores, and the reference clock (assumption log 3, 4,
15). An action that is listed and finds nothing to do changes nothing.
-/
namespace Sys2Proof.Machine

/-- What the machine does by itself in one step. -/
inductive Act where
  | event (e : Event)
  /-- One cycle of a tile's core. -/
  | cycle (t : BitVec 7)
  /-- One edge of the reference clock, while no member is bound. -/
  | tick
  deriving DecidableEq, Repr

def evTile (i : Instr) (t : BitVec 7) : Event := ⟨i, { EvArgs.zero with tile := t }⟩

/-! ## Events of one core -/

/-- Whether a POPW.b that waits at home finds an item, or its queue closed (R332). -/
def State.popRuns (s : State) (r : Req) : Bool :=
  let q := s.workQ r.home
  decide (q.held ≠ 0) || q.closed || !q.ok

/-- The event that moves a request on. -/
def State.reqEvent (s : State) (r : Req) : List Instr :=
  if r.result.isSome || r.discards then [.deviceReplyArrival]
  else
    match r.kind with
    | .atom _ => [.atomHomeStep]
    | .vatom _ _ => [.atomHomeStep]
    | .once _ => [.onceCellHomeStep]
    | .pop _ => if r.waiting && !s.popRuns r then [] else [.workQueueHomeStep]
    | .push _ => [.workQueueHomeStep]
    | .qpush _ => [.qpushHomeStep]
    | .kvapp _ => if s.core.kvReleased r && s.core.kvRuns then [.kvappExecute] else []
    | .winLoad _ _ => [.windowAccessArrival]
    | .winVLoad _ _ => [.windowAccessArrival]
    | .winStore => [.windowAccessArrival]
    | .store => [.homeWriteStep]
    | .gather _ => if r.x = 1 then [.windowAccessArrival] else [.deviceReplyArrival]
    | .wstat => if r.x.toNat / 128 = Config.pkgId.toNat then [.deviceReplyArrival] else []
    | _ => [.deviceReplyArrival]

/-- The events of one engine of the focused core: it starts or goes on with a command, writes a line, or completes a command. In a frozen core the
unit in hand goes on to its boundary (R384). -/
def State.engineEvents (s : State) (e : BitVec 1) : List Instr :=
  let c := s.core
  match c.headCmd e with
  | none => []
  | some k =>
    (if k.done then [.engineCommandComplete] else []) ++
      (if c.unitsLand && s.unitOpen k then [.engineCommandStart]
       else if !c.enginesRun || k.done then []
       else if k.lineDue then (if c.feedRoom k then [.feedLineWrite] else [])
       else if k.started || c.mayStart k then [.engineCommandStart] else [])

/-- The events of the matrix engine that are due (R75, R76, R170, R183). A step that takes a rollback is the last before it (R370, R374). -/
def matrixEvents (c : Core) : List Instr :=
  (if c.dueEntry.isSome && !c.starves && c.main.rollPend.isNone && c.main.rolling.isNone then [.matrixKStep] else []) ++ (if c.flushDue then [.mflushEffect] else []) ++
    (match c.readyPend with
     | some p => [if p.isMma then .accumulatorCommit else .mAccCommit]
     | none => [])

/-- The events of one context. -/
def State.ctxEvents (s : State) (n : BitVec 2) : List Instr :=
  (if s.ckDue n then [.checkpoint] else []) ++ (if (s.entriesReady n).isEmpty then [] else [.holdingEntryPerform]) ++
    (if s.core.rollDue n then [.rollbackEvent] else []) ++ (if s.core.restoreDue n then [.rollbackRestore] else [])

/-- Whether the context-save engine has something to do on the focused core (R344, R384). -/
def State.saves (s : State) : Bool :=
  match s.core.save with
  | .none => s.core.frozen.isSome && s.frozenSave && s.core.frozenDue
  | .wanted => s.core.frozen.isSome && s.frozenSave && s.core.frozenDue
  | .reached => s.saveBegins || (s.core.frozen.isSome && s.lateFreeze)
  | .waiting => s.core.midUnit.isSome || s.settled
  | _ => false

/-- The events of the member as a whole, on the focused core. -/
def State.memberEvents (s : State) : List Instr :=
  (if s.waitedOut || (s.core.save = .wanted && s.core.frozen.isNone && s.core.loadsSettled 0) then [.waitPreemption] else []) ++
    (if s.core.yieldLate then [.yieldDeadline] else []) ++ (if s.overrun then [.phaseOverrun] else []) ++
    (if s.saves then [.contextSave] else []) ++ (if s.core.save = .writing && !s.areaPending (bindResume (s.bind s.coreTile)).toNat then [.saveComplete] else []) ++
    (if s.core.freeable && bindState (s.bind s.coreTile) = 3 then [.coreFree] else [])

/-- The events of the core of tile `t`. -/
def State.coreEvents (s : State) (t : BitVec 7) : List Event :=
  let s := s.focus t
  let c := s.core
  let on := fun (a : EvArgs → EvArgs) (i : Instr) => (⟨i, a { EvArgs.zero with tile := t }⟩ : Event)
  ([0#1, 1#1].flatMap fun e => (s.engineEvents e).map (on fun (a : EvArgs) => { a with eng := e })) ++
    (c.reqs.flatMap fun r => (s.reqEvent r).map (on fun (a : EvArgs) => { a with id := r.id })) ++ (matrixEvents c).map (on id) ++
    ([0#2, 1#2, 2#2].flatMap fun n => (s.ctxEvents n).map (on fun (a : EvArgs) => { a with ctx := n })) ++ s.memberEvents.map (on id)

/-- Whether a core's next cycle waits for something that happens in this one: a step of the pipeline or a record that is due. -/
def State.cycleWaits (s : State) (t : BitVec 7) : Bool :=
  let s := s.focus t
  s.core.yieldLate || s.overrun || !(matrixEvents s.core).isEmpty

/-! ## Events of launches, walks and the Sieve -/

/-- The events of launch queue `q`; without a cell in memory no queue is open. -/
def State.queueEvents (s : State) (q : BitVec 6) : List Event :=
  let on := fun (i : Instr) => (⟨i, { EvArgs.zero with queue := q }⟩ : Event)
  (if s.headNew q then [on .headPresent] else []) ++ (if s.headDue q then [on .headEligible] else [])

/-- Whether the distributor has to note or to report that a queue's head is absent (R311). -/
def State.absentDue (s : State) (q : BitVec 6) : Bool :=
  let f := s.queues.read q
  match f.absentAt with
  | none => s.headAbsent q
  | some t => !s.slotHeld q && (!s.headAbsent q || t + msEdges ≤ s.refClk)

/-- The blocks that the scan of a region has still to take and that no home holds; past them when it has taken all. -/
def State.scanLeft (s : State) (k : BitVec 8) : List Nat :=
  let r := Region.ofBits (s.regions.read k)
  if s.regionScanned k then [r.nblk]
  else ((s.regionBlocks r).filter fun b => (s.digEntry k b.1).isNone && (s.blockHeld (.outside 0) k (.ok (some b.2.1))).isNone).map (·.1)

/-- The events of agents that no core holds. -/
def State.agentEvents (s : State) : List Event :=
  let z := EvArgs.zero
  ((s.walks.filter fun w => w.token.isNone && s.hasWalker w).map fun w => (⟨.translationWalk, { z with id := w.id }⟩ : Event)) ++
    (s.arrivals.map fun a => evTile .multicastArrival a.1) ++
    ((List.range s.barriers.length).filterMap fun i =>
      match s.barriers[i]? with
      | some b => (match s.liveGang b.gang with
        | some g => if b.ready g then some (⟨.barrierPhaseComplete, { z with id := i }⟩ : Event) else none
        | none => none)
      | none => none) ++
    (s.gangs.zipIdx.flatMap fun g =>
      (if s.teamDue g.1 then [(⟨.teamCompletion, { z with id := g.2 }⟩ : Event)] else []) ++
        g.1.tiles.flatMap fun t => (if s.toCreate t false then [evTile .memberCreation t] else []) ++
          (if s.toCreate t true then [evTile .contextRestore t] else [])) ++
    (if s.mem.isEmpty then [] else (List.range 63).flatMap fun q => s.queueEvents (BitVec.ofNat 6 q)) ++
    (if s.xinvDone then [⟨.xinvComplete, z⟩] else []) ++
    ([0#2, 1#2, 2#2, 3#2].flatMap fun d =>
      (if (s.kvts.read d).getLsbD 63 then [(⟨.kvtscfgComplete, { z with die := d }⟩ : Event)] else []) ++
        (if (s.dumps.read d).busy && !s.ctlPending 4 then [(⟨.postFatalDump, { z with die := d }⟩ : Event)] else [])) ++
    (s.scanning.flatMap fun k => (s.scanLeft k).map fun b => (⟨.sieveBlockScan, { z with id := k.toNat, count := b }⟩ : Event)) ++
    ((List.range 12).filterMap fun p =>
      if (s.ports.read (BitVec.ofNat 4 p)).noisy then some (⟨.linkRetrain, { z with port := BitVec.ofNat 4 p }⟩ : Event) else none)

/-! ## Events of the clock (R391 to R403, R405 to R412) -/

/-- The event that a flit's arrival is. -/
def flitEvent (f : Flit) : Instr :=
  match f.kind.toNat with
  | 0 => .heartbeatReceive
  | 1 => .accusationReceive
  | 2 => .withdrawalReceive
  | 3 => .fenceNoticeReceive
  | 4 => .admissionReceive
  | _ => .readmissionNoticeReceive

/-- The flits that have been on their way for at least `n` edges, 100 for a heartbeat and 25 for a ring flit being the most. DEDUCED: log 75. -/
def State.flitEvents (s : State) (late : Bool) : List Event :=
  s.flits.zipIdx.filterMap fun f =>
    let bound := f.1.sent + (if f.1.kind = 0 then 100 else 25)
    if decide (bound ≤ s.refClk) = late && (f.1.kind ≠ 0 || s.refClk / watchTHB ≤ (s.trellisAt f.1.dest).periodsEnded.read f.1.dir) then
      some ⟨flitEvent f.1, { EvArgs.zero with tile := f.1.dest, id := f.2 }⟩
    else none

def allTiles : List (BitVec 7) := (List.range 128).map (BitVec.ofNat 7)
def allDirs : List (BitVec 2) := [0, 1, 2, 3]

/-- The events of the neighbour watch that are due on a tile. -/
def State.watchEvents (s : State) (t : BitVec 7) : List Event :=
  let x := s.trellisAt t
  (if x.beatSent < s.refClk / watchTHB then [evTile .heartbeatSend t] else []) ++
    (allDirs.flatMap fun d =>
      let on := fun (i : Instr) => (⟨i, { EvArgs.zero with tile := t, dir := d }⟩ : Event)
      (if x.periodsEnded.read d < s.refClk / watchTHB then [on .periodEnd] else []) ++ (if s.babbleOver t d then [on .babbleClear] else []) ++
        (if s.renewDue t d then [on .accusationRenew] else []) ++
        (if s.quorate t d || s.selfFencing t || s.isolating t d || s.admitDue t d then [on .quorumCheck] else [])) ++
    (if x.accs.any fun h => h.time + watchTACC < s.refClk then [evTile .accusationExpiry t] else []) ++
    (if s.probationOver t then [evTile .probationTimeout t] else []) ++
    (if s.strikeOld t then [evTile .strikeLapse t] else [])

/-- The tiles that a notice on the management ring has still to reach, when the notice has been on its way for 50 us, or has not (R396). -/
def State.mapEvents (s : State) (late : Bool) : List Event :=
  allTiles.filterMap fun u =>
    match (s.unseen u).bind fun i => s.mring[i]? with
    | some n => if decide (n.time + 5000 ≤ s.refClk) = late then some (evTile .watchMapUpdate u) else none
    | none => none

/-- The conversions that are due. -/
def State.sensorEvents (s : State) : List Event :=
  allDirs.flatMap fun d => if s.convDone.read d < s.refClk / 1000 then [(⟨.thsConversion, { EvArgs.zero with die := d }⟩ : Event)] else []

/-- What must happen before the reference clock's next edge. In the first 10 us no watch event is due while no Trellis has heard anything. -/
def State.dueEvents (s : State) : List Event :=
  let z := EvArgs.zero
  (s.quiesces.zipIdx.filterMap fun q => if s.quiesceDue q.1 then some (⟨.quiesceEnd, { z with id := q.2 }⟩ : Event) else none) ++
    s.flitEvents true ++ (if s.mring.isEmpty then [] else s.mapEvents true) ++
    (if s.mem.isEmpty then []
     else (List.range 64).filterMap fun q =>
      if s.absentDue (BitVec.ofNat 6 q) then some (⟨.absentHeadTimeout, { z with queue := BitVec.ofNat 6 q }⟩ : Event) else none) ++
    s.sensorEvents ++
      (allDirs.flatMap fun d => if s.stepDone.read d < s.refClk / 1000 then [(⟨.throttleStep, { z with die := d }⟩ : Event)] else []) ++
      (if s.pageDone < s.refClk / 10000 then [⟨.powerPageUpdate, z⟩] else []) ++
      (if s.refClk < 1000 && s.trellis.isEmpty then [] else allTiles.flatMap s.watchEvents)

/-- What may happen before its time: flits and notices that arrive earlier than they must. -/
def State.earlyEvents (s : State) : List Event :=
  s.flitEvents false ++ if s.mring.isEmpty then [] else s.mapEvents false

/-! ## Actions -/

/-- The tiles on which a member is bound. -/
def State.boundTiles (s : State) : List (BitVec 7) := (s.cores.filter fun p => p.2.bound).map (·.1)

/-- Everything that can happen next (R1, R410, R411, R413). Sensors convert from the reset on, whatever becomes of the boot (R408). -/
def State.acts (s : State) : List Act :=
  match s.boot with
  | .halted _ _ => if s.sensorEvents.isEmpty then [.tick] else s.sensorEvents.map .event
  | .inReset =>
    if s.tripped then (if s.sensorEvents.isEmpty then [.tick] else s.sensorEvents.map .event) else [.event ⟨.packageReset, .zero⟩]
  | .done =>
    let due := s.dueEvents
    ((s.cores.flatMap fun p => s.coreEvents p.1) ++ s.agentEvents ++ due ++ s.earlyEvents).map .event ++
      ((s.boundTiles.filter fun t => !s.cycleWaits t).map .cycle) ++
      (if s.boundTiles.isEmpty && due.isEmpty then [.tick] else [])

/-- The reference clock's share of a core cycle on tile `t`: an edge comes when the bound cores have had their cycles of it and nothing is
due before it (assumption log 15). -/
def State.clock (s : State) (t : BitVec 7) : State :=
  let need := (s.mhz.read (dieOf t)).max 1 * max 1 s.boundTiles.length
  if need ≤ s.clkAcc && s.dueEvents.isEmpty then { s with clkAcc := s.clkAcc - need, refClk := s.refClk + 1 } else s

/-- One action. -/
def State.perform (s : State) (a : Act) : Result :=
  match a with
  | .event e => exec e.i { s with ev := e.args }
  | .cycle t => .next ((s.focus t).coreCycle.clock t)
  | .tick => .next { s with refClk := s.refClk + 1 }

/-- One action of the machine, a free choice when there are several. -/
def State.advance (s : State) : Result :=
  match s.acts with
  | [] => .next s
  | [a] => s.perform a
  | l =>
    let (k, s) := s.choose l.length
    match l[k]? with
    | some a => s.perform a
    | none => .next s

/-! ## Inputs -/

/-- Whether an event is one by which the outside acts on the machine: firmware, links, peers, faults of the hardware. -/
def isInput : Instr → Bool
  | .xresolve => true
  | .frcons => true
  | .xinv => true
  | .offer => true
  | .fitoffer => true
  | .returnHead => true
  | .skiphead => true
  | .ganggo => true
  | .killMember => true
  | .bindRecordWrite => true
  | .isflush => true
  | .kvreclaim => true
  | .kvtscfg => true
  | .registerWrite => true
  | .homeWriteStep => true
  | .deviceReplyArrival => true
  | .linkPair => true
  | .linkPortDown => true
  | .linkPortUp => true
  | .flitRetransmit => true
  | .rdmaWrite => true
  | .rdmaRead => true
  | .rdmaFetchAdd => true
  | .regionActivate => true
  | .sieveBlockScan => true
  | .regionDestroy => true
  | .digestEntryEccError => true
  | .heartbeatReceive => true
  | .selfTestComplete => true
  | .correctedError => true
  | .uncorrectableError => true
  | .packageReset => true
  | .attestationRequest => true
  | _ => false

/-- An input lands, or an update of the power page that home has held comes again: in reset the machine takes none but a package reset. -/
def State.land (s : State) (e : Event) : Result :=
  if (isInput e.i || (e.i = .powerPageUpdate && e.args.ticket ≠ 0)) && (s.boot = .done || e.i = .packageReset) then exec e.i { s with ev := e.args } else .next s

/-! ## A program for the first bundle (assumption log 6) -/

/-- A bundle with one word in a slot and NOPs in the others. -/
def bundleOf (k : BitVec 3) (w : BitVec 32) : BitVec 256 := w.setWidth 256 <<< (32 * k.toNat)

/-- The core of tile 0 with a member whose overlay begins with a bundle. -/
def Core.placed (c : Core) (b : BitVec 256) : Core :=
  let o : Overlay := { imageId := 0, tagged := false, bundles := [b, 0, 0, 0], lits := [0] }
  { c with bound := true, overlay := some o, main := { c.main with run := .running, ix := 0 } }

end Sys2Proof.Machine
end

