-- ==== Sys2Proof/Machine/Step.lean ====
section
/-!
DEFINITION. One step of the machine: an input lands, or the machine acts by itself.
-/
namespace Sys2Proof.Machine

/-- One step. -/
def step (s : State) : Host.Outcome State Fault Refusal :=
  match s.inputs with
  | [] => s.advance
  | x :: l => if x.after = 0 then { s with inputs := l }.land x.ev else { s with inputs := ⟨x.after - 1, x.ev⟩ :: l }.advance

/-- The state with an instruction placed as the next bundle of the member on tile 0: in the slot to which the opcode table's word belongs,
the other slots NOP (assumption log 6, 10). -/
def State.withFetchWord (s : State) (_nbits w : Nat) : State :=
  let word := BitVec.ofNat 32 w
  match tableSlot word with
  | some k => { s with boot := .done, core := s.core.placed (bundleOf k word) }
  | none => s

end Sys2Proof.Machine
end

