-- ==== Sys2Proof/Safety.lean ====
section
/-!
DEFINITION. What counts as a safe run, in the terms that claims use: no stop, memories in canonical form, reachability.
-/
namespace Sys2Proof.Machine

/-- The answer of a step or of a meaning when it goes on. -/
def Goes (r : Result) : Prop := ∃ t, r = .next t

/-- Device memory stands in its canonical form. -/
abbrev State.MemOk (s : State) : Prop := Memory.wf s.mem = true

/-- States that the machine comes to from its state after reset, whatever inputs stand before it. -/
inductive Reachable : State → Prop where
  | start (inputs : List Input) : Reachable { State.reset with inputs := inputs }
  | step (s t : State) (h : Reachable s) (hs : Machine.step s = .next t) : Reachable t

/-- A safe run: every step of it goes on, and every state of it keeps its memory canonical. -/
def Safe (s : State) : Prop := s.MemOk ∧ Goes (Machine.step s)

end Sys2Proof.Machine
end

