-- ==== Sys2Proof/Certificates/Slice0/Obligations.lean ====
section
/-!
DEFINITION. The statements for the provers, and the tables of the spec that they speak in. Each obligation is the conjunction of parts
that stand above it, each with the rules that it formalises.
-/
namespace Sys2Proof.Claims

open Sys2Proof.Machine

/-! ## What a statement says of the state after an instruction -/

/-- Nothing but private registers of the issuing context differ; every byte of device memory and of the scratchpad reads as before. -/
structure OnlyRegs (s t : State) : Prop where
  rest : t = s.mapRegs fun _ => t.ctx.regs
  mem : ∀ a, Memory.read t.mem a = Memory.read s.mem a
  spad : ∀ a, Memory.read t.core.spad a = Memory.read s.core.spad a

/-- Nothing but the registers that all contexts share differ; every byte of device memory and of the scratchpad reads as before. -/
structure OnlyShared (s t : State) : Prop where
  rest : t = s.mapSh fun _ => t.core.sh
  mem : ∀ a, Memory.read t.mem a = Memory.read s.mem a
  spad : ∀ a, Memory.read t.core.spad a = Memory.read s.core.spad a

/-- Scalar register `d` takes `v`, unless it is `s0`, which discards it (R23); no other register of any kind changes, and nothing else. -/
structure OneScalar (s t : State) (d : BitVec 6) (v : Word) : Prop where
  value : t.ctx.regs.sreg d = if d = 0 then 0 else v
  others : ∀ j, j ≠ d → t.ctx.regs.sreg j = s.ctx.regs.sreg j
  preds : t.ctx.regs.p = s.ctx.regs.p
  targets : t.ctx.regs.b = s.ctx.regs.b
  counters : t.ctx.regs.dc = s.ctx.regs.dc
  frame : OnlyRegs s t

/-- Predicate `d` takes `v`, unless it is `p0`, which stays true (R23); no other register changes, and nothing else. -/
structure OnePred (s t : State) (d : BitVec 6) (v : Bool) : Prop where
  value : t.ctx.regs.preg d = (v || d = 0)
  others : ∀ j, j ≠ d → t.ctx.regs.preg j = s.ctx.regs.preg j
  scalars : t.ctx.regs.s = s.ctx.regs.s
  targets : t.ctx.regs.b = s.ctx.regs.b
  counters : t.ctx.regs.dc = s.ctx.regs.dc
  frame : OnlyRegs s t

/-- The predicate pair `2k`, `2k + 1` takes `x` and `y`, but for `p0`, which stays true; no other register changes, and nothing else. -/
structure PredPair (s t : State) (k : BitVec 5) (x y : Bool) : Prop where
  even : t.ctx.regs.preg (k ++ 0#1) = (x || k = 0)
  odd : t.ctx.regs.preg (k ++ 1#1) = y
  others : ∀ j, j.extractLsb' 1 5 ≠ k → t.ctx.regs.preg j = s.ctx.regs.preg j
  scalars : t.ctx.regs.s = s.ctx.regs.s
  targets : t.ctx.regs.b = s.ctx.regs.b
  counters : t.ctx.regs.dc = s.ctx.regs.dc
  frame : OnlyRegs s t

/-! ## The scalar tables of chapter 06 -/

/-- The two-operand and one-operand integer forms of R107 but for the four divisions: guard, destination, value. -/
def intResult (s : State) : Instr → Option (Guard × BitVec 6 × Word)
  | .add g d a b => some (g, d, s.sreg a + s.sreg b)
  | .sub g d a b => some (g, d, s.sreg a - s.sreg b)
  | .mul g d a b => some (g, d, s.sreg a * s.sreg b)
  | .mulh g d a b => some (g, d, ((s.sreg a).signExtend 128 * (s.sreg b).signExtend 128).extractLsb' 64 64)
  | .mulhz g d a b => some (g, d, ((s.sreg a).zeroExtend 128 * (s.sreg b).zeroExtend 128).extractLsb' 64 64)
  | .and g d a b => some (g, d, s.sreg a &&& s.sreg b)
  | .andn g d a b => some (g, d, s.sreg a &&& ~~~(s.sreg b))
  | .or g d a b => some (g, d, s.sreg a ||| s.sreg b)
  | .xor g d a b => some (g, d, s.sreg a ^^^ s.sreg b)
  | .shl g d a b => some (g, d, s.sreg a <<< (s.sreg b).extractLsb' 0 6)
  | .shli g d a n => some (g, d, s.sreg a <<< n)
  | .shr g d a b => some (g, d, s.sreg a >>> (s.sreg b).extractLsb' 0 6)
  | .shri g d a n => some (g, d, s.sreg a >>> n)
  | .sar g d a b => some (g, d, BitVec.ofInt 64 ((s.sreg a).toInt / 2 ^ ((s.sreg b).extractLsb' 0 6).toNat))
  | .sari g d a n => some (g, d, BitVec.ofInt 64 ((s.sreg a).toInt / 2 ^ n.toNat))
  | .rotr g d a b => some (g, d, (s.sreg a).rotateRight ((s.sreg b).extractLsb' 0 6).toNat)
  | .rotrImm g d a n => some (g, d, (s.sreg a).rotateRight n.toNat)
  | .min g d a b => some (g, d, if (s.sreg b).slt (s.sreg a) then s.sreg b else s.sreg a)
  | .minz g d a b => some (g, d, if (s.sreg b).ult (s.sreg a) then s.sreg b else s.sreg a)
  | .max g d a b => some (g, d, if (s.sreg b).slt (s.sreg a) then s.sreg a else s.sreg b)
  | .maxz g d a b => some (g, d, if (s.sreg b).ult (s.sreg a) then s.sreg a else s.sreg b)
  | .clz g d a => some (g, d, (s.sreg a).clz)
  | .ctz g d a => some (g, d, (s.sreg a).ctz)
  | .popc g d a => some (g, d, (s.sreg a).cpop)
  | _ => none

/-- The four divisions with the borderline cases of R108. -/
def divResult (s : State) : Instr → Option (Guard × BitVec 6 × Word)
  | .div g d a b => some (g, d, if s.sreg b = 0 then -1 else (s.sreg a).sdiv (s.sreg b))
  | .divz g d a b => some (g, d, if s.sreg b = 0 then -1 else s.sreg a / s.sreg b)
  | .rem g d a b => some (g, d, if s.sreg b = 0 then s.sreg a else (s.sreg a).srem (s.sreg b))
  | .remz g d a b => some (g, d, if s.sreg b = 0 then s.sreg a else s.sreg a % s.sreg b)
  | _ => none

/-- Position and width of the field that `sb` names (R109). -/
def fieldPos (b : Word) : Nat := (b.extractLsb' 0 6).toNat
def fieldWid (b : Word) : Nat := min (b.extractLsb' 8 7).toNat (64 - fieldPos b)

/-- What BFX, BFXZ and BFI leave in each bit `j` of their destination (R109); `old` is the destination before. -/
def fieldBit (s : State) (old : Word) : Instr → Nat → Option Bool
  | .bfx _ _ a b, j =>
    let p := fieldPos (s.sreg b)
    let w := fieldWid (s.sreg b)
    some (decide (w ≠ 0) && (s.sreg a).getLsbD (p + min j (w - 1)))
  | .bfxz _ _ a b, j =>
    let p := fieldPos (s.sreg b)
    some (decide (j < fieldWid (s.sreg b)) && (s.sreg a).getLsbD (p + j))
  | .bfi _ _ a b, j =>
    let p := fieldPos (s.sreg b)
    some (if p ≤ j ∧ j < p + fieldWid (s.sreg b) then (s.sreg a).getLsbD (j - p) else old.getLsbD j)
  | _, _ => none

/-- Guard and destination of BFX, BFXZ and BFI. -/
def fieldDest : Instr → Option (Guard × BitVec 6)
  | .bfx g d _ _ => some (g, d)
  | .bfxz g d _ _ => some (g, d)
  | .bfi g d _ _ => some (g, d)
  | _ => none

/-- The immediate forms of R111 and R112. -/
def immResult (s : State) : Instr → Option (Guard × BitVec 6 × Word)
  | .addi g d a i => some (g, d, s.sreg a + i.signExtend 64)
  | .andi g d a i => some (g, d, s.sreg a &&& i.signExtend 64)
  | .ori g d a i => some (g, d, s.sreg a ||| i.signExtend 64)
  | .xori g d a i => some (g, d, s.sreg a ^^^ i.signExtend 64)
  | .lea g d a i => some (g, d, s.sreg a + i.signExtend 64 <<< 8)
  | .movi g d i => some (g, d, i.signExtend 64)
  | .movhi g d i => some (g, d, (s.sreg d).extractLsb' 0 51 ++ i)
  | _ => none

/-- The integer compares of R113: guard, pair, X, condition. -/
def compareOf (s : State) : Instr → Option (Guard × BitVec 5 × BitVec 1 × Bool)
  | .cmpEq g k x a b => some (g, k, x, s.sreg a == s.sreg b)
  | .cmpiEq g k x a i => some (g, k, x, s.sreg a == i.signExtend 64)
  | .cmpNe g k x a b => some (g, k, x, s.sreg a != s.sreg b)
  | .cmpiNe g k x a i => some (g, k, x, s.sreg a != i.signExtend 64)
  | .cmpLt g k x a b => some (g, k, x, (s.sreg a).slt (s.sreg b))
  | .cmpiLt g k x a i => some (g, k, x, (s.sreg a).slt (i.signExtend 64))
  | .cmpLe g k x a b => some (g, k, x, (s.sreg a).sle (s.sreg b))
  | .cmpiLe g k x a i => some (g, k, x, (s.sreg a).sle (i.signExtend 64))
  | .cmpGt g k x a b => some (g, k, x, (s.sreg b).slt (s.sreg a))
  | .cmpiGt g k x a i => some (g, k, x, BitVec.slt (i.signExtend 64) (s.sreg a))
  | .cmpGe g k x a b => some (g, k, x, (s.sreg b).sle (s.sreg a))
  | .cmpiGe g k x a i => some (g, k, x, BitVec.sle (i.signExtend 64) (s.sreg a))
  | .cmpLo g k x a b => some (g, k, x, (s.sreg a).ult (s.sreg b))
  | .cmpiLo g k x a i => some (g, k, x, (s.sreg a).ult (i.signExtend 64))
  | .cmpLs g k x a b => some (g, k, x, (s.sreg a).ule (s.sreg b))
  | .cmpiLs g k x a i => some (g, k, x, (s.sreg a).ule (i.signExtend 64))
  | .cmpHi g k x a b => some (g, k, x, (s.sreg b).ult (s.sreg a))
  | .cmpiHi g k x a i => some (g, k, x, BitVec.ult (i.signExtend 64) (s.sreg a))
  | .cmpHs g k x a b => some (g, k, x, (s.sreg b).ule (s.sreg a))
  | .cmpiHs g k x a i => some (g, k, x, BitVec.ule (i.signExtend 64) (s.sreg a))
  | _ => none

/-- The predicate-logic forms of R114. -/
def logicOf (s : State) : Instr → Option (Guard × BitVec 6 × Bool)
  | .pand g d a b => some (g, d, s.preg a && s.preg b)
  | .pandn g d a b => some (g, d, s.preg a && !s.preg b)
  | .por g d a b => some (g, d, s.preg a || s.preg b)
  | .pxor g d a b => some (g, d, xor (s.preg a) (s.preg b))
  | _ => none

/-! ## Special registers (R36 to R39) -/

/-- The coded state of the neighbour in direction `d` (R39): fused off and fenced as the tile's watch map says, suspect as its vote record
says, but live while a suspicion that was there at member creation lasts. -/
def neighbourCode (s : State) (d : BitVec 2) : BitVec 2 :=
  let m := s.mapAt s.coreTile (neighbour s.coreTile d)
  let v := ((s.trellisAt s.coreTile).votes.read d).state
  if m.fused then 3 else if m.fenced then 2 else if v = 1 ∧ s.core.bornSuspect.getLsbD d.toNat then 0 else v

/-- The coded state of a tail (R38). -/
def tailCode : CtxRun → BitVec 2
  | .free => 0
  | .running => 1
  | .ended => 2

/-- What MFS reads for each number of R36. -/
def specialRead (s : State) (n : BitVec 8) : Option Word :=
  let r := s.core.cur.preSh
  let t := s.coreTile
  let w := s.mapAt t t
  match n.toNat with
  | 0x00 => some (0#32 ++ r.frm)
  | 0x01 => some r.seed
  | 0x02 => some (0#32 ++ r.efmt)
  | 0x04 => some s.core.sched
  | 0x05 => some s.core.cyc
  | 0x06 => some (match r.loops with | [] => 0 | l :: _ => 0#32 ++ l.left)
  | 0x08 => some (0#51 ++ s.core.rank)
  | 0x09 => some (0#32 ++ s.core.team)
  | 0x0A => some (BitVec.ofNat 64 (t.toNat % 16 / 2 + 8 * (t.toNat / 32)))
  | 0x0B => some (0#57 ++ t)
  | 0x0C => some (BitVec.ofNat 64 (t.toNat % 16 / 8 + 2 * (t.toNat / 64)))
  | 0x0D => some (0#58 ++ Config.pkgId)
  | 0x0E => some (0#48 ++ Config.podId)
  | 0x0F => some (0#56 ++ s.core.asid)
  | 0x10 => some (0#32 ++ s.core.ckey)
  | 0x11 => some (0#48 ++ s.core.cur.ctx ++ 0#5 ++ BitVec.ofBool s.core.inlineBit ++ 0#4 ++ tailCode s.core.tail1.run ++ tailCode s.core.tail0.run)
  | 0x12 => some (0#40 ++ match s.core.frame0, s.core.frame1 with
      | some a, some b => if b.base.ult a.base then b.base else a.base
      | some a, none => a.base
      | none, some b => b.base
      | none, none => 0x200000#24)
  | 0x13 => some (0#53 ++ BitVec.ofBool w.isolated ++ BitVec.ofNat 2 (min w.strikes.length 2) ++ neighbourCode s 3 ++ neighbourCode s 2 ++
      neighbourCode s 1 ++ neighbourCode s 0)
  | 0x14 => some r.mready
  | 0x15 => some r.mstale
  | 0x16 => some r.merr
  | _ => none

/-- `FRM` after an MTS of `x` in a bundle whose other slots raised `fl`, where it was `old` (R37). -/
def frmAfter (old fl : BitVec 32) (x : Word) : BitVec 32 :=
  0#21 ++ (x.extractLsb' 4 7 ||| fl.extractLsb' 4 7) ++ 0#1 ++
    if 5 ≤ (x.extractLsb' 0 3).toNat then old.extractLsb' 0 3 else x.extractLsb' 0 3

/-- What an MTS of `x` to the register numbered `n` leaves in the shared registers (R36, R37, R62). -/
def specialWritten (s : State) (n : BitVec 8) (x : Word) (r : Shared) : Shared :=
  if n = 0 then { r with frm := frmAfter s.core.cur.preSh.frm s.core.cur.flags x }
  else if n = 1 then { r with seed := if x = 0 then 1 else x }
  else r

/-! ## Scalar floating point (R115 to R117) -/

/-- One step of the generator of R62. -/
def xorshift (x : Word) : Word :=
  let a := x ^^^ (x <<< 13)
  let b := a ^^^ (a >>> 7)
  b ^^^ (b <<< 17)

/-- The rounding mode of one element and the generator after it (R37, R62). -/
def roundingOf (frm : BitVec 32) (seed : Word) : RMode × Word :=
  let rm := frm.extractLsb' 0 3
  if rm = 4 then (.sto ((xorshift seed).extractLsb' 48 16).toNat, xorshift seed)
  else (if rm = 1 then .rtz else if rm = 2 then .rup else if rm = 3 then .rdn else .rne, seed)

/-- Scalar register `d` takes `v`, the flags `fl` are ORed into `FRM` and the generator becomes `seed`; nothing else changes. -/
structure FloatWrite (s t : State) (d : BitVec 6) (v : Word) (fl : BitVec 32) (seed : Word) : Prop where
  value : t.ctx.regs.sreg d = if d = 0 then 0 else v
  others : ∀ j, j ≠ d → t.ctx.regs.sreg j = s.ctx.regs.sreg j
  preds : t.ctx.regs.p = s.ctx.regs.p
  targets : t.ctx.regs.b = s.ctx.regs.b
  counters : t.ctx.regs.dc = s.ctx.regs.dc
  frm : t.core.sh.frm = s.core.sh.frm ||| fl
  bundle : t.core.cur.flags = s.core.cur.flags ||| fl
  seed : t.core.sh.seed = seed
  rest : t = ((s.mapSh fun r => { r with frm := t.core.sh.frm, seed := t.core.sh.seed }).mapCur fun i => { i with flags := t.core.cur.flags }).mapRegs
    fun _ => t.ctx.regs
  mem : ∀ a, Memory.read t.mem a = Memory.read s.mem a
  spad : ∀ a, Memory.read t.core.spad a = Memory.read s.core.spad a

/-- The value of a scalar register in a format: bits above the format are ignored (R115). -/
def fpReg (s : State) (f : Fmt) (i : BitVec 6) : FVal := f.decode ((s.sreg i).toNat % 2 ^ (1 + f.eb + f.fb))

/-- FADD, FSUB, FMUL and FFMA (R115): guard, destination, format, and the result before it is rounded, with the flag of an invalid
operation. -/
def fpExact (s : State) (rm : RMode) : Instr → Option (Guard × BitVec 6 × Fmt × FVal × BitVec 32)
  | .faddH g d a b => some (g, d, ⟨5, 10⟩, FVal.add rm (fpReg s ⟨5, 10⟩ a) (fpReg s ⟨5, 10⟩ b))
  | .faddF g d a b => some (g, d, ⟨8, 23⟩, FVal.add rm (fpReg s ⟨8, 23⟩ a) (fpReg s ⟨8, 23⟩ b))
  | .faddD g d a b => some (g, d, ⟨11, 52⟩, FVal.add rm (fpReg s ⟨11, 52⟩ a) (fpReg s ⟨11, 52⟩ b))
  | .fsubH g d a b => some (g, d, ⟨5, 10⟩, FVal.add rm (fpReg s ⟨5, 10⟩ a) (fpReg s ⟨5, 10⟩ b).negate)
  | .fsubF g d a b => some (g, d, ⟨8, 23⟩, FVal.add rm (fpReg s ⟨8, 23⟩ a) (fpReg s ⟨8, 23⟩ b).negate)
  | .fsubD g d a b => some (g, d, ⟨11, 52⟩, FVal.add rm (fpReg s ⟨11, 52⟩ a) (fpReg s ⟨11, 52⟩ b).negate)
  | .fmulH g d a b => some (g, d, ⟨5, 10⟩, FVal.mul (fpReg s ⟨5, 10⟩ a) (fpReg s ⟨5, 10⟩ b))
  | .fmulF g d a b => some (g, d, ⟨8, 23⟩, FVal.mul (fpReg s ⟨8, 23⟩ a) (fpReg s ⟨8, 23⟩ b))
  | .fmulD g d a b => some (g, d, ⟨11, 52⟩, FVal.mul (fpReg s ⟨11, 52⟩ a) (fpReg s ⟨11, 52⟩ b))
  | .ffmaH g d a b => some (g, d, ⟨5, 10⟩, FVal.fma rm (fpReg s ⟨5, 10⟩ a) (fpReg s ⟨5, 10⟩ b) (fpReg s ⟨5, 10⟩ d))
  | .ffmaF g d a b => some (g, d, ⟨8, 23⟩, FVal.fma rm (fpReg s ⟨8, 23⟩ a) (fpReg s ⟨8, 23⟩ b) (fpReg s ⟨8, 23⟩ d))
  | .ffmaD g d a b => some (g, d, ⟨11, 52⟩, FVal.fma rm (fpReg s ⟨11, 52⟩ a) (fpReg s ⟨11, 52⟩ b) (fpReg s ⟨11, 52⟩ d))
  | _ => none

/-- FMIN and FMAX (R115): guard, destination, format, whether the greater is wanted, and the operands. -/
def fpPick : Instr → Option (Guard × BitVec 6 × Fmt × Bool × BitVec 6 × BitVec 6)
  | .fminH g d a b => some (g, d, ⟨5, 10⟩, false, a, b)
  | .fminF g d a b => some (g, d, ⟨8, 23⟩, false, a, b)
  | .fminD g d a b => some (g, d, ⟨11, 52⟩, false, a, b)
  | .fmaxH g d a b => some (g, d, ⟨5, 10⟩, true, a, b)
  | .fmaxF g d a b => some (g, d, ⟨8, 23⟩, true, a, b)
  | .fmaxD g d a b => some (g, d, ⟨11, 52⟩, true, a, b)
  | _ => none

/-- Whether `x` precedes `y` in the order of R50, where -0 lies below +0. -/
def fpBefore (x y : FVal) : Bool := x.lt y || (x.eqv y && x.isNeg && !y.isNeg)

/-- The operand that R50 returns, as a code of the format. -/
def fpPicked (f : Fmt) (greater : Bool) (x y : Nat) : Nat :=
  let a := f.decode x
  let b := f.decode y
  if a.isNaN && b.isNaN then (2 ^ f.eb - 1) * 2 ^ f.fb + 2 ^ (f.fb - 1)
  else if a.isNaN then y
  else if b.isNaN then x
  else if fpBefore a b then (if greater then y else x) else (if greater then x else y)

/-- The condition that a floating compare tests, and its flag (R116). -/
def fpTest (c : BitVec 2) (x y : FVal) : Bool × BitVec 32 :=
  let nan := x.isNaN || y.isNaN
  let nv := fun (b : Bool) => if b then 0x100#32 else 0#32
  if c = 0 then (!nan && x.eqv y, nv (x.isSignalling || y.isSignalling))
  else if c = 1 then (!nan && x.lt y, nv nan)
  else if c = 2 then (!nan && (x.lt y || x.eqv y), nv nan)
  else (nan, nv (x.isSignalling || y.isSignalling))

/-- FCMP (R116): guard, pair, X, the condition and its flag. -/
def fpCompare (s : State) : Instr → Option (Guard × BitVec 5 × BitVec 1 × Bool × BitVec 32)
  | .fcmpH g k x c a b => some (g, k, x, fpTest c (fpReg s ⟨5, 10⟩ (0#1 ++ a)) (fpReg s ⟨5, 10⟩ (0#1 ++ b)))
  | .fcmpF g k x c a b => some (g, k, x, fpTest c (fpReg s ⟨8, 23⟩ (0#1 ++ a)) (fpReg s ⟨8, 23⟩ (0#1 ++ b)))
  | .fcmpD g k x c a b => some (g, k, x, fpTest c (fpReg s ⟨11, 52⟩ (0#1 ++ a)) (fpReg s ⟨11, 52⟩ (0#1 ++ b)))
  | _ => none

/-- The state with flags raised by the slot in issue (R37). -/
def withFlags (s : State) (fl : BitVec 32) : State :=
  (s.mapSh fun r => { r with frm := r.frm ||| fl }).mapCur fun i => { i with flags := i.flags ||| fl }

/-! ## Instructions that change nothing -/

/-- NOPB, the five NOPs, and XIMM (R85, R91). -/
def idleForm : Instr → Bool
  | .nopb _ _ => true
  | .nopS => true
  | .nopD => true
  | .nopV => true
  | .nopM => true
  | .nopC => true
  | .ximm _ _ => true
  | _ => false

/-! ## The B slot (R104, R121 to R135) -/

/-- Whether a bundle index lies in the image of the resident overlay (R104). -/
def inImage (s : State) (i : Int) : Bool :=
  match s.core.overlay with
  | some o => decide (0 ≤ i ∧ i < o.bundles.length)
  | none => false

/-- IMM9 of slot 0 with the payload of an XIMM that targets slot 0 above it (R85). -/
def imm9Of (s : State) (i : BitVec 9) : Nat :=
  match s.core.cur.ximm with
  | some (k, p) => if k = 0 then p.toNat * 512 + i.toNat else i.toNat
  | none => i.toNat

/-- Whether the issuing context follows the tail column of R106: a tail, or the main context as the inline-mode callee. -/
def tailColumn (s : State) : Bool := s.core.cur.ctx != 0 || s.core.inline.isSome

/-- A taken transfer to bundle `n`: with `link`, `s61` takes the index of the next bundle (R124); with `late`, the target is fetched one
cycle later (R105). -/
def taken (s : State) (n : BitVec 13) (link late : Bool) : State :=
  let ix := s.core.cur.ix.toNat
  let s1 := if link then s.setS 61 (BitVec.ofNat 64 (ix + 1)) else s
  let s2 := if late then s1.mapCtx fun x => { x with fetchAt := s.core.cyc.toNat + 2 } else s1
  s2.mapCur fun c => { c with target := some n, isCall := link || c.isCall }

/-- The transfer of a branch, call or return under a true guard, and of a TREE whose leaf is one of L0 to L3 (R71, R121, R123, R124): its
target, whether it links, whether it is late. -/
def transferOf (s : State) : Instr → Option (Int × Bool × Bool)
  | .br _ g o => if s.guard g then some (s.core.cur.ix.toNat + o.toInt, false, false) else none
  | .call _ g o => if s.guard g then some (s.core.cur.ix.toNat + o.toInt, true, false) else none
  | .callr _ g a => if s.guard g then some ((s.sreg a).toNat, true, true) else none
  | .ret _ g a => if s.guard g then some ((s.sreg a).toNat, false, true) else none
  | .tree _ a b c d =>
    let t := fun (x : BitVec 7) => xor (s.preg (x.extractLsb' 1 6)) (x.getLsbD 0)
    let leaf := fun (k : BitVec 2) => some ((s.core.cur.ix.toNat : Int) + (s.breg k).toInt, false, false)
    if t a then leaf 0 else if t b then leaf 1 else if t c then leaf 2 else if t d then leaf 3 else none
  | _ => none

/-- BR, CALL, CALLR, RET and TREE. -/
def transferForm : Instr → Bool
  | .br _ _ _ => true
  | .call _ _ _ => true
  | .callr _ _ _ => true
  | .ret _ _ _ => true
  | .tree _ _ _ _ _ => true
  | _ => false

/-- The B-slot instructions that only the main context outside inline mode may issue (R106). -/
def mainForm : Instr → Bool
  | .loop _ _ _ _ => true
  | .loopx _ _ _ _ => true
  | .bsel _ _ _ _ => true
  | .yield _ _ _ => true
  | .endMember _ _ => true
  | .relc _ _ _ _ => true
  | .fjoin _ _ _ _ => true
  | _ => false

/-- The product of the six COUNT fields of a descriptor (R34, R126). -/
def nestCount (d : BitVec 512) : Nat :=
  (d.extractLsb' 44 12).toNat * (d.extractLsb' 100 12).toNat * (d.extractLsb' 156 12).toNat * (d.extractLsb' 212 12).toNat *
    (d.extractLsb' 268 12).toNat * (d.extractLsb' 324 12).toNat

/-- LOOP and LOOPX (R126): guard, body length and iteration count. -/
def loopForm (s : State) : Instr → Option (Guard × Nat × Nat)
  | .loop _ g k i => some (g, imm9Of s i, nestCount (s.dreg k))
  | .loopx _ g a i => some (g, imm9Of s i, ((s.sreg a).extractLsb' 0 32).toNat)
  | _ => none

/-- Why a loop whose body ends at `last` does not open (R126): beyond the image, beyond the enclosing body, or a fifth loop. -/
def loopBad (s : State) (last count : Nat) : Bool :=
  let ix := s.core.cur.ix.toNat
  !inImage s last ||
    (match s.core.cur.preSh.loops with
      | [] => false
      | l :: _ => decide (l.first.toNat ≤ ix ∧ ix ≤ l.last.toNat ∧ l.last.toNat < last)) ||
    (count != 0 && decide (4 ≤ s.core.cur.preSh.loops.length))

/-- The issuing context has come to a checkpoint whose restart point is the next bundle; nothing else changes. -/
def reached (s : State) (why : CkWhy) : State :=
  s.mapCtx fun x => { x with ck := some ⟨why, s.core.cur.ix + 1, false, bindSlice (s.bind s.coreTile)⟩ }

/-- The doubleword of scratchpad at `a`. -/
def dword (s : State) (a : Nat) : Word := BitVec.ofNat 64 (Memory.readLE s.core.spad a 8)

/-- The main context's registers after the reload of R128 from `a`, with predicate `pm` at `v`, where the others are those of `r`. -/
structure Reloaded (s : State) (r q : Priv) (a : Nat) (pm : BitVec 6) (v : Bool) : Prop where
  scalars : ∀ j : BitVec 6, q.sreg j = if 40 ≤ j.toNat ∧ j.toNat ≤ 61 then dword s (a + 8 * (j.toNat - 40)) else r.sreg j
  preds : ∀ j : BitVec 6, j.toNat < 48 → j ≠ 0 →
    q.preg j = if j = pm then v else if 32 ≤ j.toNat then (dword s (a + 176)).getLsbD (j.toNat - 32) else r.preg j
  targets : q.b = r.b
  counters : q.dc = r.dc

/-- Tail `k` is context `k + 1`. -/
def tailNumber (k : Bool) : BitVec 2 := if k then 2 else 1
def tailOf (c : Core) (k : Bool) : Ctx := if k then c.tail1 else c.tail0
def frameOf (c : Core) (k : Bool) : Option Frame := if k then c.frame1 else c.frame0

/-- Tail `k` is free again and its frame released (R130). -/
def joined (s : State) (k : Bool) : State :=
  s.mapCore fun c =>
    if k then { c with frame1 := none, tail1 := { c.tail1 with run := .free } }
    else { c with frame0 := none, tail0 := { c.tail0 with run := .free } }

/-- What FJOIN writes when its tail is free or it names no tail (R130). -/
def recordedTop (s : State) : Word :=
  match s.core.latest with
  | some (_, top) => 0#40 ++ top
  | none => s.sreg 62

/-! ## Memory instructions (R187 to R210) -/

/-- The little-endian number of `n` bytes of the local scratchpad from `a`, as LDS extends it (R190). -/
def loaded (s : State) (a n : Nat) (signed : Bool) : Word :=
  let x := Memory.readLE s.core.spad a n
  if signed then (BitVec.ofNat (8 * n) x).signExtend 64 else BitVec.ofNat 64 x

/-- A local scratchpad access of `n` bytes that nothing holds or traps (R187, R188, R190): aligned, inside the local range, and no queued
command against its banks when it is marked may-alias. -/
structure LocalOk (s : State) (va : Word) (n align layout : Nat) (mayAlias : Bool) : Prop where
  aligned : va.toNat % align = 0
  inside : va.toNat + n ≤ 0x200000
  free : mayAlias = true → s.aliasHeld s.coreTile va.toNat n layout = false

/-- The same of an access through the window of member `m` at offset `off`, a member of the issuer's team. -/
structure WindowOk (s : State) (va : Word) (n align layout : Nat) (mayAlias : Bool) (m : BitVec 2) (off : Nat) : Prop where
  aligned : va.toNat % align = 0
  place : va.toNat = 0x800000 + 0x200000 * m.toNat + off
  inside : off + n ≤ 0x200000
  member : s.windowTrap m = none
  free : mayAlias = true → s.aliasHeld (quadMate s.coreTile m) off n layout = false

/-- The bytes of a scratchpad access lie in the local range or in that of one window (R187, R188). -/
def oneRange (va n : Nat) : Prop :=
  va + n ≤ 0x200000 ∨ ∃ w, w < 4 ∧ 0x800000 + 0x200000 * w ≤ va ∧ va + n ≤ 0x800000 + 0x200000 * (w + 1)

/-- A device access whose pages are all cached, that no attribute refuses and that no earlier access holds (R187 to R189, R191). -/
structure DeviceOk (s : State) (va : Word) (n align : Nat) (acc : Access) : Prop where
  aligned : va.toNat % align = 0
  cached : s.firstMiss va.toNat n = none
  allowed : s.firstTrap va.toNat n acc = none
  inOrder : s.accessHeld = false

/-- The state with a request sent: it joins the requests in flight, and its dependence counter, if it has one, rises by one (R84). -/
def sent (s : State) (r : Req) : State :=
  let t := s.mapCore fun c => { c with reqs := c.reqs ++ [r], nextId := c.nextId + 1 }
  match r.dc with
  | some k => t.mapRegs fun p => { p with dc := p.dc.write k (p.dc.read k + 1) }
  | none => t

/-- Nothing but the bytes and poison of the local scratchpad differ. -/
structure OnlySpad (s t : State) : Prop where
  rest : t = s.mapCore fun c => { c with spad := t.core.spad, spadPoison := t.core.spadPoison }
  poison : ∀ p ∈ t.core.spadPoison, p ∈ s.core.spadPoison
  mem : ∀ a, Memory.read t.mem a = Memory.read s.mem a

/-- Vector register `d` takes `x`; no other register changes, and nothing else. -/
structure OneVector (s t : State) (d : BitVec 5) (x : VReg) : Prop where
  value : t.core.sh.v.read d = x
  others : ∀ j, j ≠ d → t.core.sh.v.read j = s.core.sh.v.read j
  shared : t.core.sh = { s.core.sh with v := t.core.sh.v }
  frame : OnlyShared s t

/-- Where byte `a` lies under layout `l` (R194). -/
def placeOf (a l : Nat) : Nat := if l = 0 then a else a ^^^ ((a >>> (6 + 2 * l)) % 16 <<< 4)

/-- The 2,048 bits with byte `j` given by `f`. -/
def bytesAre (x : VBits) (f : Nat → Byte) : Prop := ∀ j, j < 256 → byteOf x j = f j

/-- The elements of an indexed access (R195): element number and address of each active element of width `w` bytes. -/
def elementsOf (s : State) (base : BitVec 6) (idx : VReg) (w : Nat) (m : BitVec 256) : List (Nat × Nat) :=
  ((List.range (256 / w)).filter fun i => m.getLsbD (i * w)).map fun i =>
    (i, (s.sreg base + BitVec.ofNat 64 (leNat (((List.range w).map fun j => byteOf idx.bits (i * w + j))) * w)).toNat)

/-- The byte that the holding buffer's entries hold for a physical address (R40). -/
def heldByte (l : List HEntry) (pa : Nat) : Option Byte :=
  match l.find? fun e => e.pa = BitVec.ofNat 45 (pa - pa % 64) with
  | some e => if e.mask.getLsbD (pa % 64) then some (byteOf e.bytes (pa % 64)) else none
  | none => none

/-- ATOM (R201). -/
def atomOp : Instr → Option (BitVec 4 × Guard × BitVec 6 × BitVec 6 × BitVec 4)
  | .atomAdd g d a q _ => some (0, g, d, a, q)
  | .atomMin g d a q _ => some (1, g, d, a, q)
  | .atomMax g d a q _ => some (2, g, d, a, q)
  | .atomMinz g d a q _ => some (3, g, d, a, q)
  | .atomMaxz g d a q _ => some (4, g, d, a, q)
  | .atomAnd g d a q _ => some (5, g, d, a, q)
  | .atomOr g d a q _ => some (6, g, d, a, q)
  | .atomXor g d a q _ => some (7, g, d, a, q)
  | .atomXchg g d a q _ => some (8, g, d, a, q)
  | .atomCas g d a q _ => some (9, g, d, a, q)
  | _ => none

/-- The irrevocable device operations (R199): guard, address, bytes, alignment, kind of access, and the request without its SC mark. -/
def irrevocableOf (s : State) (i : Instr) : Option (Guard × Word × Nat × Nat × Access × Req) :=
  let once := fun (op : BitVec 2) (g : Guard) (d a : BitVec 6) (q : BitVec 4) =>
    let va := s.sreg a
    some (g, va, 32, 32, Access.once, { s.request (.once op) q with
      dc := some (q.extractLsb' 0 3), va := va, dst := d, x := s.sreg d, y := 0#32 ++ (s.sreg (d + 1)).extractLsb' 0 32,
      pas := s.pieces va.toNat 32, irrev := true })
  let push := fun (c : Bool) (g : Guard) (d a : BitVec 6) =>
    let va := s.sreg a
    some (g, va, 64, 64, Access.queue, { s.request (.push c) 0 with
      va := va, dst := d, x := s.sreg d, y := 0#56 ++ s.core.asid, pas := s.pieces va.toNat 64, irrev := true })
  match atomOp i with
  | some (op, g, d, a, q) =>
    let va := s.sreg a
    some (g, va, 8, 8, .atom, { s.request (.atom op) q with
      dc := some (q.extractLsb' 0 3), va := va, dst := d, x := s.sreg d, y := s.sreg (d + 1), pas := s.pieces va.toNat 8, irrev := true })
  | none =>
    match i with
    | .propose g d a q _ => once 0 g d a q
    | .ocrecycle g d a q _ => once 2 g d a q
    | .pushw g d a => push false g d a
    | .pushwC g d a => push true g d a
    | .popw g d a =>
      let va := s.sreg a
      some (g, va, 64, 64, .queue, { s.request (.pop false) 0 with
        va := va, dst := d, y := 0#56 ++ s.core.asid, pas := s.pieces va.toNat 64, irrev := true })
    | .qpush g d a q =>
      let va := s.sreg a
      some (g, va, 128, 128, .qrec, { s.request (.qpush q) 0 with
        va := va, dst := d, y := 0#56 ++ s.core.asid, pas := s.pieces va.toNat 128, irrev := true })
    | _ => none

/-- Loads of device memory (R191, R193): guard, unit, address, bytes, alignment, class, request kind and destination. -/
def deviceLoadOf (s : State) : Instr → Option (Guard × BitVec 3 × Word × Nat × Nat × BitVec 4 × ReqKind × BitVec 6)
  | .ldg g d a q z e => some (g, 0, s.sreg a, 2 ^ z.toNat, 2 ^ z.toNat, q, .load (2 ^ z.toNat) (e == 1), d)
  | .vldg g v a f q => some (g, s.vunit, s.sreg a, 256, 64, q, .vload f, 0#1 ++ v)
  | _ => none

/-- Stores to device memory (R191, R193): guard, unit, address, bytes, alignment, class, bytes to store, and their mask. -/
def deviceStoreOf (s : State) : Instr → Option (Guard × BitVec 3 × Word × Nat × Nat × BitVec 4 × VBits × BitVec 256)
  | .stg g d a q z => some (g, 0, s.sreg a, 2 ^ z.toNat, 2 ^ z.toNat, q, 0#1984 ++ s.sreg d, BitVec.ofNat 256 (2 ^ 2 ^ z.toNat - 1))
  | .vstg g v a k q => some (g, s.vunit, s.sreg a, 256, 64, q, (s.vreg v).bits, s.lmask k)
  | _ => none

/-- A V-slot instruction, which only the main context outside inline mode may issue (R91, R137). -/
def vectorForm (i : Instr) : Bool := i.homeSlot == some 3 && i != .nopV

/-- An M-slot instruction other than NOP. -/
def matrixForm (i : Instr) : Bool := i.homeSlot == some 5 && i != .nopM

/-! ## The V slots (R136 to R165) -/

/-- The code of element `i` of 256 bytes under a tag: bits 7 and 6 of a T6 element are ignored (R44, R136). -/
def codeOf (b : VBits) (t : BitVec 4) (i : Nat) : Nat :=
  let x := (b.extractLsb' (i * tagW t) (tagW t)).toNat
  if t = 5 then x % 64 else x

/-- The elements below `n` that `act` marks. -/
def marked (act : Nat → Bool) (n : Nat) : List Nat := (List.range n).filter act

/-- The generator after `k` draws (R62). -/
def draws : Nat → Word → Word
  | 0, x => x
  | k + 1, x => draws k (xorshift x)

/-- The rounding mode of an operation's element `i`: in stochastic mode each element computed before it has drawn once (R62, R139). -/
def modeAt (s : State) (rounds : Bool) (act : Nat → Bool) (i : Nat) : RMode :=
  let frm := s.core.cur.preSh.frm
  if !rounds then .rne
  else if frm.extractLsb' 0 3 = 4 then (roundingOf frm (draws (marked act i).length s.core.sh.seed)).1
  else (roundingOf frm s.core.sh.seed).1

/-- Vector register `d` takes the elements that `act` marks from `f`, under its tag, and keeps the others; the flags of the computed elements
are ORed into `FRM`; in stochastic mode an operation that rounds has drawn once for each of them; nothing else changes. -/
structure Lanes (s t : State) (d : BitVec 5) (tag : BitVec 4) (rounds : Bool) (act : Nat → Bool) (f : Nat → RMode → Nat × BitVec 32) : Prop where
  tagged : (t.core.sh.v.read d).tag = tag
  elements : ∀ i, i < 2048 / tagW tag →
    ((t.core.sh.v.read d).bits.extractLsb' (i * tagW tag) (tagW tag)).toNat =
      if act i then (if tag = 5 then (f i (modeAt s rounds act i)).1 % 64 else (f i (modeAt s rounds act i)).1 % 2 ^ tagW tag)
      else ((s.vreg d).bits.extractLsb' (i * tagW tag) (tagW tag)).toNat
  flags : t.core.sh.frm = s.core.sh.frm ||| ((marked act (2048 / tagW tag)).foldl (fun a i => a ||| (f i (modeAt s rounds act i)).2) 0)
  bundle : t.core.cur.flags = s.core.cur.flags ||| ((marked act (2048 / tagW tag)).foldl (fun a i => a ||| (f i (modeAt s rounds act i)).2) 0)
  seed : t.core.sh.seed =
    if rounds && s.core.cur.preSh.frm.extractLsb' 0 3 == 4 then draws (marked act (2048 / tagW tag)).length s.core.sh.seed else s.core.sh.seed
  others : ∀ j, j ≠ d → t.core.sh.v.read j = s.core.sh.v.read j
  rest : t = (s.mapSh fun r => { r with v := t.core.sh.v, frm := t.core.sh.frm, seed := t.core.sh.seed }).mapCur fun c =>
    { c with flags := t.core.cur.flags }
  mem : ∀ a, Memory.read t.mem a = Memory.read s.mem a
  spad : ∀ a, Memory.read t.core.spad a = Memory.read s.core.spad a

/-- A lane-wise operation: what it is guarded by, its destination, whether its sources' tags are accepted, the integer codes that it reads
with their tag, the result's tag, and its elements. -/
structure LaneOp where
  guard : Guard
  dst : BitVec 5
  ok : Bool
  srcTag : BitVec 4
  reads : List Nat
  tag : BitVec 4
  rounds : Bool
  act : Nat → Bool
  elem : Nat → RMode → Nat × BitVec 32

/-- The classes of R137. -/
def isF (t : BitVec 4) : Bool := t == 1 || t == 2 || t == 3
def isI (t : BitVec 4) : Bool := t == 6 || t == 7 || t == 8 || t == 11
def isT (t : BitVec 4) : Bool := t == 4 || t == 5

/-- The elements of width `tagW t` that a lane mask makes active (R136). -/
def activeIn (m : BitVec 256) (t : BitVec 4) (i : Nat) : Bool := m.getLsbD (i * tagW t / 8)

/-- The active codes of a source register. -/
def codesIn (m : BitVec 256) (x : VReg) : List Nat := (marked (activeIn m x.tag) (2048 / tagW x.tag)).map (codeOf x.bits x.tag)

/-- An exact integer result under a tag: saturated for I8, I16 and `.s` with SATF, else wrapped (R138, R54). -/
def intoTag (t : BitVec 4) (efmt : BitVec 32) (sat : Bool) (x : Int) : Nat × BitVec 32 :=
  let lo := (intRange t efmt).1
  let hi := (intRange t efmt).2
  if t == 6 || t == 7 || sat then
    if x < lo then ((lo % 2 ^ tagW t).toNat, 0x200) else if hi < x then ((hi % 2 ^ tagW t).toNat, 0x200) else ((x % 2 ^ tagW t).toNat, 0)
  else ((x % 2 ^ tagW t).toNat, 0)

/-- An F or I operation on two codes of a tag: exact, then rounded once, or narrowed (R138, R139). -/
def arith (t : BitVec 4) (efmt : BitVec 32) (sat : Bool) (fop : RMode → FVal → FVal → FVal × BitVec 32) (iop : Int → Int → Int) (x y : Nat)
    (rm : RMode) : Nat × BitVec 32 :=
  match tagIeee t with
  | some f =>
    let r := fop rm (f.decode x) (f.decode y)
    ((f.ofVal rm r.1).1, (f.ofVal rm r.1).2 ||| r.2)
  | none => intoTag t efmt sat (iop (readInt t efmt x) (readInt t efmt y))

/-- VADD, VSUB, VMUL and their `.s` forms, VFMA, VFMS (R141), and the functions of R143. -/
def arithLanes (s : State) (i : Instr) : Option LaneOp :=
  let e := s.core.cur.preSh.efmt
  let bin := fun (sat : Bool) (fop : RMode → FVal → FVal → FVal × BitVec 32) (iop : Int → Int → Int) (g : Guard) (d a b : BitVec 5)
      (l : BitVec 3) =>
    let x := s.vreg a
    let y := s.vreg b
    some { guard := g, dst := d, ok := x.tag == y.tag && (isI x.tag || (isF x.tag && !sat)), srcTag := x.tag,
           reads := codesIn (s.lmask l) x ++ codesIn (s.lmask l) y, tag := x.tag, rounds := isF x.tag, act := activeIn (s.lmask l) x.tag,
           elem := fun i => arith x.tag e sat fop iop (codeOf x.bits x.tag i) (codeOf y.bits y.tag i) : LaneOp }
  let fused := fun (neg : Bool) (g : Guard) (d a b : BitVec 5) (l : BitVec 3) =>
    let x := s.vreg a
    let y := s.vreg b
    let z := s.vreg d
    some { guard := g, dst := d, ok := x.tag == y.tag && z.tag == x.tag && isF x.tag, srcTag := 0, reads := [], tag := x.tag, rounds := true,
           act := activeIn (s.lmask l) x.tag,
           elem := fun i rm => match tagIeee x.tag with
             | some f =>
               let p := f.decode (codeOf x.bits x.tag i)
               let r := FVal.fma rm (if neg then p.negate else p) (f.decode (codeOf y.bits y.tag i)) (f.decode (codeOf z.bits z.tag i))
               ((f.ofVal rm r.1).1, (f.ofVal rm r.1).2 ||| r.2)
             | none => (0, 0) : LaneOp }
  let fn := fun (op : FnOp) (g : Guard) (d a : BitVec 5) (l : BitVec 3) =>
    let x := s.vreg a
    some { guard := g, dst := d, ok := isF x.tag, srcTag := 0, reads := [], tag := x.tag, rounds := true, act := activeIn (s.lmask l) x.tag,
           elem := fun i rm => match tagIeee x.tag with
             | some f => f.fn op rm (f.decode (codeOf x.bits x.tag i))
             | none => (0, 0) : LaneOp }
  match i with
  | .vadd g d a b l => bin false FVal.add (· + ·) g d a b l
  | .vaddS g d a b l => bin true FVal.add (· + ·) g d a b l
  | .vsub g d a b l => bin false (fun rm x y => FVal.add rm x y.negate) (· - ·) g d a b l
  | .vsubS g d a b l => bin true (fun rm x y => FVal.add rm x y.negate) (· - ·) g d a b l
  | .vmul g d a b l => bin false (fun _ x y => FVal.mul x y) (· * ·) g d a b l
  | .vmulS g d a b l => bin true (fun _ x y => FVal.mul x y) (· * ·) g d a b l
  | .vfma g d a b l => fused false g d a b l
  | .vfms g d a b l => fused true g d a b l
  | .vrcp g d a l => fn .rcp g d a l
  | .vrsq g d a l => fn .rsq g d a l
  | .vexp2 g d a l => fn .exp2 g d a l
  | .vlog2 g d a l => fn .log2 g d a l
  | _ => none

/-- VMIN, VMAX, VABS, VNEG (R141, R142), the logic and shifts of R144, and VSEL (R146). None of them rounds. -/
def plainLanes (s : State) (i : Instr) : Option LaneOp :=
  let e := s.core.cur.preSh.efmt
  let pick := fun (greater : Bool) (g : Guard) (d a b : BitVec 5) (l : BitVec 3) =>
    let x := s.vreg a
    let y := s.vreg b
    some { guard := g, dst := d, ok := x.tag == y.tag && (isF x.tag || isI x.tag || isT x.tag), srcTag := x.tag,
           reads := codesIn (s.lmask l) x ++ codesIn (s.lmask l) y, tag := x.tag, rounds := false, act := activeIn (s.lmask l) x.tag,
           elem := fun i _ => pickElem greater x.tag e (codeOf x.bits x.tag i) (codeOf y.bits y.tag i) : LaneOp }
  let sign := fun (neg : Bool) (g : Guard) (d a : BitVec 5) (l : BitVec 3) (m : BitVec 1) =>
    let x := s.vreg a
    some { guard := g, dst := d, ok := isI x.tag || ((isF x.tag || isT x.tag) && m == 0), srcTag := x.tag, reads := codesIn (s.lmask l) x,
           tag := x.tag, rounds := false, act := activeIn (s.lmask l) x.tag,
           elem := fun i _ => signElem neg (m == 1) x.tag e (codeOf x.bits x.tag i) : LaneOp }
  let bits := fun (onlyI : Bool) (op : Nat → Nat → Nat → Nat) (g : Guard) (d a b : BitVec 5) (l : BitVec 3) =>
    let x := s.vreg a
    let y := s.vreg b
    some { guard := g, dst := d, ok := x.tag == y.tag && (!onlyI || isI x.tag), srcTag := 0, reads := [], tag := x.tag, rounds := false,
           act := activeIn (s.lmask l) x.tag,
           elem := fun i _ => (op (tagW x.tag) (codeOf x.bits x.tag i) (codeOf y.bits y.tag i), 0) : LaneOp }
  match i with
  | .vmin g d a b l => pick false g d a b l
  | .vmax g d a b l => pick true g d a b l
  | .vabs g d a l m => sign false g d a l m
  | .vneg g d a l m => sign true g d a l m
  | .vand g d a b l => bits false (fun _ x y => x &&& y) g d a b l
  | .vor g d a b l => bits false (fun _ x y => x ||| y) g d a b l
  | .vxor g d a b l => bits false (fun _ x y => x ^^^ y) g d a b l
  | .vshl g d a b l => bits true (fun w x y => x <<< (y % w)) g d a b l
  | .vshr g d a b l => bits true (fun w x y => x >>> (y % w)) g d a b l
  | .vsar g d a b l =>
    bits true (fun w x y => (((BitVec.ofNat w x).toInt / 2 ^ (y % w)) % 2 ^ w).toNat) g d a b l
  | .vsel g d a b l =>
    let x := s.vreg a
    let y := s.vreg b
    some { guard := g, dst := d, ok := x.tag == y.tag, srcTag := 0, reads := [], tag := x.tag, rounds := false, act := fun _ => true,
           elem := fun i _ => (if activeIn (s.lmask l) x.tag i then codeOf x.bits x.tag i else codeOf y.bits y.tag i, 0) : LaneOp }
  | _ => none

/-- The value of the scalar operand of VBCAST and VINS into tag `t` (R153). -/
def scalarFor (s : State) (t : BitVec 4) (r : BitVec 6) : Word :=
  match s.core.cur.ximm with
  | some (k, pay) =>
    if k = s.core.cur.slot ∧ r = 0 then
      (if t = 1 then 0#32 ++ pay ++ 0#13 else if t = 8 ∨ t = 11 then pay.signExtend 64 else 0#45 ++ pay)
    else s.sreg r
  | none => s.sreg r

/-- The signed value of the scalar operand of VSLIDE and VIOTA (R153). -/
def signedFor (s : State) (r : BitVec 6) : Word := scalarFor s 11 r

/-- `vhash` of R159. -/
def hash32 (a b : BitVec 32) : BitVec 32 :=
  let h1 := a + ((b <<< 11) ||| (b >>> 21)) * 0x2C1B3C6D
  let h2 := (h1 ^^^ (h1 >>> 15)) * 0x297A2D39
  h2 ^^^ (h2 >>> 12)

/-- The moves of elements (R148, R153 to R159). -/
def moveLanes (s : State) (i : Instr) : Option LaneOp :=
  let plain := fun (g : Guard) (d : BitVec 5) (ok : Bool) (t : BitVec 4) (act : Nat → Bool) (f : Nat → Nat) =>
    some { guard := g, dst := d, ok := ok, srcTag := 0, reads := [], tag := t, rounds := false, act := act, elem := fun i _ => (f i, 0) : LaneOp }
  match i with
  | .vcvtBits g d a f => plain g d true f (fun _ => true) fun i => ((s.vreg a).bits.extractLsb' (i * tagW f) (tagW f)).toNat
  | .vbcast g d f r l =>
    let t := f.extractLsb' 0 4
    plain g d true t (activeIn (s.lmask l) t) fun _ => (scalarFor s t r).toNat
  | .vins g d i r =>
    let t := (s.vreg d).tag
    plain g d true t (fun j => j == i.toNat % (2048 / tagW t)) fun _ => (scalarFor s t r).toNat
  | .vperm g d a b l =>
    let x := s.vreg a
    let y := s.vreg b
    plain g d (x.tag != 9 && (isI y.tag || y.tag == 0) && tagW x.tag == tagW y.tag) x.tag (activeIn (s.lmask l) x.tag) fun i =>
      codeOf x.bits x.tag (codeOf y.bits y.tag i % (2048 / tagW x.tag))
  | .vslide g d a r l =>
    let x := s.vreg a
    plain g d true x.tag (activeIn (s.lmask l) x.tag) fun i =>
      let j := (i : Int) + (signedFor s r).toInt
      if 0 ≤ j ∧ j < (2048 / tagW x.tag : Nat) then codeOf x.bits x.tag j.toNat else 0
  | .vhash g d a b l =>
    let x := s.vreg a
    let y := s.vreg b
    plain g d ((x.tag == 8 || x.tag == 1) && (y.tag == 8 || y.tag == 1)) 8 (activeIn (s.lmask l) 8) fun i =>
      (hash32 (x.bits.extractLsb' (32 * i) 32) (y.bits.extractLsb' (32 * i) 32)).toNat
  | .viota g d f r l =>
    let t := f.extractLsb' 0 4
    plain g d true t (activeIn (s.lmask l) t) fun i => (signedFor s r).toNat + i
  | _ => none

/-- The rounding mode of a converted element: an E8M0 scale, whose conversion draws nothing, rounds by `FRM.RM`, and to nearest even in
stochastic mode, which is the model's choice (R61, log entry 30). -/
def conversionMode (s : State) (t : BitVec 4) (rm : RMode) : RMode :=
  if t = 10 ∧ s.core.cur.preSh.frm.extractLsb' 0 3 ≠ 4 then (roundingOf s.core.cur.preSh.frm 0).1 else rm

/-- A tile read of 256 bytes under the tile's tag (R163). -/
def tileLanes (s : State) (g : Guard) (d : BitVec 5) (b : VBits) (t f : BitVec 4) : LaneOp :=
  let e := s.core.cur.preSh.efmt
  if f = 0 ∨ f = t then
    { guard := g, dst := d, ok := true, srcTag := 0, reads := [], tag := t, rounds := false, act := fun _ => true, elem := fun i _ => (codeOf b t i, 0) }
  else
    { guard := g, dst := d, ok := t != 0 && tagW t == tagW f && convExists t f, srcTag := t,
      reads := (List.range (2048 / tagW t)).map (codeOf b t), tag := f, rounds := convDraws t f, act := fun _ => true,
      elem := fun i rm => convElem t f e (conversionMode s t rm) (codeOf b t i) }

/-- The conversions: VCVT (R147), VSCL (R149), VQNT (R150), the tile reads (R163) and VSKB (R165). -/
def convertLanes (s : State) (i : Instr) : Option LaneOp :=
  let e := s.core.cur.preSh.efmt
  let scale := fun (emax : Int) (g : Guard) (d a : BitVec 5) =>
    let x := s.vreg a
    some { guard := g, dst := d, ok := isF x.tag, srcTag := 0, reads := [], tag := 10, rounds := false, act := fun _ => true,
           elem := fun j _ =>
             if j < 2048 / tagW x.tag / 32 then
               match blockScale emax ((List.range 32).map fun k => readElem x.tag 0 (codeOf x.bits x.tag (32 * j + k))) with
               | some c => (c, 0)
               | none => (255, 0x100)
             else (0, 0) : LaneOp }
  let quant := fun (w : Nat) (f : BitVec 4) (g : Guard) (d a b : BitVec 5) (p : BitVec 3) =>
    let x := s.vreg a
    let y := s.vreg b
    let n := 2048 / tagW x.tag
    some { guard := g, dst := d, ok := isF x.tag && y.tag == 10 && decide (p.toNat < tagW x.tag / 8), srcTag := 0, reads := [], tag := f,
           rounds := true, act := fun j => decide (p.toNat * n ≤ j ∧ j < p.toNat * n + n),
           elem := fun j rm =>
             let k := j - p.toNat * n
             let c := codeOf y.bits y.tag (k / 32)
             if c = 255 then (0, 0) else tapEncode w rm (unscale c (readElem x.tag 0 (codeOf x.bits x.tag k))) : LaneOp }
  match i with
  | .vcvt g d a f p =>
    let x := s.vreg a
    let ws := tagW x.tag
    let wd := tagW f
    let ns := 2048 / ws
    let nd := 2048 / wd
    some { guard := g, dst := d, ok := convExists x.tag f && decide (p.toNat < max ws wd / min ws wd), srcTag := x.tag,
           reads := (List.range (min ns nd)).map fun i => codeOf x.bits x.tag ((if ws < wd then p.toNat * nd else 0) + i),
           tag := f, rounds := convDraws x.tag f,
           act := fun j => if wd < ws then decide (p.toNat * ns ≤ j ∧ j < p.toNat * ns + ns) else decide (j < nd),
           elem := fun j rm => convElem x.tag f e (conversionMode s x.tag rm)
             (codeOf x.bits x.tag (if ws < wd then p.toNat * nd + j else if wd < ws then j - p.toNat * ns else j)) : LaneOp }
  | .vsclT8 g d a => scale 12 g d a
  | .vsclT6 g d a => scale 8 g d a
  | .vqntT8 g d a b p => quant 8 4 g d a b p
  | .vqntT6 g d a b p => quant 6 5 g d a b p
  | .trdr g v t i f => some (tileLanes s g v ((s.treg t).bits.extractLsb' (2048 * i.toNat) 2048) (s.treg t).tag f)
  | .trdc g v t i f =>
    some (tileLanes s g v ((s.treg t).column i.toNat) (s.treg t).tag f)
  | .vskb g d a b =>
    let x := s.vreg a
    let y := s.vreg b
    let lane := fun k => Fmt.decode ⟨8, 23⟩ (codeOf y.bits y.tag k)
    some { guard := g, dst := d, ok := x.tag == 0 && y.tag == 1, srcTag := 0, reads := [], tag := 1, rounds := false, act := fun _ => true,
           elem := fun j _ =>
             if j < 4 then
               sketchBound ((List.range 16).map lane) ((List.range 16).map fun k => lane (16 + k))
                 ((List.range 16).map fun k => codeOf x.bits x.tag (64 * j + 8 + k)) ((List.range 16).map fun k => codeOf x.bits x.tag (64 * j + 24 + k))
             else (0, 0) : LaneOp }
  | _ => none

/-- What a lane-wise operation does: TAG_MISMATCH when its sources' tags are not accepted, SW_TRAP when SUBST is 0 and it reads a reserved code
(R53), else its elements. -/
def LaneLaw (s : State) (i : Instr) (o : LaneOp) : Prop :=
  let bad := s.core.cur.preSh.efmt.extractLsb' 4 2 == 0 && o.reads.any fun c => reservedCode o.srcTag s.core.cur.preSh.efmt c
  (o.ok = false → exec i s = .next (s.raise .tagMismatch 0 0)) ∧
  (o.ok = true → bad = true → exec i s = .next (s.raise .swTrap 0 (1 <<< 36))) ∧
  (o.ok = true → bad = false → ∃ t, exec i s = .next t ∧ Lanes s t o.dst o.tag o.rounds o.act o.elem)

/-- Vector register `d` takes one element `x` of tag `t` in place 0 and zeros elsewhere; flags and generator as given; nothing else changes. -/
structure Reduced (s t : State) (d : BitVec 5) (tag : BitVec 4) (x : Nat) (fl : BitVec 32) (seed : Word) : Prop where
  value : t.core.sh.v.read d = ⟨BitVec.ofNat 2048 (x % 2 ^ tagW tag), tag⟩
  others : ∀ j, j ≠ d → t.core.sh.v.read j = s.core.sh.v.read j
  flags : t.core.sh.frm = s.core.sh.frm ||| fl
  seed : t.core.sh.seed = seed
  rest : t = (s.mapSh fun r => { r with v := t.core.sh.v, frm := t.core.sh.frm, seed := t.core.sh.seed }).mapCur fun c =>
    { c with flags := c.flags ||| fl }

/-- The largest or smallest of codes of a tag by repeated choice (R141, R151), with the flags. -/
def extreme (greater : Bool) (t : BitVec 4) (efmt : BitVec 32) : List Nat → Nat × BitVec 32
  | [] => (pickEmpty greater t efmt, 0)
  | c :: cs => cs.foldl (fun r y => ((pickElem greater t efmt r.1 y).1, r.2 ||| (pickElem greater t efmt r.1 y).2)) (pickElem greater t efmt c c)

/-- Lane mask `d` takes `x`, unless it is `lm0`, which stays all ones (R27); flags as given; nothing else changes. -/
structure OneMask (s t : State) (d : BitVec 3) (x : BitVec 256) (fl : BitVec 32) : Prop where
  value : t.core.sh.lmask d = if d = 0 then BitVec.allOnes 256 else x
  others : ∀ j, j ≠ d → t.core.sh.lmask j = s.core.sh.lmask j
  flags : t.core.sh.frm = s.core.sh.frm ||| fl
  rest : t = (s.mapSh fun r => { r with lm := t.core.sh.lm, frm := t.core.sh.frm }).mapCur fun c => { c with flags := c.flags ||| fl }

/-- The lane-mask logic of R160. -/
def maskLogic (s : State) : Instr → Option (Guard × BitVec 3 × BitVec 256)
  | .lmand g d a b => some (g, d, s.lmask a &&& s.lmask b)
  | .lmandn g d a b => some (g, d, s.lmask a &&& ~~~(s.lmask b))
  | .lmor g d a b => some (g, d, s.lmask a ||| s.lmask b)
  | .lmxor g d a b => some (g, d, s.lmask a ^^^ s.lmask b)
  | .lmnot g d a => some (g, d, ~~~(s.lmask a))
  | _ => none

/-- Tile register `d` takes `x`; nothing else changes. -/
structure OneTile (s t : State) (d : BitVec 2) (x : TReg) : Prop where
  value : t.core.sh.t.read d = x
  others : ∀ j, j ≠ d → t.core.sh.t.read j = s.core.sh.t.read j
  shared : t.core.sh = { s.core.sh with t := t.core.sh.t }
  frame : OnlyShared s t

/-! ## The M slot (R166 to R184) -/

/-- MMA and MMAS (R174, R176): guard, whether sparse, whether overwriting, accumulator, K9, and the formats of A and B. -/
def multiplyForm : Instr → Option (Guard × Bool × Bool × BitVec 2 × BitVec 9 × BitVec 3 × BitVec 3)
  | .mma g c k a b => some (g, false, false, c, k, a, b)
  | .mmaZ g c k a b => some (g, false, true, c, k, a, b)
  | .mmas g c k a b => some (g, true, false, c, k, a, b)
  | .mmasZ g c k a b => some (g, true, true, c, k, a, b)
  | _ => none

/-- Half clocks per k-step by the table of R169: 2c for the formats of A and B. -/
def halfClocks (sparse : Bool) (a b : BitVec 3) : Nat :=
  let wide := decide (4 ≤ a.toNat ∨ 4 ≤ b.toNat)
  match sparse, wide with
  | false, true => 4
  | false, false => if a = 3 ∧ b = 3 then 1 else 2
  | true, true => 2
  | true, false => 1

/-- The tick of the bundle in issue (R75, R171). -/
def tickNow (s : State) : Nat := s.core.sched.toNat + s.core.mOff

/-- Whether a write of accumulator `c` waits for a DRAIN of it (R29). -/
def drainWait (s : State) (c : BitVec 2) : Bool := decide ((s.core.acc.read c).st = .retired) && s.core.drains c

/-- Whether an instruction that reads the given rows of accumulator `c` reads a line whose error is uncorrectable (R380); an empty accumulator
reads as zero (R29). -/
def badLine (s : State) (c : BitVec 2) (rows : BitVec 7 → Prop) : Prop :=
  (s.core.acc.read c).st ≠ .empty ∧ ∃ r, PLine.acc c r ∈ s.core.linePoison ∧ rows r

/-- The entry of a multiplication in the matrix queue, with its start, busy and ready ticks (R169). -/
def multiplyEntry (s : State) (sparse z : Bool) (c : BitVec 2) (k : BitVec 9) (a b : BitVec 3) (m : BitVec 32) : MEntry :=
  let acc := s.core.acc.read c
  let start := max (tickNow s) s.core.mEnd
  let busy := ((k.toNat + 1) * halfClocks sparse a b + 1) / 2
  { kind := if sparse then .mmas else .mma, acc := c, k := k.toNat + 1, af := a, bf := b, efmt := s.core.cur.preSh.efmt,
    base := if z ∨ acc.st = .empty then 0 else acc.bits, lit := m, start := start, busy := busy,
    ready := start + busy + (if a = 2 ∨ a = 3 then 18 else 24), steps := 0, aLines := [], bLines := [], aScales := [], bScales := [],
    flushA := false, flushB := false, mpc := none, phase := s.core.main.phase }

/-- The entry of an MFLUSH: no busy time (R169, R183). -/
def flushEntry (s : State) (fa fb : BitVec 1) (m : Option (BitVec 24)) : MEntry :=
  let start := max (tickNow s) s.core.mEnd
  { kind := .flush, acc := 0, k := 0, af := 0, bf := 0, efmt := 0, base := 0, lit := 0, start := start, busy := 0, ready := start, steps := 0,
    aLines := [], bLines := [], aScales := [], bScales := [], flushA := fa = 1, flushB := fb = 1, mpc := m, phase := s.core.main.phase }

/-- An entry joins the matrix queue; the next one starts after it. -/
def queuedM (s : State) (e : MEntry) : State := s.mapCore fun x => { x with mq := x.mq ++ [e], mEnd := e.start + e.busy }

/-- A write of accumulator `c` will commit at tick `n` from now (R169). -/
def pendingAcc (s : State) (c : BitVec 2) (n : Nat) (w : AccWrite) : State :=
  s.mapCore fun x => { x with apend := x.apend ++ [⟨c, tickNow s + n, w, x.main.phase⟩] }

/-- The destination tag of MPOP (R180), where there is one. -/
def popInto (i32 : Bool) (cv : BitVec 2) : Option (BitVec 4) :=
  match i32, cv.toNat with
  | false, 0 => some 1
  | false, 1 => some 2
  | false, 2 => some 3
  | false, _ => some 4
  | true, 0 => some 8
  | true, 1 => some 7
  | true, 2 => none
  | true, _ => some 6

/-- The code of element `n` of an accumulator (R29). -/
def accCode (a : Acc) (n : Nat) : Nat := (a.bits.extractLsb' (32 * n) 32).toNat

/-! ## The C slots (R211 to R238) -/

/-- The lowest bit and the width of a DSET field (R217). -/
def fieldAt (f : BitVec 5) : Nat × Nat :=
  match f.toNat with
  | 0 => (336, 52)
  | 1 => (388, 52)
  | 2 => (480, 32)
  | 3 => (448, 32)
  | n => if n < 10 then (44 + 56 * (n - 4), 12) else if n < 16 then (56 * (n - 10), 22) else (22 + 56 * (n - 16), 22)

/-- Descriptor `k` takes `x`, whose bits 447 to 440 read as zero (R34); a tail's write is noted; nothing else changes. -/
structure OneDesc (s t : State) (k : BitVec 4) (x : Nat → Bool) : Prop where
  value : ∀ j, j < 512 → (t.core.sh.d.read k).getLsbD j = (x j && !decide (440 ≤ j ∧ j < 448))
  others : ∀ j, j ≠ k → t.core.sh.d.read j = s.core.sh.d.read j
  rest : t = s.mapCore fun c => { c with
    sh := { c.sh with d := t.core.sh.d }
    tailD := if s.core.cur.ctx = 0 then c.tailD else c.tailD ||| BitVec.ofNat 16 (2 ^ k.toNat) }

/-- The same of a mark set; `ms0` stays empty (R33). -/
structure OneSet (s t : State) (k : BitVec 4) (x : BitVec 21) : Prop where
  value : t.core.sh.mset k = if k = 0 then 0 else x
  others : ∀ j, j ≠ k → t.core.sh.mset j = s.core.sh.mset j
  rest : t = s.mapCore fun c => { c with
    sh := { c.sh with ms := t.core.sh.ms }
    tailMs := if s.core.cur.ctx = 0 ∨ k = 0 then c.tailMs else c.tailMs ||| BitVec.ofNat 16 (2 ^ k.toNat) }

/-- A field of a descriptor (R34). -/
def fd (d : BitVec 512) (lo w : Nat) : Nat := (d.extractLsb' lo w).toNat

/-- What every command requires of its descriptor: DEC and QNT in the given lists and LAYOUT 0 to 4 (R218). -/
def descGood (d : BitVec 512) (decs qnts : List Nat) : Bool :=
  decs.contains (fd d 453 2) && qnts.contains (fd d 455 2) && decide (fd d 473 3 < 5)

/-- COUNT 1 in dimensions 1 to 5. -/
def oneRow (d : BitVec 512) : Bool :=
  fd d 100 12 == 1 && fd d 156 12 == 1 && fd d 212 12 == 1 && fd d 268 12 == 1 && fd d 324 12 == 1

/-- The format is FP32, BF16 or FP16. -/
def wideFmt (d : BitVec 512) : Bool := fd d 476 4 == 1 || fd d 476 4 == 2 || fd d 476 4 == 3

/-- A command of a C slot: guard, mark, mark set, snapshots of `dK` and `dK+1` and of its transfer word, whether it is gated by itself,
and whether its descriptor passes the checks of R218. -/
structure CmdForm where
  guard : Guard
  mark : BitVec 6
  set : BitVec 4
  d0 : BitVec 512
  d1 : BitVec 512
  link : Word
  gated : Bool
  ok : Bool

/-- The commands of R221 to R238. -/
def commandOf (s : State) : Instr → Option CmdForm
  | .cpy g d m j e f _ =>
    let x := s.dreg d
    some ⟨g, m, j, x, 0, 0, f == 1, descGood x [0] [0] && decide (fd x 476 4 < 12) && !(e == 1 && f == 1 && fd x 473 3 != 0)⟩
  | .cpym g d m j _ => let x := s.dreg d; some ⟨g, m, j, x, 0, 0, false, descGood x [0] [0] && decide (fd x 476 4 < 12)⟩
  | .cpyq g d m j e f _ =>
    let x := s.dreg d
    some ⟨g, m, j, x, s.dreg (d + 1), 0, f == 1, descGood x [0] [1, 2] && wideFmt x && !(e == 1 && f == 1 && fd x 473 3 != 0)⟩
  | .cpyx g d m j _ f =>
    let x := s.dreg d
    some ⟨g, m, j, x, 0, 0, f == 1,
      descGood x (if s.core.cur.slot = 6 then [1, 2] else [1]) [0] && oneRow x && fd x 461 12 == 0 && !x.getLsbD 452⟩
  | .gath g d m j _ _ => let x := s.dreg d; some ⟨g, m, j, x, s.dreg (d + 1), 0, false, descGood x [3] [0] && oneRow x⟩
  | .feed g d m j _ c _ =>
    let x := s.dreg d
    some ⟨g, m, j, x, 0, 0, false, descGood x [0] [0] && decide (fd x 476 4 < 12) && (c == 0 || wideFmt x)⟩
  | .drain g d m j _ _ => let x := s.dreg d; some ⟨g, m, j, x, 0, 0, false, descGood x [0] [0] && fd x 450 2 == 0 && !x.getLsbD 452⟩
  | .lsend g a m j => some ⟨g, m, j, 0, 0, s.sreg a, false, true⟩
  | .lrecv g a m j => some ⟨g, m, j, 0, 0, s.sreg a, true, true⟩
  | .lrxadd g a m j _ => some ⟨g, m, j, 0, 0, s.sreg a, true, true⟩
  | _ => none

/-- The state with a command accepted (R33, R211): its mark is pending and not ready, and the command, with its snapshots, is last in its
slot's queue; a DRAIN keeps the accumulator as it stands (R76). -/
def accepted (s : State) (i : Instr) (o : CmdForm) : State :=
  let bit := BitVec.ofNat 64 (2 ^ o.mark.toNat)
  let k : Cmd :=
    { id := s.core.nextId, i := i, ctx := s.core.cur.ctx, phase := s.ctx.phase, mphase := s.core.main.phase, mark := o.mark, ms := s.mset o.set,
      d0 := o.d0, d1 := o.d1, link := o.link, efmt := s.core.cur.preSh.efmt,
      gated := o.gated || (marksOf (s.mset o.set)).any fun m => s.core.onlyGated s.core.cur.ctx m, released := false,
      started := false, progress := 0, buf := [], pin := none, err := false, sent := false, done := false, vers := [], flags := 0,
      snap := (match i with | .drain _ _ _ _ a _ => some (s.core.acc.read a) | _ => none), pend := [] }
  s.mapCore fun c =>
    let c1 := { c with
      sh := { c.sh with
        mready := c.sh.mready &&& ~~~bit, mstale := c.sh.mstale &&& ~~~bit, merr := c.sh.merr &&& ~~~bit
        mpend := c.sh.mpend.write o.mark (c.sh.mpend.read o.mark + 1) }
      tailMarks := if s.core.cur.ctx = 0 then c.tailMarks else c.tailMarks ||| bit
      nextId := c.nextId + 1 }
    if s.core.cur.slot = 7 then { c1 with q1 := c1.q1 ++ [k] } else { c1 with q0 := c1.q0 ++ [k] }

/-- The queue that the slot in issue feeds. -/
def slotQueue (s : State) : List Cmd := if s.core.cur.slot = 7 then s.core.q1 else s.core.q0

/-! ## Steps, traps and checkpoints -/

/-- The words of the spec's worked encodings, with their slot and the instruction that each stands for. -/
def workedWords : List (BitVec 3 × BitVec 32 × Instr) :=
  [(6, 0x00099400, .dld .always 3 10), (6, 0x00208840, .cpy .always 1 4 2 0 0 0), (2, 0x00E0828F, .digq .always 4 5 15),
   (0, 0x80050000, .chkpt true .always), (3, 0x00088010, .vadd .always 2 0 1 0), (2, 0x00100020, .waitm .always 4),
   (1, 0x00C9248D, .movi .always 9 0x48D), (0, 0x00018A48, .relc false .always 5 72)]

/-- A memory that keeps its canonical form, with the scratchpads of every core. -/
def MemoriesOk (s : State) : Prop :=
  Memory.wf s.mem = true ∧ Memory.wf s.core.spad = true ∧ ∀ p ∈ s.parked, Memory.wf p.2.spad = true

/-- The slots of a bundle run one after the other, each marked as the slot in issue. -/
def runSlots (s : State) : List (BitVec 3 × Instr) → Option State
  | [] => some s
  | (k, i) :: l =>
    match exec i (s.mapCur fun c => { c with slot := k }) with
    | .next t => runSlots t l
    | _ => none

/-- The slots in the order in which they take effect, with the instruction of each. -/
def inOrder (i : BitVec 3 → Instr) : List (BitVec 3 × Instr) := [3, 4, 1, 2, 5, 6, 7, 0].map fun k => (k, i k)

/-- A slot that has run has met no trap, no hold, no need of a checkpoint, and, in slot 0, no end of the image. -/
def Clean (k : BitVec 3) (u : State) : Prop :=
  u.core.cur.trap = none ∧ u.core.cur.hold = none ∧ u.core.cur.ckBefore = none ∧ (k = 0 → u.fallsOff = false)

/-- The immediates whose form traps whatever the guard are not these (R125, R126, R128, R130, R131, R134). -/
def immediateOk (s : State) : Instr → Bool
  | .loop _ _ _ i => imm9Of s i != 0
  | .loopx _ _ _ i => imm9Of s i != 0
  | .bsel _ _ _ i => imm9Of s i != 0
  | .yield _ _ i => imm9Of s i != 0
  | .relc _ _ _ o => imm9Of s o % 8 == 0
  | .fjoin _ _ _ t => decide (imm9Of s t ≤ 2)
  | .tend _ _ => false
  | .bar _ _ _ _ => !s.ctx.barwOnly
  | _ => true

/-- There is room in the fault ring of a die and nothing waits for it (R342, R386). -/
def ringRoom (s : State) (die : BitVec 2) : Prop := s.ringFull die = false ∧ ∀ w ∈ s.recWait, w.1 ≠ die

/-- The fields of a record that name what happened and where (R385): kind, cause, bundle, address and detail. -/
def recordSays (r : BitVec 512) (kind cause : Nat) (ix : BitVec 13) (addr detail : Word) : Prop :=
  (r.extractLsb' 0 8).toNat = kind ∧ (r.extractLsb' 8 8).toNat = cause ∧ (r.extractLsb' 64 32).toNat = ix.toNat ∧
    r.extractLsb' 128 64 = addr ∧ r.extractLsb' 192 64 = detail

/-- The address that a record of a cause carries: that of the access for ALIGN, SPAD_RANGE, CMP_ACCESS, PROT and FENCED, else zero (R385). -/
def recordAddr (c : Cause) (a : Word) : Word :=
  if c = .align ∨ c = .spadRange ∨ c = .cmpAccess ∨ c = .prot ∨ c = .fenced then a else 0

/-- The member of the core in focus is gone: no context runs, and its core waits for another member. -/
def memberGone (u : State) : Prop :=
  u.core.bound = false ∧ u.core.main.run = .free ∧ u.core.tail0.run = .free ∧ u.core.tail1.run = .free ∧ u.core.q0 = [] ∧ u.core.q1 = []

/-- Record `r` has been posted in the ring of a die: it is the next entry, unless home holds the write (R342, R354, R405, R419). -/
def recordPostedAt (s u : State) (die : BitVec 2) (r : BitVec 512) : Prop :=
  let g := s.rings.read die
  let slot := g.base.toNat + 64 * (g.prod.toNat % g.cap.toNat)
  u.rings = s.rings.write die { g with prod := g.prod + 1, irq := true } ∧
    (s.quiesced slot = false → s.stalls slot = false → ∀ j, j < 64 → Memory.read u.mem (slot + j) = byteOf r j)

/-- The same in the ring of the focused tile's die. -/
def recordPosted (s u : State) (r : BitVec 512) : Prop := recordPostedAt s u (dieOf s.coreTile) r

/-- R107: each integer form but the divisions writes the value of its table to `sd` under a true guard, and changes nothing else. -/
def IntegerResult : Prop :=
  ∀ (s : State) (i : Instr) (g : Guard) (d : BitVec 6) (v : Word),
    intResult s i = some (g, d, v) → s.guard g = true → ∃ t, exec i s = .next t ∧ OneScalar s t d v

/-- R107, R108: each division writes its quotient or remainder, with the borderline results of R108, and changes nothing else. -/
def DivisionResult : Prop :=
  ∀ (s : State) (i : Instr) (g : Guard) (d : BitVec 6) (v : Word),
    divResult s i = some (g, d, v) → s.guard g = true → ∃ t, exec i s = .next t ∧ OneScalar s t d v

/-- R109: each bit of what BFX, BFXZ and BFI write; nothing else changes. -/
def BitFieldResult : Prop :=
  ∀ (s : State) (i : Instr) (g : Guard) (d : BitVec 6),
    fieldDest i = some (g, d) → s.guard g = true →
      ∃ t v, exec i s = .next t ∧ OneScalar s t d v ∧
        ∀ j, j < 64 → fieldBit s (s.sreg d) i j = some (v.getLsbD j)

/-- R111, R112: each immediate form writes its value and changes nothing else. -/
def ImmediateResult : Prop :=
  ∀ (s : State) (i : Instr) (g : Guard) (d : BitVec 6) (v : Word),
    immResult s i = some (g, d, v) → s.guard g = true → ∃ t, exec i s = .next t ∧ OneScalar s t d v

/-- R110: SEL writes `sa` under a true guard and `sb` under a false one, and changes nothing else. -/
def SelectResult : Prop :=
  ∀ (s : State) (g : Guard) (d a b : BitVec 6),
    ∃ t, exec (.sel g d a b) s = .next t ∧ OneScalar s t d (if s.guard g then s.sreg a else s.sreg b)

/-- R113: an integer compare writes its pair under a true guard; under a false one, `.x` writes false to both and `.n` writes nothing. -/
def CompareResult : Prop :=
  ∀ (s : State) (i : Instr) (g : Guard) (k : BitVec 5) (x : BitVec 1) (c : Bool),
    compareOf s i = some (g, k, x, c) → k.toNat < 24 →
      (s.guard g = true → ∃ t, exec i s = .next t ∧ PredPair s t k c (!c)) ∧
      (s.guard g = false → x = 1 → ∃ t, exec i s = .next t ∧ PredPair s t k false false) ∧
      (s.guard g = false → x = 0 → exec i s = .next s)

/-- R114: each predicate-logic form writes its predicate and changes nothing else. -/
def PredicateLogic : Prop :=
  ∀ (s : State) (i : Instr) (g : Guard) (d : BitVec 6) (v : Bool),
    logicOf s i = some (g, d, v) → d.toNat < 48 → s.guard g = true → ∃ t, exec i s = .next t ∧ OnePred s t d v

/-- R36, R118: MFS writes to `sA` the special register that its number names, as it stood before the bundle, and changes nothing else. -/
def SpecialRead : Prop :=
  ∀ (s : State) (g : Guard) (a : BitVec 6) (n : BitVec 8) (v : Word),
    specialRead s n = some v → s.guard g = true → ∃ t, exec (.mfs g a n) s = .next t ∧ OneScalar s t a v

/-- R36, R37, R118: MTS writes `FRM` and `SEED`, is ignored for a listed read-only register, and in a tail takes ILLEGAL_SLOT for `FRM`, `SEED` and
`EFMT` whatever its guard. -/
def SpecialWrite : Prop :=
  ∀ (s : State) (g : Guard) (a : BitVec 6) (n : BitVec 8),
    (s.guard g = true → (s.core.cur.ctx = 0 ∨ 3 ≤ n.toNat) → n.toNat ≤ 0x16 → n ≠ 3 → n ≠ 7 →
      ∃ t, exec (.mts g a n) s = .next t ∧ OnlyShared s t ∧ t.core.sh = specialWritten s n (s.sreg a) s.core.sh) ∧
    (s.core.cur.ctx ≠ 0 → n.toNat < 3 → exec (.mts g a n) s = .next (s.raise .illegalSlot 0 0))

/-- R35, R92, R119: SETEF in the main context queues its value, bit 2 clear, for the third bundle after its own; in a tail it takes
ILLEGAL_SLOT whatever its guard; under a true guard a register value with a reserved field takes ILLEGAL_ENC in either. -/
def SetEngineFormat : Prop :=
  ∀ (s : State) (g : Guard) (v : BitVec 8) (a : BitVec 6),
    (s.core.cur.ctx = 0 → s.guard g = true →
      (∃ t, exec (.setefImm g v) s = .next t ∧ OnlyShared s t ∧
        t.core.sh = { s.core.sh with efmtPend := s.core.sh.efmtPend ++ [(s.core.sched.toNat + 3, v &&& 0xFB)] }) ∧
      (efmtOk ((s.sreg a).extractLsb' 0 8) = true → ∃ t, exec (.setefReg g a) s = .next t ∧ OnlyShared s t ∧
        t.core.sh = { s.core.sh with
          efmtPend := s.core.sh.efmtPend ++ [(s.core.sched.toNat + 3, (s.sreg a).extractLsb' 0 8 &&& 0xFB)] })) ∧
    (s.guard g = true → efmtOk ((s.sreg a).extractLsb' 0 8) = false → exec (.setefReg g a) s = .next (s.raise .illegalEnc 0 0)) ∧
    (s.core.cur.ctx ≠ 0 → exec (.setefImm g v) s = .next (s.raise .illegalSlot 0 0) ∧
      (s.guard g = false ∨ efmtOk ((s.sreg a).extractLsb' 0 8) = true → exec (.setefReg g a) s = .next (s.raise .illegalSlot 0 0)))

/-- R35: a SETEF value queued for bundle number `n` governs the main-context bundles from number `n` on, and the bundles before see the old
value. -/
def EngineFormatTiming : Prop :=
  ∀ (s : State) (l : List (BitVec 3 × Instr)) (n : Nat) (v : BitVec 8),
    s.core.sh.efmtPend = [(n, v)] →
      ((s.begun 0 l).core.cur.preSh.efmt = if n ≤ s.core.sched.toNat then 0#24 ++ v else s.core.sh.efmt) ∧
      ((s.begun 0 l).core.cur.preSh.efmtPend = if n ≤ s.core.sched.toNat then [] else [(n, v)])

/-- R50, R62, R115: FADD, FSUB, FMUL and FFMA write their result rounded once by `FRM.RM`, raise its flags, and draw once on `SEED` in
stochastic mode and not otherwise; nothing else changes. -/
def ScalarFloatArithmetic : Prop :=
  ∀ (s : State) (i : Instr) (g : Guard) (d : BitVec 6) (f : Fmt) (x : FVal) (inv : BitVec 32),
    let r := roundingOf s.core.cur.preSh.frm s.core.sh.seed
    fpExact s r.1 i = some (g, d, f, x, inv) → s.guard g = true →
      ∃ t, exec i s = .next t ∧ FloatWrite s t d (BitVec.ofNat 64 (f.ofVal r.1 x).1) ((f.ofVal r.1 x).2 ||| inv) r.2

/-- R50, R115: FMIN and FMAX return one operand unrounded, a NaN made canonical, order -0 below +0, set NVF for a signalling NaN, and draw
nothing on `SEED`. -/
def ScalarFloatMinMax : Prop :=
  ∀ (s : State) (i : Instr) (g : Guard) (d : BitVec 6) (f : Fmt) (greater : Bool) (a b : BitVec 6),
    fpPick i = some (g, d, f, greater, a, b) → s.guard g = true →
      let x := (s.sreg a).toNat % 2 ^ (1 + f.eb + f.fb)
      let y := (s.sreg b).toNat % 2 ^ (1 + f.eb + f.fb)
      ∃ t, exec i s = .next t ∧ FloatWrite s t d (BitVec.ofNat 64 (fpPicked f greater x y))
        (if (f.decode x).isSignalling || (f.decode y).isSignalling then 0x100 else 0) s.core.sh.seed

/-- R113, R116: FCMP writes its pair and raises its flag under a true guard; under a false one, `.x` writes false to both and `.n` nothing. -/
def ScalarFloatCompare : Prop :=
  ∀ (s : State) (i : Instr) (g : Guard) (k : BitVec 5) (x : BitVec 1) (c : Bool) (fl : BitVec 32),
    fpCompare s i = some (g, k, x, c, fl) → k.toNat < 24 →
      (s.guard g = true → ∃ t, exec i s = .next t ∧ PredPair (withFlags s fl) t k c (!c)) ∧
      (s.guard g = false → x = 1 → ∃ t, exec i s = .next t ∧ PredPair s t k false false) ∧
      (s.guard g = false → x = 0 → exec i s = .next s)

/-- R62, R64, R117: FCVT writes the converted value and raises its flags; it draws on `SEED` only where its row of R64 rounds and the mode is
stochastic; equal T8 codes copy the byte. -/
def ScalarConvert : Prop :=
  ∀ (s : State) (g : Guard) (d a : BitVec 6) (c k : BitVec 3),
    s.guard g = true →
      let r := if (cvtFmt c).draws (cvtFmt k) then roundingOf s.core.cur.preSh.frm s.core.sh.seed else (.rne, s.core.sh.seed)
      let x := if c = 7 ∧ k = 7 then (0#56 ++ (s.sreg a).extractLsb' 0 8, 0) else (cvtFmt k).result r.1 ((cvtFmt c).value (s.sreg a))
      ∃ t, exec (.fcvt g d a c k) s = .next t ∧ FloatWrite s t d x.1 x.2 r.2

/-- R41, R64: an 8-bit tapered code other than NaR, read and written back, is the same code and raises no flag; NaR stays NaR. -/
def TaperedRoundTrip : Prop :=
  ∀ c : BitVec 8, (tapEncode 8 .rne (tapDecode 8 c.toNat)).1 = c.toNat ∧
    (c ≠ 0x80 → (tapEncode 8 .rne (tapDecode 8 c.toNat)).2 = 0)

/-- R85, R91: a NOP of any slot and an XIMM change nothing, whatever their guard. -/
def IdleForms : Prop :=
  ∀ (s : State) (i : Instr), idleForm i = true → exec i s = .next s

/-- R120: SCHK goes on without effect when its operands are equal and takes CHECK_MISMATCH when they differ. -/
def SoftwareCheck : Prop :=
  ∀ (s : State) (g : Guard) (a b : BitVec 6),
    s.guard g = true →
      (exec (.schk g a b) s = .next (if s.sreg a = s.sreg b then s else s.raise .checkMismatch 0 0)) ∧
      (exec (.schkPred g a b) s = .next (if s.preg a = s.preg b then s else s.raise .checkMismatch 0 0))

/-- R71, R104, R121, R123, R124: a taken BR, CALL, CALLR, RET or TREE leaf whose target lies in the image transfers there, with the link
register for calls, and changes nothing else; a target outside the image takes ILLEGAL_ENC with the branch-range detail; without a taken
transfer nothing changes. -/
def Transfers : Prop :=
  ∀ (s : State) (i : Instr), transferForm i = true →
    match transferOf s i with
    | some (n, link, late) =>
      exec i s = .next (if inImage s n then taken s (BitVec.ofInt 13 n) link late else s.raise .illegalEnc 0 (1 <<< 37))
    | none => exec i s = .next s

/-- R92, R106, R125, R126, R128, R130, R134: LOOP, LOOPX, BSEL, YIELD, END, RELC and FJOIN take ILLEGAL_SLOT in a tail and in the
inline-mode callee, and ILLEGAL_ENC before it for an immediate that their rule excludes, whatever their guard. -/
def MainContextOnly : Prop :=
  ∀ (s : State) (i : Instr), mainForm i = true →
    (immediateOk s i = true → tailColumn s = true → exec i s = .next (s.raise .illegalSlot 0 0)) ∧
    (immediateOk s i = false → exec i s = .next (s.raise .illegalEnc 0 0))

/-- R125: BSEL takes the lowest bucket that holds the length, writes the padding positions to `sA` and transfers to `ix + bk`; a length above
eight times the base falls through. -/
def BucketSelect : Prop :=
  ∀ (s : State) (st : Bool) (g : Guard) (a : BitVec 6) (i : BitVec 9),
    tailColumn s = false → imm9Of s i ≠ 0 → s.guard g = true →
      let n := (s.sreg a).toNat
      (∀ k : BitVec 2, n ≤ imm9Of s i * 2 ^ k.toNat → (∀ j : BitVec 2, j.toNat < k.toNat → imm9Of s i * 2 ^ j.toNat < n) →
        inImage s (s.core.cur.ix.toNat + (s.breg k).toInt) = true →
        exec (.bsel st g a i) s = .next (taken (s.setS a (BitVec.ofNat 64 (imm9Of s i * 2 ^ k.toNat - n)))
          (BitVec.ofInt 13 (s.core.cur.ix.toNat + (s.breg k).toInt)) false false)) ∧
      (imm9Of s i * 8 < n → exec (.bsel st g a i) s = .next s)

/-- R126: LOOP and LOOPX push their loop, or skip their body at a count of zero; the cases that R126 names take ILLEGAL_ENC. -/
def LoopOpens : Prop :=
  ∀ (s : State) (i : Instr) (g : Guard) (n count : Nat),
    loopForm s i = some (g, n, count) → tailColumn s = false →
      let last := s.core.cur.ix.toNat + n
      (n = 0 → exec i s = .next (s.raise .illegalEnc 0 0)) ∧
      (n ≠ 0 → s.guard g = false → exec i s = .next s) ∧
      (n ≠ 0 → s.guard g = true → 2 ^ 32 ≤ count → exec i s = .next (s.raise .illegalEnc 0 (1 <<< 38))) ∧
      (n ≠ 0 → s.guard g = true → count < 2 ^ 32 → loopBad s last count = true → exec i s = .next (s.raise .illegalEnc 0 0)) ∧
      (n ≠ 0 → s.guard g = true → count = 0 → loopBad s last count = false →
        exec i s = .next (s.mapCur fun c => { c with skip := some last })) ∧
      (n ≠ 0 → s.guard g = true → count ≠ 0 → count < 2 ^ 32 → loopBad s last count = false →
        ∃ t, exec i s = .next t ∧ OnlyShared s t ∧
          t.core.sh = { s.core.sh with
            loops := ⟨BitVec.ofNat 32 count, BitVec.ofNat 13 (s.core.cur.ix.toNat + 1), BitVec.ofNat 13 last⟩ :: s.core.sh.loops })

/-- R127: at the last bundle of bodies without a taken transfer, the loops that end there and have no iteration left are popped, innermost
first, and the first that has one takes its back-edge. -/
def LoopEnds : Prop :=
  ∀ (s : State), s.core.cur.ctx = 0 → s.core.cur.target = none → s.core.cur.skip = none →
    let ix := s.core.cur.ix.toNat
    let rest := s.core.sh.loops.dropWhile fun l => l.last.toNat == ix && decide (l.left.toNat ≤ 1)
    s.following = match rest with
      | [] => ((ix : Int) + 1, [], false)
      | l :: ls => if l.last.toNat = ix then ((l.first.toNat : Int), { l with left := l.left - 1 } :: ls, true) else ((ix : Int) + 1, l :: ls, false)

/-- R127: a taken transfer out of the innermost body pops it unless it is a call; one into the body, and a call, keep it. -/
def TransfersAndLoops : Prop :=
  ∀ (s : State) (n : BitVec 13) (l : Loop) (ls : List Loop),
    s.core.cur.ctx = 0 → s.core.cur.target = some n → s.core.sh.loops = l :: ls →
      s.following = ((n.toNat : Int), (if s.core.cur.isCall ∨ (l.first ≤ n ∧ n ≤ l.last) then l :: ls else ls), true)

/-- R132, R133, R134, R326: CHKPT in any context, and YIELD and END in the main context, come to a checkpoint that restarts at the next bundle;
YIELD declares its deadline. -/
def CheckpointForms : Prop :=
  ∀ (s : State) (st : Bool) (g : Guard) (n : BitVec 9), s.guard g = true →
    exec (.chkpt st g) s = .next (reached s .chkpt) ∧
    (tailColumn s = false → exec (.endMember st g) s = .next (reached s .endMember)) ∧
    (tailColumn s = false → imm9Of s n ≠ 0 → exec (.yield st g n) s =
      .next ((reached s (.yield (BitVec.ofNat 28 (imm9Of s n)))).mapCore fun c =>
        { c with deadline := some (s.core.cyc.toNat + imm9Of s n * 1024), latePosted := false }))

/-- R135: TRAP takes SW_TRAP and BRK takes BRK, each with its code in DETAIL, and a false guard does nothing. -/
def SoftwareTraps : Prop :=
  ∀ (s : State) (st : Bool) (g : Guard) (c : BitVec 9),
    exec (.trap st g c) s = .next (if s.guard g then s.raise .swTrap 0 (BitVec.ofNat 64 (imm9Of s c * 256)) else s) ∧
    exec (.brk st g c) s = .next (if s.guard g then s.raise .brk 0 (BitVec.ofNat 64 (imm9Of s c * 256)) else s)

/-- R128: a RELC that finds a free tail gives the lowest one the main context's registers, with counters of 0, and the rest of the callee, holds its
frame, reloads the caller's registers, sets `p[pm]` and branches to `s61` with a checkpoint there. The tail's copy is of the working registers, and the
offset is unsigned, which are the model's readings (assumption log 17, 18). -/
def ReleaseToTail : Prop :=
  ∀ (s : State) (st : Bool) (g : Guard) (pm : BitVec 6) (o : BitVec 9) (k : Bool),
    tailColumn s = false → s.guard g = true → imm9Of s o % 8 = 0 → pm.toNat < 48 →
    (∀ j : BitVec 3, s.core.cur.pre.dc.read j = 0) →
    (s.sreg 62).toNat + imm9Of s o + 184 ≤ 0x200000 →
    inImage s (s.sreg 61).toNat = true →
    (tailOf s.core k).run = .free → (k = true → s.core.tail0.run ≠ .free) →
      let a := (s.sreg 62).toNat + imm9Of s o
      ∃ t, exec (.relc st g pm o) s = .next t ∧
        (tailOf t.core k).run = .running ∧ (tailOf t.core k).regs = { s.core.main.regs with dc := Bank.fill 3 0 } ∧ (tailOf t.core k).ix = s.core.cur.ix + 1 ∧
        tailOf t.core (!k) = tailOf s.core (!k) ∧
        frameOf t.core k = some ⟨(s.sreg 62).extractLsb' 0 24, BitVec.ofNat 24 (a + 184)⟩ ∧ frameOf t.core (!k) = frameOf s.core (!k) ∧
        t.core.latest = some (some k, BitVec.ofNat 24 (a + 184)) ∧ t.core.inlineBit = false ∧
        Reloaded s s.core.main.regs t.core.main.regs a pm true ∧
        t.core.main.ck = some ⟨.relc, (s.sreg 61).extractLsb' 0 13, false, bindSlice (s.bind s.coreTile)⟩ ∧
        t.core.cur.target = some ((s.sreg 61).extractLsb' 0 13) ∧
        t.core.sh = s.core.sh ∧ t.mem = s.mem ∧ t.core.spad = s.core.spad ∧ t.core.acc = s.core.acc

/-- R128, R129: a RELC that finds no free tail records the callee for inline mode, with `s1` to `s8` and `p1` to `p4` as the bundle leaves
them, and comes to a checkpoint at the next bundle; no register changes. That the record takes these registers after the bundle's other slots, and
that the offset is unsigned, are the model's readings (assumption log 17, 18). -/
def ReleaseInline : Prop :=
  ∀ (s : State) (st : Bool) (g : Guard) (pm : BitVec 6) (o : BitVec 9),
    tailColumn s = false → s.guard g = true → imm9Of s o % 8 = 0 →
    (∀ j : BitVec 3, s.core.cur.pre.dc.read j = 0) →
    (s.sreg 62).toNat + imm9Of s o + 184 ≤ 0x200000 →
    inImage s (s.core.cur.ix.toNat + 1) = true →
    s.core.tail0.run ≠ .free → s.core.tail1.run ≠ .free →
      let a := (s.sreg 62).toNat + imm9Of s o
      let q := s.core.main.regs
      exec (.relc st g pm o) s = .next ((reached s .relc).mapCore fun c => { c with
        inline := some ⟨BitVec.ofNat 24 a, s.sreg 61, pm, [q.sreg 1, q.sreg 2, q.sreg 3, q.sreg 4, q.sreg 5, q.sreg 6, q.sreg 7, q.sreg 8], q.p.extractLsb' 1 4⟩
        latest := some (none, BitVec.ofNat 24 (a + 184))
        inlineBit := true })

/-- R130: FJOIN of an ended tail whose accesses have performed frees it, releases its frame and writes the frame's top; of a free tail, or of
`latest` without a tail, it writes the recorded top; of a running tail it holds. -/
def JoinTail : Prop :=
  ∀ (s : State) (st : Bool) (g : Guard) (d : BitVec 6) (n : BitVec 9) (k : Bool),
    tailColumn s = false → s.guard g = true →
    (imm9Of s n = 2 → (∀ k top, s.core.latest ≠ some (some k, top)) → ∃ t, exec (.fjoin st g d n) s = .next t ∧ OneScalar s t d (recordedTop s)) ∧
    (((imm9Of s n = 0 ∧ k = false) ∨ (imm9Of s n = 1 ∧ k = true) ∨ (imm9Of s n = 2 ∧ ∃ top, s.core.latest = some (some k, top))) →
      ((tailOf s.core k).run = .free → ∃ t, exec (.fjoin st g d n) s = .next t ∧ OneScalar s t d (recordedTop s)) ∧
      ((tailOf s.core k).run = .running → exec (.fjoin st g d n) s = .next (s.holdFor (.wait false))) ∧
      ((tailOf s.core k).run = .ended → s.core.ctxQuiet (tailNumber k) = true →
        ∃ t, exec (.fjoin st g d n) s = .next t ∧
          OneScalar (joined s k) t d
            (match frameOf s.core k with | some f => 0#40 ++ f.top | none => recordedTop s)))

/-- R131: TEND in a tail comes to the tail's last checkpoint; in the main context outside inline mode it takes ILLEGAL_SLOT. -/
def TailEnds : Prop :=
  ∀ (s : State) (st : Bool) (g : Guard),
    (s.core.cur.ctx ≠ 0 → s.guard g = true → exec (.tend st g) s = .next (reached s .tendTail)) ∧
    (s.core.cur.ctx = 0 → s.core.inline = none → exec (.tend st g) s = .next (s.raise .illegalSlot 0 0))

/-- R129: TEND of the inline-mode callee restores `s1` to `s8` and `p1` to `p4` from the inline record, reloads, writes `p[pm]` false, and
branches to the caller with a checkpoint there. -/
def InlineEnds : Prop :=
  ∀ (s : State) (st : Bool) (g : Guard) (r : Inline),
    s.core.cur.ctx = 0 → s.core.inline = some r → s.guard g = true → r.s18.length = 8 → r.pm.toNat < 48 → inImage s r.ret.toNat = true →
      ∃ t q, exec (.tend st g) s = .next t ∧
        (∀ j : BitVec 6, Priv.sreg q j = if 1 ≤ j.toNat ∧ j.toNat ≤ 8 then r.s18.getD (j.toNat - 1) 0 else s.core.main.regs.sreg j) ∧
        (∀ j : BitVec 6, j.toNat < 48 → Priv.preg q j =
          if 1 ≤ j.toNat ∧ j.toNat ≤ 4 then r.p14.getLsbD (j.toNat - 1) else s.core.main.regs.preg j) ∧
        q.b = s.core.main.regs.b ∧ q.dc = s.core.main.regs.dc ∧
        Reloaded s q t.core.main.regs r.a.toNat r.pm false ∧
        t.core.inline = none ∧ t.core.main.ck = some ⟨.tendInline, r.ret.extractLsb' 0 13, false, bindSlice (s.bind s.coreTile)⟩ ∧
        t.core.cur.target = some (r.ret.extractLsb' 0 13) ∧
        t.core.sh = s.core.sh ∧ t.mem = s.mem ∧ t.core.spad = s.core.spad ∧ t.core.tail0 = s.core.tail0 ∧ t.core.tail1 = s.core.tail1

/-- R190: LDS from the local scratchpad writes the bytes at its address, sign- or zero-extended, and changes nothing else but the bank claims
of its cycle. -/
def ScratchpadLoad : Prop :=
  ∀ (s : State) (g : Guard) (d a : BitVec 6) (m : BitVec 1) (z : BitVec 2) (e : BitVec 1),
    let n := 2 ^ z.toNat
    let va := s.sreg a
    s.guard g = true → LocalOk s va n n 0 (m == 1) → s.core.spadPoisoned va.toNat n = false →
      ∃ t, exec (.lds g d a m z e) s = .next t ∧ OneScalar (s.claim s.coreTile va.toNat n 0) t d (loaded s va.toNat n (e == 1))

/-- R190: STS to the local scratchpad stores the low bytes of its register at its address and no other byte anywhere. -/
def ScratchpadStore : Prop :=
  ∀ (s : State) (g : Guard) (d a : BitVec 6) (m : BitVec 1) (z : BitVec 2),
    let n := 2 ^ z.toNat
    let va := s.sreg a
    s.guard g = true → LocalOk s va n n 0 (m == 1) → Memory.wf s.core.spad = true →
      ∃ t, exec (.sts g d a m z) s = .next t ∧ OnlySpad (s.claim s.coreTile va.toNat n 0) t ∧
        ∀ x, Memory.read t.core.spad x =
          if va.toNat ≤ x ∧ x < va.toNat + n then byteOf (s.sreg d) (x - va.toNat) else Memory.read s.core.spad x

/-- R193, R194, R44, R380: VLD from the local scratchpad loads 256 bytes under its layout, with bits 7 and 6 of each byte zero for T6, and writes the
tag; nothing else changes but the bank claims of its cycle. A poisoned line that it reads gives DATA_UE. -/
def VectorScratchpadLoad : Prop :=
  ∀ (s : State) (g : Guard) (v : BitVec 5) (a : BitVec 6) (f : BitVec 4) (m : BitVec 1) (l : BitVec 3),
    let va := s.sreg a
    tailColumn s = false → s.guard g = true → LocalOk s va 256 64 l.toNat (m == 1) →
      ((∃ i, i < 4 ∧ s.core.spadPoisoned (placeOf (va.toNat + 64 * i) l.toNat) 1 = true) →
        exec (.vld g v a f m l) s = .next ((s.claim s.coreTile va.toNat 256 l.toNat).raise .dataUe 0 0)) ∧
      ((∀ j, j < 256 → s.core.spadPoisoned (placeOf (va.toNat + j) l.toNat) 1 = false) → ∃ t x, exec (.vld g v a f m l) s = .next t ∧ OneVector (s.claim s.coreTile va.toNat 256 l.toNat) t v ⟨x, f⟩ ∧
        bytesAre x fun j =>
          let b := Memory.read s.core.spad (placeOf (va.toNat + j) l.toNat)
          if f = 5 then b &&& 0x3F else b)

/-- R193, R194: VST to the local scratchpad stores each byte whose lane-mask bit is set, under its layout, and no other byte anywhere. -/
def VectorScratchpadStore : Prop :=
  ∀ (s : State) (g : Guard) (v : BitVec 5) (a : BitVec 6) (k : BitVec 3) (m : BitVec 1) (l : BitVec 3),
    let va := s.sreg a
    tailColumn s = false → s.guard g = true → l.toNat < 5 → LocalOk s va 256 64 l.toNat (m == 1) → Memory.wf s.core.spad = true →
      ∃ t, exec (.vst g v a k m l) s = .next t ∧ OnlySpad (s.claim s.coreTile va.toNat 256 l.toNat) t ∧
        (∀ j, j < 256 → (s.lmask k).getLsbD j = true →
          Memory.read t.core.spad (placeOf (va.toNat + j) l.toNat) = byteOf (s.vreg v).bits j) ∧
        ∀ x, (∀ j, j < 256 → (s.lmask k).getLsbD j = true → placeOf (va.toNat + j) l.toNat ≠ x) →
          Memory.read t.core.spad x = Memory.read s.core.spad x

/-- R187, R191, R350: LDS, STS, VLD and VST through a quad window send their access to the peer; no register and no byte of memory changes
until it arrives. -/
def WindowAccesses : Prop :=
  ∀ (s : State) (g : Guard) (d a : BitVec 6) (v : BitVec 5) (f : BitVec 4) (k l : BitVec 3) (m e : BitVec 1) (z w : BitVec 2) (off : Nat),
    let n := 2 ^ z.toNat
    let va := s.sreg a
    let p := quadMate s.coreTile w
    s.guard g = true →
      (WindowOk s va n n 0 (m == 1) w off →
        exec (.lds g d a m z e) s = .next (sent (s.claim p off n 0) { (s.claim p off n 0).request (.winLoad n (e == 1)) 0 with
          va := va, dst := d, x := 0#62 ++ w, pa := BitVec.ofNat 45 off }) ∧
        exec (.sts g d a m z) s = .next (sent (s.claim p off n 0) { (s.claim p off n 0).request .winStore 0 with
          va := va, x := 0#62 ++ w, pa := BitVec.ofNat 45 off, bits := 0#1984 ++ s.sreg d, mask := BitVec.ofNat 256 (2 ^ n - 1) })) ∧
      (tailColumn s = false → WindowOk s va 256 64 l.toNat (m == 1) w off →
        let t := s.claim p off 256 l.toNat
        exec (.vld g v a f m l) s = .next (sent t { t.request (.winVLoad f l) 0 with
          va := va, dst := 0#1 ++ v, x := 0#62 ++ w, pa := BitVec.ofNat 45 off }) ∧
        exec (.vst g v a k m l) s = .next (sent t { t.request .winStore 0 with
          va := va, x := 0#62 ++ w, y := 0#61 ++ l, pa := BitVec.ofNat 45 off, bits := (s.vreg v).bits, mask := s.lmask k }))

/-- R195: VGATH from the local scratchpad loads every active element, keeps the other bytes and the tag, and changes nothing else but the
bank claims of its cycle. -/
def GatherLocal : Prop :=
  ∀ (s : State) (g : Guard) (v x : BitVec 5) (a : BitVec 6) (k : BitVec 2),
    let t0 := (s.vreg v).tag
    let w := tagW t0 / 8
    let es := elementsOf s a (s.vreg x) w (s.lmask (0#1 ++ k))
    tailColumn s = false → s.guard g = true → indexTags t0 (s.vreg x).tag = true →
    (∀ e ∈ es, e.2 % w = 0 ∧ e.2 + w ≤ 0x200000 ∧ s.core.spadPoisoned e.2 w = false) →
      ∃ t y, exec (.vgath g v x a k) s = .next t ∧ t.core.sh.v.read v = ⟨y, t0⟩ ∧
        (∀ j, j ≠ v → t.core.sh.v.read j = s.core.sh.v.read j) ∧
        (∀ i, i < 256 / w → ∀ j, j < w → byteOf y (i * w + j) =
          match es.find? fun e => e.1 = i with
          | some e => if t0 = 5 then Memory.read s.core.spad (e.2 + j) &&& 0x3F else Memory.read s.core.spad (e.2 + j)
          | none => byteOf (s.vreg v).bits (i * w + j)) ∧
        t = (s.mapSh fun r => { r with v := t.core.sh.v }).mapCur fun c => { c with claims := t.core.cur.claims, extra := t.core.cur.extra }

/-- R195: VSCAT to the local scratchpad stores the active elements, the higher of two at one address winning, and no other byte anywhere. -/
def ScatterLocal : Prop :=
  ∀ (s : State) (g : Guard) (v x : BitVec 5) (a : BitVec 6) (k : BitVec 2),
    let t0 := (s.vreg v).tag
    let w := tagW t0 / 8
    let es := elementsOf s a (s.vreg x) w (s.lmask (0#1 ++ k))
    tailColumn s = false → s.guard g = true → indexTags t0 (s.vreg x).tag = true →
    (∀ e ∈ es, e.2 % w = 0 ∧ e.2 + w ≤ 0x200000) → Memory.wf s.core.spad = true →
      ∃ t c, exec (.vscat g v x a k) s = .next t ∧ OnlySpad c t ∧
        (c = s.mapCur fun i => { i with claims := c.core.cur.claims, extra := c.core.cur.extra }) ∧
        ∀ p, Memory.read t.core.spad p =
          match es.reverse.find? fun e => e.2 ≤ p && p < e.2 + w with
          | some e =>
            let b := byteOf (s.vreg v).bits (e.1 * w + (p - e.2))
            if t0 = 5 then b &&& 0x3F else b
          | none => Memory.read s.core.spad p

/-- R187, R188, R193: a scratchpad access of LDS, STS, VLD or VST that is not aligned takes ALIGN; one whose bytes lie in no single range takes
SPAD_RANGE; one through the window of a member that is cut off takes FENCED, and of a member of another team PROT. That ALIGN comes before the
others is the model's reading (assumption log 29). -/
def ScratchpadTraps : Prop :=
  ∀ (s : State) (g : Guard) (d a : BitVec 6) (v : BitVec 5) (f : BitVec 4) (k l : BitVec 3) (m e : BitVec 1) (z : BitVec 2),
    let n := 2 ^ z.toNat
    let va := s.sreg a
    let both := fun (c : Cause) => exec (.vld g v a f m l) s = .next (s.raise c va 0) ∧ exec (.vst g v a k m l) s = .next (s.raise c va 0)
    s.guard g = true →
      (tailColumn s = false →
        (va.toNat % 64 ≠ 0 → both .align) ∧ (va.toNat % 64 = 0 → ¬ oneRange va.toNat 256 → both .spadRange) ∧
        ∀ w : BitVec 2, va.toNat % 64 = 0 → 0x800000 + 0x200000 * w.toNat ≤ va.toNat → va.toNat + 256 ≤ 0x800000 + 0x200000 * (w.toNat + 1) →
          (s.cutOff (quadMate s.coreTile w) = true → both .fenced) ∧
          (s.cutOff (quadMate s.coreTile w) = false → s.sameTeam s.coreTile (quadMate s.coreTile w) = false → both .prot)) ∧
      (va.toNat % n ≠ 0 → exec (.lds g d a m z e) s = .next (s.raise .align va 0) ∧
        exec (.sts g d a m z) s = .next (s.raise .align va 0)) ∧
      (va.toNat % n = 0 → 0x200000 ≤ va.toNat → (va.toNat < 0x800000 ∨ 0x1000000 ≤ va.toNat) →
        exec (.lds g d a m z e) s = .next (s.raise .spadRange va 0) ∧ exec (.sts g d a m z) s = .next (s.raise .spadRange va 0)) ∧
      (∀ w : BitVec 2, va.toNat % n = 0 → va.toNat / 0x200000 = 4 + w.toNat →
        (s.cutOff (quadMate s.coreTile w) = true →
          exec (.lds g d a m z e) s = .next (s.raise .fenced va 0) ∧ exec (.sts g d a m z) s = .next (s.raise .fenced va 0)) ∧
        (s.cutOff (quadMate s.coreTile w) = false → s.sameTeam s.coreTile (quadMate s.coreTile w) = false →
          exec (.lds g d a m z e) s = .next (s.raise .prot va 0) ∧ exec (.sts g d a m z) s = .next (s.raise .prot va 0)))

/-- R84, R191, R193: LDG and VLDG send a request of their class, count on counter Q mod 8, and carry the bytes that the context's own entries
forward, which they take at issue (the model's choice, assumption log 106); on an SC page they are irrevocable and forward nothing. -/
def DeviceLoads : Prop :=
  ∀ (s : State) (i : Instr) (g : Guard) (u : BitVec 3) (va : Word) (n align : Nat) (q : BitVec 4) (k : ReqKind) (d : BitVec 6),
    deviceLoadOf s i = some (g, u, va, n, align, q, k, d) → (vectorForm i = true → tailColumn s = false) → s.guard g = true →
    DeviceOk s va n align .load →
      let sc := s.anySC va.toNat n
      let r := fun (s : State) => { s.request k q with
        dc := some (q.extractLsb' 0 3), va := va, dst := d, bits := (s.forward sc (s.pieces va.toNat n) n).1,
        mask := (s.forward sc (s.pieces va.toNat n) n).2, pas := s.pieces va.toNat n, irrev := sc, sc := sc,
        pages := s.piecePages va.toNat n }
      (sc = false → exec i s = .next (sent s (r s))) ∧
      (sc = true → s.ctx.ckDone = true →
        exec i s = .next (sent (s.mapCtx fun x => { x with irrevOut := true }) (r (s.mapCtx fun x => { x with irrevOut := true })))) ∧
      (sc = true → s.ctx.ckDone = false → s.ctx.irrevOut = false → exec i s = .next (s.needCk .irrevBefore))

/-- R40, R191, R193: STG and VSTG withhold their bytes in the issuing context's partition, each byte that the mask names and no other, in every
block that the access enters: no byte of memory changes, and of the rest of the state only the partition and its store counter; on an SC page
they send an irrevocable request. -/
def DeviceStores : Prop :=
  ∀ (s : State) (i : Instr) (g : Guard) (u : BitVec 3) (va : Word) (n align : Nat) (q : BitVec 4) (b : VBits) (m : BitVec 256),
    deviceStoreOf s i = some (g, u, va, n, align, q, b, m) → (vectorForm i = true → tailColumn s = false) → s.guard g = true →
    DeviceOk s va n align .store →
      (s.anySC va.toNat n = false → ∃ t, exec i s = .next t ∧
        t = (s.mapCtx fun x => { x with part := t.ctx.part, storeSeq := t.ctx.storeSeq }) ∧
        (∀ x, x < 2 ^ 45 → heldByte t.ctx.part x =
          match (s.pieces va.toNat n).reverse.find? fun p => p.2.toNat ≤ x && x < p.2.toNat + min (64 - p.2.toNat % 64) (n - p.1) &&
              m.getLsbD (p.1 + (x - p.2.toNat)) with
          | some p => some (byteOf b (p.1 + (x - p.2.toNat)))
          | none => heldByte s.ctx.part x)) ∧
      (s.anySC va.toNat n = true → s.ctx.ckDone = true →
        exec i s = .next (sent (s.mapCtx fun x => { x with irrevOut := true }) { s.request .store q with
          va := va, bits := b, mask := m, pas := s.pieces va.toNat n, irrev := true, sc := true }))

/-- R40: a withheld store merges into the entry of its block byte by byte, the entry taking its class; the bytes of every other block, and
the bytes of the block that it does not write, stay. -/
def WithheldBytes : Prop :=
  ∀ (x : Ctx) (asid : BitVec 8) (vpn : BitVec 36) (cls : BitVec 4) (pa : Nat) (bs : List (Nat × Byte)) (a : Nat),
    pa < 2 ^ 45 → a < 2 ^ 45 → (∀ b ∈ bs, pa % 64 + b.1 < 64) →
      heldByte (x.withhold asid vpn cls pa bs).part a =
        (match bs.reverse.find? fun b => pa + b.1 = a with
          | some b => some b.2
          | none => heldByte x.part a) ∧
      ((x.withhold asid vpn cls pa bs).part.find? fun e => e.pa = BitVec.ofNat 45 (pa - pa % 64)).map HEntry.cls = some cls

/-- R195: VGATH.g and VSCAT.g with aligned, translated and allowed elements off SC pages: the gather sends one request of class 0 counted once
on `dc0`, with its addresses and what its context may forward to it, and the scatter is withheld element by element; neither changes a byte of
memory. -/
def IndexedDevice : Prop :=
  ∀ (s : State) (g : Guard) (v x : BitVec 5) (a : BitVec 6) (k : BitVec 2),
    let t0 := (s.vreg v).tag
    let w := tagW t0 / 8
    let es := elementsOf s a (s.vreg x) w (s.lmask (0#1 ++ k))
    tailColumn s = false → s.guard g = true → indexTags t0 (s.vreg x).tag = true → s.accessHeld = false →
    (∀ e ∈ es, e.2 % w = 0 ∧ ∃ p leaf, s.physOf e.2 = some (p, leaf) ∧ leafSC leaf = false) →
      ((∀ e ∈ es, ∀ p leaf, s.physOf e.2 = some (p, leaf) → attrTrap leaf .load = none) →
        ∃ r, exec (.vgathG g v x a k) s = .next (sent s r) ∧ r.kind = .gather t0 ∧ r.cls = 0 ∧ r.dc = some 0 ∧ r.dst = 0#1 ++ v ∧
          r.irrev = false ∧ r.sc = false ∧ r.addrs.map (fun e => (e.1, e.2.toNat)) = es ∧ r.progress = 0 ∧ r.fwd = s.entriesSeen ∧
          r.pas = es.map fun e => (e.1, BitVec.ofNat 45 ((s.physOf e.2).getD (0, 0)).1)) ∧
      ((∀ e ∈ es, ∀ p leaf, s.physOf e.2 = some (p, leaf) → attrTrap leaf .store = none) →
        exec (.vscatG g v x a k) s = .next (s.mapCtx fun c => es.foldl (fun (c : Ctx) e =>
          c.withhold s.core.asid (BitVec.ofNat 36 (e.2 / 65536)) 0 (BitVec.ofNat 45 ((s.physOf e.2).getD (0, 0)).1).toNat
            ((List.range w).map fun j => (j, let b := byteOf (s.vreg v).bits (e.1 * w + j); if t0 = 5 then b &&& 0x3F else b))) c))

/-- R199, R201, R203, R208: an irrevocable operation asks for a checkpoint before its bundle; with that taken, it sends its request and marks
its context; while an earlier one still lacks its second checkpoint, it holds. -/
def IrrevocableOperations : Prop :=
  ∀ (s : State) (i : Instr) (g : Guard) (va : Word) (n align : Nat) (acc : Access) (r : Req),
    irrevocableOf s i = some (g, va, n, align, acc, r) → s.guard g = true → DeviceOk s va n align acc →
      (s.ctx.ckDone = true → exec i s = .next (sent (s.mapCtx fun x => { x with irrevOut := true }) { r with sc := s.anySC va.toNat n })) ∧
      (s.ctx.ckDone = false → s.ctx.irrevOut = false → exec i s = .next (s.needCk .irrevBefore)) ∧
      (s.ctx.ckDone = false → s.ctx.irrevOut = true → exec i s = .next (s.holdFor .order))

/-- R196: VATOM on I32 or I64 with an index of the same width is irrevocable, of class 0, and sends all its elements in order. -/
def VectorAtomic : Prop :=
  ∀ (s : State) (g : Guard) (v x : BitVec 5) (a : BitVec 6) (op : BitVec 3),
    let t0 := (s.vreg v).tag
    let w := tagW t0 / 8
    let es := elementsOf s a (s.vreg x) w (BitVec.allOnes 256)
    tailColumn s = false → s.guard g = true → (t0 = 8 ∨ t0 = 11) → (s.vreg x).tag = t0 → s.accessHeld = false → s.ctx.ckDone = true →
    (∀ e ∈ es, e.2 % w = 0 ∧ ∀ p leaf, s.physOf e.2 = some (p, leaf) → attrTrap leaf .atom = none) →
      ∃ r, exec (.vatom g v x a op) s = .next (sent (s.mapCtx fun x => { x with irrevOut := true }) r) ∧
        r.kind = .vatom op t0 ∧ r.cls = 0 ∧ r.dc = none ∧ r.irrev = true ∧ r.dst = 0#1 ++ v ∧ r.bits = (s.vreg v).bits ∧
        r.addrs.map (fun e => (e.1, e.2.toNat)) = es

/-- R199, R209, R210, R332: TRIGGER, WSTAT and POPW.b send their requests: TRIGGER irrevocably, after a checkpoint of every context of the
member, WSTAT counted on `dc0`, POPW.b only after the checkpoint that precedes it and not yet irrevocable. That the other contexts take
TRIGGER's checkpoint where their bundles stand is the model's reading (assumption log 87). -/
def LaunchRequests : Prop :=
  ∀ (s : State) (g : Guard) (d a : BitVec 6), s.guard g = true →
    let clear := s.orderHeld = false ∧ ∀ k : BitVec 2, k ≠ 3 → k ≠ s.core.cur.ctx →
      (s.core.ctx k).run = .running → (s.core.ctx k).ck = none ∧ ((s.core.ctx k).irrevOut = true ∨ s.core.popOut k = true → (s.core.ctx k).part = [])
    (clear → s.ctx.ckDone = true → exec (.trigger g) s =
      .next (sent (s.mapCtx fun x => { x with irrevOut := true }) { s.request .trigger 0 with irrev := true })) ∧
    (clear → s.ctx.ckDone = false → s.ctx.irrevOut = false → exec (.trigger g) s = .next (s.needCk .trigger)) ∧
    (¬ clear → exec (.trigger g) s = .next (s.holdFor .order)) ∧
    (s.deviceReqs < 2048 → exec (.wstat g d a) s =
      .next (sent s { s.request .wstat 0 with dc := some 0, dst := d, x := 0#51 ++ (s.sreg a).extractLsb' 0 13 })) ∧
    (DeviceOk s (s.sreg a) 64 64 .queue → s.ctx.ckDone = true → exec (.popwB g d a) s =
      .next (sent s { s.request (.pop true) 0 with
        va := s.sreg a, dst := d, y := 0#56 ++ s.core.asid, pas := s.pieces (s.sreg a).toNat 64, sc := s.anySC (s.sreg a).toNat 64 }))

/-- R203, R360: OCREAD that hits the once-cache writes the value and the status to its register pair, ready six cycles after issue, and touches
no counter and no memory; one that misses sends its request, on an SC page irrevocably and after a checkpoint. That a hit on an SC page takes no
checkpoint is the model's choice (assumption log 105). -/
def OnceRead : Prop :=
  ∀ (s : State) (g : Guard) (d a : BitVec 6) (q : BitVec 4) (c : BitVec 3),
    let va := s.sreg a
    let gen := (s.sreg (d + 1)).extractLsb' 0 32
    let hit := s.core.once.find? fun e => e.asid = s.core.asid && e.cell = va.extractLsb' 5 47 && e.gen = gen
    onceReg d = true → s.guard g = true → DeviceOk s va 32 32 .once →
      (∀ e, hit = some e → ∃ t, exec (.ocread g d a q c) s = .next t ∧
        t.ctx.regs.sreg d = e.value ∧ t.ctx.regs.sreg (d + 1) = gen ++ e.wctx ++ 0#13 ++ e.wtile ++ 0#1 ++ 5#3 ∧
        (∀ j, j ≠ d → j ≠ d + 1 → t.ctx.regs.sreg j = s.ctx.regs.sreg j) ∧ t.ctx.regs.dc = s.ctx.regs.dc ∧ t.ctx.regs.p = s.ctx.regs.p ∧
        t.core.sh = s.core.sh ∧ t.mem = s.mem ∧ t.core.spad = s.core.spad ∧ t.core.reqs = s.core.reqs ∧
        t.core.busy = s.core.busy ++ [⟨s.core.cur.ctx, .s d, s.core.cyc.toNat + 6⟩, ⟨s.core.cur.ctx, .s (d + 1), s.core.cyc.toNat + 6⟩]) ∧
      (hit = none → s.anySC va.toNat 32 = false → exec (.ocread g d a q c) s =
        .next (sent s { s.request (.once 1) q with
          dc := some (q.extractLsb' 0 3), va := va, dst := d, x := s.sreg d, y := 0#32 ++ gen, pas := s.pieces va.toNat 32 })) ∧
      (hit = none → s.anySC va.toNat 32 = true →
        (s.ctx.ckDone = true → exec (.ocread g d a q c) s = .next (sent (s.mapCtx fun x => { x with irrevOut := true }) { s.request (.once 1) q with
          dc := some (q.extractLsb' 0 3), va := va, dst := d, x := s.sreg d, y := 0#32 ++ gen, pas := s.pieces va.toNat 32, irrev := true, sc := true })) ∧
        (s.ctx.ckDone = false → s.ctx.irrevOut = false → exec (.ocread g d a q c) s = .next (s.needCk .irrevBefore)) ∧
        (s.ctx.ckDone = false → s.ctx.irrevOut = true → exec (.ocread g d a q c) s = .next (s.holdFor .order)))

/-- R197, R214: WAITDC, WAITM and WAITANY complete without effect when what they wait for holds, and hold their context when it does not; a
WAITM or WAITANY whose pending marks are pending only on gated commands of its context asks for a checkpoint first. -/
def WaitInstructions : Prop :=
  ∀ (s : State) (g : Guard) (c : BitVec 3) (n : BitVec 12) (k : BitVec 6) (j : BitVec 4), s.guard g = true →
    let gates := fun (ms : List (BitVec 6)) => (∃ m ∈ ms, s.core.cur.preSh.mpend.read m ≠ 0) ∧
      (∀ m ∈ ms, s.core.cur.preSh.mpend.read m ≠ 0 → s.core.onlyGated s.core.cur.ctx m = true) ∧ s.ctx.ckDone = false
    exec (.waitdc g c n) s = .next (if s.core.cur.pre.dc.read c ≤ n ∨ 2048 ≤ n.toNat then s else s.holdFor (.wait true)) ∧
    (s.core.cur.preSh.mready.getLsbD k.toNat = true → exec (.waitm g k) s = .next s) ∧
    (s.core.cur.preSh.mready.getLsbD k.toNat = false →
      (gates [k] → exec (.waitm g k) s = .next (s.needCk .gatedWait)) ∧
      (¬ gates [k] → exec (.waitm g k) s = .next (s.holdFor (.wait true)))) ∧
    ((marksOf (s.mset j) = [] ∨ ∃ m ∈ marksOf (s.mset j), s.core.cur.preSh.mready.getLsbD m.toNat = true) →
      exec (.waitany g j) s = .next s) ∧
    (marksOf (s.mset j) ≠ [] → (∀ m ∈ marksOf (s.mset j), s.core.cur.preSh.mready.getLsbD m.toNat = false) →
      (gates (marksOf (s.mset j)) → exec (.waitany g j) s = .next (s.needCk .gatedWait)) ∧
      (¬ gates (marksOf (s.mset j)) → exec (.waitany g j) s = .next (s.holdFor (.wait true))))

/-- R197: FFRM writes the lowest ready valid mark, or 64; MCLR clears the three bits of the marks it names, and nothing else changes but the
record of what tails have written. -/
def MarkInstructions : Prop :=
  ∀ (s : State) (g : Guard) (d k : BitVec 6) (j : BitVec 4), s.guard g = true →
    (∃ t v, exec (.ffrm g d j) s = .next t ∧ OneScalar s t d v ∧
      ((v = 64 ∧ ∀ m ∈ marksOf (s.mset j), s.core.cur.preSh.mready.getLsbD m.toNat = false) ∨
       (∃ m ∈ marksOf (s.mset j), v = 0#58 ++ m ∧ s.core.cur.preSh.mready.getLsbD m.toNat = true ∧
         ∀ l ∈ marksOf (s.mset j), s.core.cur.preSh.mready.getLsbD l.toNat = true → m ≤ l))) ∧
    (∀ i, (i = .mclr g k ∨ i = .mclrSet g j) →
      let ms := if i = .mclr g k then [k] else marksOf (s.mset j)
      ∃ t, exec i s = .next t ∧
        (∀ b, b < 64 → t.core.sh.mready.getLsbD b = (s.core.sh.mready.getLsbD b && !ms.any fun m => m.toNat == b)) ∧
        (∀ b, b < 64 → t.core.sh.mstale.getLsbD b = (s.core.sh.mstale.getLsbD b && !ms.any fun m => m.toNat == b)) ∧
        (∀ b, b < 64 → t.core.sh.merr.getLsbD b = (s.core.sh.merr.getLsbD b && !ms.any fun m => m.toNat == b)) ∧
        t = s.mapCore fun c => { c with
          sh := { c.sh with mready := t.core.sh.mready, mstale := t.core.sh.mstale, merr := t.core.sh.merr }
          tailMarks := t.core.tailMarks })

/-- R200, R255: CFENCE of scope `core` holds while an indexed access of its classes has elements that have not left the core; else it notes its classes
and completes. While an access or a released store before such a fence has still to perform, no later device access of the core, an engine's
included, performs, and no checkpoint releases a store of the core made after it. A wider one completes
when no earlier access of its classes and no window store is in flight, and holds otherwise. Of the fence's own bundle, the requests of the S and V
slots count as earlier for scope `core` and not for a wider one, which is the model's choice (assumption log 104). -/
def Fences : Prop :=
  ∀ (s : State) (g : Guard) (m : BitVec 16) (sc : BitVec 3), s.guard g = true →
    let early := s.core.reqs.any fun r => r.inMask s.core.cur.ctx m && decide (r.id < s.core.cur.firstId)
    let stores := s.ctx.released.any fun e => m.getLsbD e.cls.toNat
    let open_ := (∃ r ∈ s.core.reqs, r.id < s.core.nextId ∧ r.inMask s.core.cur.ctx m = true) ∨
      ∃ e ∈ s.ctx.released, e.phase < s.ctx.phase ∧ m.getLsbD e.cls.toNat = true
    let wins := s.core.reqs.any fun r => r.ctx = s.core.cur.ctx && decide (r.id < s.core.cur.firstId) && r.kind == .winStore
    let back := s.core.reqs.any fun r => r.inMask s.core.cur.ctx m && decide (r.id < s.core.cur.firstId) && s.staysBack r
    (sc = 1 → back = true → exec (.cfence g m sc) s = .next (s.holdFor .order)) ∧
    (sc = 1 → back = false → ∃ t, exec (.cfence g m sc) s = .next t ∧ t.ctx.fences = s.ctx.fences ++ [m] ∧
      (open_ → s.core.fenceHere s.core.cur.ctx m ∈ t.ctx.coreFences) ∧
      t = s.mapCtx fun x => { x with fences := t.ctx.fences, coreFences := t.ctx.coreFences }) ∧
    (∀ (c : Core) (k : BitVec 2) (f : CoreFence), k ≠ 3 → f ∈ (c.ctx k).coreFences →
      ((∃ r ∈ c.reqs, r.id < f.next ∧ r.inMask k f.mask = true) ∨ ∃ e ∈ (c.ctx k).released, e.phase < f.phase ∧ f.mask.getLsbD e.cls.toNat = true) →
        (∀ r, r.isDevice = true → f.next ≤ r.id → c.mayPerform r = false) ∧ (∀ (u : State) (j : Cmd), u.core = c → f.next ≤ j.id → u.engBarred j = true) ∧
        (∀ n e, n ≠ 3 → e ∈ (c.ctx n).part → (if n = 0 then f.seq0 else if n = 1 then f.seq1 else f.seq2) ≤ e.seq → c.ckReady n = false)) ∧
    (sc ≠ 1 → early = false → stores = false → wins = false →
      exec (.cfence g m sc) s = .next (s.mapCtx fun x => { x with fences := x.fences ++ [m] })) ∧
    (sc ≠ 1 → (early = true ∨ stores = true ∨ wins = true) → exec (.cfence g m sc) s = .next (s.holdFor .order))

/-- R199, R205, R206, R207: BARA sends its arrival once no earlier access is behind it that it must not pass, BAR its arrival, after which it
waits as BARW does, and BARW completes when the phase of the member's last
arrival has completed, writing its predicate false when that phase was poisoned. That a BARW with no arrival pending reports the poison of the
last arrival's phase is the model's reading (assumption log 34). -/
def Barriers : Prop :=
  ∀ (s : State) (g : Guard) (p : BitVec 6) (i : BitVec 4) (sc : BitVec 3),
    s.guard g = true → p.toNat < 48 → (sc = 2 → bindQalign (s.bind s.coreTile) = true) → s.restoring = false →
      let b := s.myBarrier sc i
      let mine := s.myArrivals sc i
      let r := { s.request .barrier 0 with x := 0#60 ++ i, y := 0#61 ++ sc, irrev := true }
      (s.orderHeld = true → s.ctx.barwOnly = false →
        exec (.bara g i sc) s = .next (s.holdFor .order) ∧ exec (.bar g p i sc) s = .next (s.holdFor .order)) ∧
      (s.orderHeld = false → mine < b.phase + 2 → s.ctx.ckDone = true → s.ctx.barwOnly = false →
        exec (.bara g i sc) s = .next (sent (s.mapCtx fun x => { x with irrevOut := true }) r) ∧
        exec (.bar g p i sc) s = .next ((sent (s.mapCtx fun x => { x with irrevOut := true }) r).mapCtx fun x =>
          { x with barwOnly := true, barWaiting := true })) ∧
      (b.phase + 2 ≤ mine → s.ctx.barwOnly = false → exec (.bara g i sc) s = .next (s.holdFor .order)) ∧
      (∀ j, (j = .barw g p i sc ∨ s.ctx.barwOnly = true ∧ j = .bar g p i sc) →
        (b.phase < mine → exec j s = .next (s.holdFor (.wait true))) ∧
        (mine ≤ b.phase → ∃ t, exec j s = .next t ∧ OnePred s t p (mine == 0 || match b.poisoned with | some k => decide (mine ≤ k) | none => true)))

/-- R188, R240, R241, R242, R244: DIGQ takes ALIGN for a scratchpad destination that is not 64-byte aligned and SPAD_RANGE for one beyond the scratchpad;
else it takes its mark and sends its command. DIGB, DIGRS and KVAPP send theirs. -/
def DigestRequests : Prop :=
  ∀ (s : State) (g : Guard) (d a c : BitVec 6) (k : BitVec 5), s.guard g = true →
    (let dst := (s.sreg d).extractLsb' 0 24
     let mk := (s.sreg d).extractLsb' 24 6
     dst.toNat % 64 = 0 → dst.toNat + 64 * (c.toNat + 1) ≤ 0x200000 → s.accessHeld = false →
      ∃ t, exec (.digq g d a c) s = .next t ∧
        t.core.reqs = s.core.reqs ++ [{ s.request (.digq (c.toNat + 1) mk) 0 with va := s.sreg a, x := 0#40 ++ dst }] ∧
        t.core.sh = { s.core.sh with
          mready := s.core.sh.mready &&& ~~~(1#64 <<< mk.toNat), mstale := s.core.sh.mstale &&& ~~~(1#64 <<< mk.toNat),
          merr := s.core.sh.merr &&& ~~~(1#64 <<< mk.toNat), mpend := s.core.sh.mpend.write mk (s.core.sh.mpend.read mk + 1) } ∧
        t.mem = s.mem ∧ t.core.spad = s.core.spad ∧ t.ctx = s.ctx) ∧
    (let dst := (s.sreg d).extractLsb' 0 24
     (dst.toNat % 64 ≠ 0 → exec (.digq g d a c) s = .next (s.raise .align (0#40 ++ dst) 0)) ∧
     (dst.toNat % 64 = 0 → 0x200000 < dst.toNat + 64 * (c.toNat + 1) → exec (.digq g d a c) s = .next (s.raise .spadRange (0#40 ++ dst) 0))) ∧
    (DeviceOk s (s.sreg a) 1 1 .load →
      exec (.digb g d a k) s = .next (sent s { s.request (.digb k) 0 with
        dc := some 0, va := s.sreg a, x := s.sreg d, pas := s.pieces (s.sreg a).toNat 1 }) ∧
      exec (.digrs g d a c) s = .next (sent s { s.request (.digrs (c.toNat + 1)) 0 with
        dc := some 0, va := s.sreg a, dst := d, pas := s.pieces (s.sreg a).toNat 1 })) ∧
    ((s.sreg a).toNat % 64 = 0 → (s.sreg a).toNat + 64 ≤ 0x200000 → s.deviceReqs < 2048 →
      exec (.kvapp g d a c) s = .next (sent s { s.request (.kvapp c) 0 with va := s.sreg a, dst := d }))

/-- R62, R137 to R139, R141, R143: the arithmetic and functions of the V slots. -/
def VectorArithmetic : Prop :=
  ∀ (s : State) (i : Instr) (o : LaneOp), arithLanes s i = some o → tailColumn s = false → s.guard o.guard = true → LaneLaw s i o

/-- R141, R142, R144, R146: VMIN, VMAX, VABS, VNEG, logic, shifts and VSEL; none of them draws. -/
def VectorPlain : Prop :=
  ∀ (s : State) (i : Instr) (o : LaneOp), plainLanes s i = some o → tailColumn s = false → s.guard o.guard = true → LaneLaw s i o

/-- R148, R153 to R159: the moves of elements. -/
def VectorMoves : Prop :=
  ∀ (s : State) (i : Instr) (o : LaneOp), moveLanes s i = some o → tailColumn s = false → s.guard o.guard = true → LaneLaw s i o

/-- R147, R149, R150, R163, R165: VCVT, VSCL, VQNT, TRDC, TRDR and VSKB. -/
def VectorConversions : Prop :=
  ∀ (s : State) (i : Instr) (o : LaneOp), convertLanes s i = some o → tailColumn s = false → s.guard o.guard = true → LaneLaw s i o

/-- R151: VREDADD, VREDADD.s, VREDMAX and VREDMIN complete: VREDADD and its saturating form sum the active integer elements exactly and narrow
once, VREDADD of F elements is the fixed tree of rounded FP32 additions, and VREDMAX and VREDMIN take the extreme active element; the result
stands in element 0 over zeros. VREDADD.s of F elements takes TAG_MISMATCH, and a reserved code where SUBST is 0 takes SW_TRAP. -/
def VectorReductions : Prop :=
  ∀ (s : State) (g : Guard) (d a : BitVec 5) (l : BitVec 3),
    let x := s.vreg a
    let e := s.core.cur.preSh.efmt
    let m := s.lmask l
    let n := 2048 / tagW x.tag
    let bad := e.extractLsb' 4 2 == 0 && (codesIn m x).any fun c => reservedCode x.tag e c
    let t := if x.tag = 11 then 11#4 else 8#4
    let sum := fun (sat : Bool) => intoTag t e sat (((codesIn m x).map (readInt x.tag e)).foldl (· + ·) 0)
    let most := fun (greater : Bool) => extreme greater x.tag e (codesIn m x)
    tailColumn s = false → s.guard g = true →
      (isI x.tag = true → bad = false →
        (∃ u, exec (.vredadd g d a l) s = .next u ∧ Reduced s u d t (sum false).1 (sum false).2 s.core.sh.seed) ∧
        (∃ u, exec (.vredaddS g d a l) s = .next u ∧ Reduced s u d t (sum true).1 (sum true).2 s.core.sh.seed)) ∧
      (isI x.tag = true → bad = true →
        exec (.vredadd g d a l) s = .next (s.raise .swTrap 0 (1 <<< 36)) ∧
        exec (.vredaddS g d a l) s = .next (s.raise .swTrap 0 (1 <<< 36))) ∧
      (isF x.tag = true →
        let leaf := fun i => if activeIn m x.tag i then
            (if x.tag = 1 then (codeOf x.bits 1 i, 0) else Fmt.ofVal ⟨8, 23⟩ .rne (readElem x.tag 0 (codeOf x.bits x.tag i)))
          else (0, 0)
        let leaves := (List.range n).map leaf
        let r := treeSum s.core.cur.preSh.frm n.log2 (leaves.map (·.1)) s.core.sh.seed
        ∃ u, exec (.vredadd g d a l) s = .next u ∧ Reduced s u d 1 r.1 (leaves.foldl (fun f e => f ||| e.2) r.2.1) r.2.2) ∧
      ((isF x.tag || isI x.tag || isT x.tag) = true → bad = false →
        (∃ u, exec (.vredmax g d a l) s = .next u ∧ Reduced s u d x.tag (most true).1 (most true).2 s.core.sh.seed) ∧
        (∃ u, exec (.vredmin g d a l) s = .next u ∧ Reduced s u d x.tag (most false).1 (most false).2 s.core.sh.seed)) ∧
      (isF x.tag = true → exec (.vredaddS g d a l) s = .next (s.raise .tagMismatch 0 0))

/-- R152: VSCAN and VSCAN.x of F or I elements complete: each element takes the sum of the active elements up to it, or before it for `.x`,
narrowed or rounded at each step. -/
def VectorScans : Prop :=
  ∀ (s : State) (g : Guard) (d a : BitVec 5) (l : BitVec 3),
    let x := s.vreg a
    let e := s.core.cur.preSh.efmt
    let m := s.lmask l
    let n := 2048 / tagW x.tag
    let bad := e.extractLsb' 4 2 == 0 && (codesIn m x).any fun c => reservedCode x.tag e c
    tailColumn s = false → s.guard g = true → (isF x.tag || isI x.tag) = true → bad = false →
      let start := if isF x.tag then 2 ^ (tagW x.tag - 1) else 0
      let r := scanFrom s.core.cur.preSh.frm e m x n 0 start s.core.sh.seed
      let scanned := fun (u : State) (f : Nat → Nat) => (u.core.sh.v.read d).tag = x.tag ∧
        (∀ j, j ≠ d → u.core.sh.v.read j = s.core.sh.v.read j) ∧
        (∀ i, i < n → ((u.core.sh.v.read d).bits.extractLsb' (i * tagW x.tag) (tagW x.tag)).toNat = f i % 2 ^ tagW x.tag) ∧
        u.core.sh.frm = s.core.sh.frm ||| r.2.1 ∧ u.core.sh.seed = r.2.2 ∧
        u = (s.mapSh fun q => { q with v := u.core.sh.v, frm := u.core.sh.frm, seed := u.core.sh.seed }).mapCur fun c =>
          { c with flags := c.flags ||| r.2.1 }
      (∃ u, exec (.vscan g d a l) s = .next u ∧ scanned u fun i => (r.1.getD i (0, 0)).2) ∧
      (∃ u, exec (.vscanX g d a l) s = .next u ∧ scanned u fun i => if i = 0 then 0 else (r.1.getD i (0, 0)).1)

/-- R27, R145: VCMP writes all the bits of each element of its mask alike: the condition for an active element and false for an inactive one. -/
def VectorCompare : Prop :=
  ∀ (s : State) (g : Guard) (c d : BitVec 3) (a b : BitVec 5) (l : BitVec 3),
    let x := s.vreg a
    let y := s.vreg b
    let e := s.core.cur.preSh.efmt
    let m := s.lmask l
    let bad := e.extractLsb' 4 2 == 0 && (codesIn m x ++ codesIn m y).any fun c => reservedCode x.tag e c
    let r := fun i => vcond c (isF x.tag) (readElem x.tag e (codeOf x.bits x.tag i)) (readElem x.tag e (codeOf y.bits y.tag i))
    tailColumn s = false → s.guard g = true → x.tag = y.tag → (isF x.tag || isI x.tag || isT x.tag) = true → bad = false →
      ∃ t k, exec (.vcmp g c d a b l) s = .next t ∧
        OneMask s t d k ((marked (activeIn m x.tag) (2048 / tagW x.tag)).foldl (fun f i => f ||| (r i).2) 0) ∧
        ∀ j, j < 256 → k.getLsbD j = (activeIn m x.tag (8 * j / tagW x.tag) && (r (8 * j / tagW x.tag)).1)

/-- R160: the lane-mask logic. -/
def LaneMaskLogic : Prop :=
  ∀ (s : State) (i : Instr) (g : Guard) (d : BitVec 3) (x : BitVec 256),
    maskLogic s i = some (g, d, x) → tailColumn s = false → s.guard g = true → ∃ t, exec i s = .next t ∧ OneMask s t d x 0

/-- R155, R161: VEXT, LMCNT and LMFF write one scalar register. -/
def VectorToScalar : Prop :=
  ∀ (s : State) (g : Guard) (i : BitVec 8) (a : BitVec 5) (k : BitVec 2) (m : BitVec 3) (r : BitVec 6),
    tailColumn s = false → s.guard g = true →
      let x := s.vreg a
      let c := codeOf x.bits x.tag (i.toNat % (2048 / tagW x.tag))
      let signed := x.tag == 8 || x.tag == 11 || ((x.tag == 9 || x.tag == 6 || x.tag == 7) && s.core.cur.preSh.efmt.getLsbD 3)
      let set := (List.range (256 / 2 ^ k.toNat)).filter fun j => (s.lmask m).getLsbD (j * 2 ^ k.toNat)
      (∃ t, exec (.vext g i a r) s = .next t ∧
        OneScalar s t r (if signed then (BitVec.ofNat (tagW x.tag) c).signExtend 64 else BitVec.ofNat 64 c)) ∧
      (∃ t, exec (.lmcnt g k m r) s = .next t ∧ OneScalar s t r (BitVec.ofNat 64 set.length)) ∧
      (∃ t v, exec (.lmff g k m r) s = .next t ∧ OneScalar s t r (BitVec.ofNat 64 v) ∧
        ((set = [] ∧ v = 256 / 2 ^ k.toNat) ∨ (v ∈ set ∧ ∀ j ∈ set, v ≤ j)))

/-- R28, R44, R162: TWR writes one row, bits 7 and 6 of each T6 byte zero, and the tag of its tile and keeps the other rows; TZERO writes all rows zero under its tag. -/
def TileWrites : Prop :=
  ∀ (s : State) (g : Guard) (v : BitVec 5) (d : BitVec 2) (i : BitVec 6) (f : BitVec 4),
    tailColumn s = false → s.guard g = true →
      (∃ t x, exec (.twr g v d i) s = .next t ∧ OneTile s t d x ∧ x.tag = (s.vreg v).tag ∧
        (∀ r, r < 64 → r ≠ i.toNat → x.bits.extractLsb' (2048 * r) 2048 = (s.treg d).bits.extractLsb' (2048 * r) 2048) ∧
        bytesAre (x.bits.extractLsb' (2048 * i.toNat) 2048) fun j =>
          if (s.vreg v).tag = 5 then byteOf (s.vreg v).bits j &&& 0x3F else byteOf (s.vreg v).bits j) ∧
      (∃ t, exec (.tzero g d f) s = .next t ∧ OneTile s t d ⟨0, f⟩)

/-- R164: VCHK goes on without effect when everything compared is equal and takes CHECK_MISMATCH when anything differs. -/
def VectorChecks : Prop :=
  ∀ (s : State) (g : Guard) (a b : BitVec 5) (l m : BitVec 3), tailColumn s = false → s.guard g = true →
    let x := s.vreg a
    let y := s.vreg b
    let same := x.tag = y.tag ∧ ∀ j, j < 256 → (s.lmask l).getLsbD j = true → byteOf x.bits j = byteOf y.bits j
    (same → exec (.vchk g a b l) s = .next s) ∧
    (¬ same → exec (.vchk g a b l) s = .next (s.raise .checkMismatch 0 0)) ∧
    (exec (.vchkLm g l m) s = .next (if s.lmask l = s.lmask m then s else s.raise .checkMismatch 0 0))

/-- R91, R129, R137: a V or M opcode other than NOP in a tail, or in the inline-mode callee, takes ILLEGAL_SLOT whatever its guard. -/
def MainContextSlots : Prop :=
  ∀ (s : State) (i : Instr), (vectorForm i = true ∨ matrixForm i = true) → tailColumn s = true → exec i s = .next (s.raise .illegalSlot 0 0)

/-- R122: SETB writes its signed offset to `bK` and changes nothing else. -/
def BranchTargetWrite : Prop :=
  ∀ (s : State) (g : Guard) (k : BitVec 6) (i : BitVec 13), k.toNat < 4 → s.guard g = true →
    ∃ t, exec (.setb g k i) s = .next t ∧
      (∀ j : BitVec 2, t.ctx.regs.b.read j = if j.toNat = k.toNat then i.signExtend 32 else s.ctx.regs.b.read j) ∧
      t.ctx.regs.s = s.ctx.regs.s ∧ t.ctx.regs.p = s.ctx.regs.p ∧ t.ctx.regs.dc = s.ctx.regs.dc ∧ OnlyRegs s t

/-- R169, R171, R172, R174 to R176, R380: MMA and MMAS wait for a DRAIN of a retired accumulator and for room in the matrix queue; then
they join it with their start, busy and ready ticks and the accumulator as observed at issue, and MMAS reads its literal word and advances
MPC; then too an MPC beyond the stream, a bad nibble, an accumulator of the other type and a poisoned line trap. -/
def MatrixMultiply : Prop :=
  ∀ (s : State) (i : Instr) (g : Guard) (sparse z : Bool) (c : BitVec 2) (k : BitVec 9) (a b : BitVec 3),
    multiplyForm i = some (g, sparse, z, c, k, a, b) → (sparse = true → a ≠ 3) → tailColumn s = false → s.guard g = true →
    let acc := s.core.acc.read c
    let ty : AccTy := if a = 2 ∨ a = 3 then .i32 else .fp32
    let lits := match s.core.overlay with | some o => o.lits | none => []
    let lit := lits[s.core.sh.mpc.toNat]?
    let nibbles := fun (m : BitVec 32) => ∀ j, j < (k.toNat + 1) / 4 → m.extractLsb' (4 * j) 2 < m.extractLsb' (4 * j + 2) 2
    let fits := z = true ∨ acc.st = .empty ∨ acc.ty = ty
    let atIssue := drainWait s c = false ∧ s.core.mq.length < 32
    let read := sparse = true → ∃ m, lit = some m ∧ nibbles m
    let bad := z = false ∧ (badLine s c fun _ => True)
    (atIssue → fits → ¬ bad →
      (sparse = false → exec i s = .next (queuedM s (multiplyEntry s false z c k a b 0))) ∧
      (∀ m, sparse = true → lit = some m → nibbles m →
        exec i s = .next ((queuedM s (multiplyEntry s true z c k a b m)).mapSh fun r => { r with mpc := r.mpc + 1 }))) ∧
    (atIssue → sparse = true → (∀ m, lit = some m → ¬ nibbles m) → exec i s = .next (s.raise .illegalEnc 0 0)) ∧
    (atIssue → ¬ fits → read → exec i s = .next (s.raise .tagMismatch 0 0)) ∧
    (atIssue → fits → read → bad → exec i s = .next (s.raise .dataUe 0 0)) ∧
    (drainWait s c = true → exec i s = .next (s.holdFor (.wait false))) ∧
    (drainWait s c = false → 32 ≤ s.core.mq.length → exec i s = .next (s.holdFor .matrix))

/-- R169, R183: MFLUSH joins the matrix queue with no busy time, naming the FIFOs it empties and the MPC it writes. -/
def MatrixFlush : Prop :=
  ∀ (s : State) (g : Guard) (r : BitVec 6) (fb fa : BitVec 1), tailColumn s = false → s.guard g = true →
    (s.core.mq.length < 32 →
      exec (.mflush g fb fa) s = .next (queuedM s (flushEntry s fa fb none)) ∧
      exec (.mflushPc g r fb fa) s = .next (queuedM s (flushEntry s fa fb (some ((s.sreg r).extractLsb' 0 24))))) ∧
    (32 ≤ s.core.mq.length →
      exec (.mflush g fb fa) s = .next (s.holdFor .matrix) ∧ exec (.mflushPc g r fb fa) s = .next (s.holdFor .matrix))

/-- R29, R177 to R179, R182, R380: MZERO, MPUSH and MFMT wait for a DRAIN of a retired accumulator, and leave a write of their accumulator
that commits 2, 3 and 130 ticks after issue; MFMT of an empty accumulator does nothing, and one that reads a poisoned line traps; MPUSH of
another tag, of a segment beyond it, or into an accumulator of the other type takes TAG_MISMATCH. -/
def AccumulatorWrites : Prop :=
  ∀ (s : State) (g : Guard) (c : BitVec 2) (ty : BitVec 1) (v : BitVec 5) (r : BitVec 7) (sg : BitVec 2),
    tailColumn s = false → s.guard g = true →
      let acc := s.core.acc.read c
      let x := s.vreg v
      let good := (x.tag = 1 ∨ x.tag = 8 ∨ ((x.tag = 2 ∨ x.tag = 3) ∧ sg.toNat < 2)) ∧
        (acc.st = .empty ∨ acc.ty = if x.tag = 8 then .i32 else .fp32)
      let into : AccTy := if ty = 1 then .i32 else .fp32
      (drainWait s c = false →
        exec (.mzero g c ty) s = .next (pendingAcc s c 2 (.zero into)) ∧
        (good → exec (.mpush g c v r sg) s = .next (pendingAcc s c 3 (.push r sg x (decide (acc.st = .empty))))) ∧
        (¬ good → exec (.mpush g c v r sg) s = .next (s.raise .tagMismatch 0 0)) ∧
        (acc.st ≠ .empty → (¬ badLine s c fun _ => True) → exec (.mfmt g c ty) s = .next (pendingAcc s c 130 (.fmt into acc))) ∧
        ((badLine s c fun _ => True) → exec (.mfmt g c ty) s = .next (s.raise .dataUe 0 0))) ∧
      (acc.st = .empty → exec (.mfmt g c ty) s = .next s) ∧
      (drainWait s c = true →
        exec (.mzero g c ty) s = .next (s.holdFor (.wait false)) ∧
        exec (.mpush g c v r sg) s = .next (s.holdFor (.wait false)) ∧
        exec (.mfmt g c ty) s = .next (s.holdFor (.wait false)))

/-- R180, R181, R184, R380: MPOP writes the converted segment with its tag and raises matrix flags, or takes DATA_UE where it reads a poisoned
line; MRET marks a live accumulator to be retired, and
MSTAT reads the matrix status; nothing else changes. -/
def AccumulatorReads : Prop :=
  ∀ (s : State) (g : Guard) (c : BitVec 2) (v : BitVec 5) (r : BitVec 7) (sg cv : BitVec 2) (d : BitVec 6),
    tailColumn s = false → s.guard g = true →
      let acc := s.core.acc.read c
      let src : BitVec 4 := if acc.ty = .i32 then 8 else 1
      (∀ t, popInto (decide (acc.ty = .i32)) cv = some t → (¬ badLine s c fun x => x = r) →
        let n := 2048 / tagW t
        let from' := fun i => readElem src s.core.cur.preSh.efmt (accCode acc (256 * r.toNat + n * sg.toNat + i))
        let elem := fun i => writeElem t s.core.cur.preSh.efmt .rne (from' i)
        ∃ u, exec (.mpop g c v r sg cv) s = .next u ∧ (u.core.sh.v.read v).tag = t ∧
          (∀ i, i < n → codeOf (u.core.sh.v.read v).bits t i = (elem i).1 % 2 ^ tagW t) ∧
          (∀ j, j ≠ v → u.core.sh.v.read j = s.core.sh.v.read j) ∧
          (∀ b, b < 4 → u.core.sh.mflags.getLsbD b = (s.core.sh.mflags.getLsbD b || (List.range n).any fun i =>
            if b = 0 then (elem i).2.getLsbD 8 || (from' i).isSignalling
            else (elem i).2.getLsbD (if b = 1 then 6 else if b = 2 then 10 else 9))) ∧
          u = s.mapSh fun q => { q with v := u.core.sh.v, mflags := u.core.sh.mflags }) ∧
      (popInto (decide (acc.ty = .i32)) cv ≠ none → (badLine s c fun x => x = r) → exec (.mpop g c v r sg cv) s = .next (s.raise .dataUe 0 0)) ∧
      (popInto (decide (acc.ty = .i32)) cv = none → exec (.mpop g c v r sg cv) s = .next (s.raise .tagMismatch 0 0)) ∧
      (∃ u, exec (.mret g c) s = .next u ∧ u.core.acc.read c = (if acc.st = .live then { acc with st := .liveRet } else acc) ∧
        (∀ j, j ≠ c → u.core.acc.read j = s.core.acc.read j) ∧ u = s.mapCore fun x => { x with acc := u.core.acc }) ∧
      (∃ u w, exec (.mstat g d) s = .next u ∧ OneScalar s u d w ∧
        exec (.mstatC g d) s = .next (u.mapSh fun q => { q with mflags := 0 }) ∧
        w.extractLsb' 0 4 = s.core.sh.mflags ∧ w.extractLsb' 32 24 = s.core.sh.mpc ∧ w.extractLsb' 56 8 = 0 ∧
        (s.core.fa.held.length < 256 → (w.extractLsb' 24 8).toNat = s.core.fa.held.length) ∧
        (s.core.fb.held.length < 256 → (w.extractLsb' 16 8).toNat = s.core.fb.held.length) ∧
        (s.core.fa.held.length < 256 → s.core.fb.held.length < 256 → ∀ k : BitVec 2,
          (w.extractLsb' (8 + 2 * k.toNat) 2).toNat = (match (s.core.acc.read k).st with
            | .empty => 0
            | .live => 1
            | .retired => 2
            | .liveRet => 3) ∧
          w.getLsbD (4 + k.toNat) = decide ((s.core.acc.read k).st ≠ .empty ∧ (s.core.acc.read k).ty = .i32)))

/-- R216, R217: DLD loads a descriptor from the local scratchpad, DSET writes one field of it, DSET.add adds to one, and MSETW writes a mark
set; a misplaced DLD traps. -/
def DescriptorWrites : Prop :=
  ∀ (s : State) (g : Guard) (d : BitVec 4) (a : BitVec 6) (f : BitVec 5), s.guard g = true →
    let x := (s.sreg a).toNat
    let lo := (fieldAt f).1
    let w := (fieldAt f).2
    (x % 64 = 0 → x + 64 ≤ 0x200000 → s.core.spadPoisoned x 64 = false →
      ∃ t, exec (.dld g d a) s = .next t ∧
        OneDesc (s.claim s.coreTile x 64 0) t d fun j => (Memory.read s.core.spad (x + j / 8)).getLsbD (j % 8)) ∧
    (x % 64 ≠ 0 → exec (.dld g d a) s = .next (s.raise .align (s.sreg a) 0)) ∧
    (x % 64 = 0 → 0x200000 < x + 64 → exec (.dld g d a) s = .next (s.raise .spadRange (s.sreg a) 0)) ∧
    (f.toNat < 22 →
      (∃ t, exec (.dset g d a f) s = .next t ∧
        OneDesc s t d fun j => if lo ≤ j ∧ j < lo + w then (s.sreg a).getLsbD (j - lo) else (s.dreg d).getLsbD j) ∧
      (∃ t, exec (.dsetAdd g d a f) s = .next t ∧
        OneDesc s t d fun j =>
          if lo ≤ j ∧ j < lo + w then (((s.dreg d).extractLsb' lo w).zeroExtend 64 + s.sreg a).getLsbD (j - lo) else (s.dreg d).getLsbD j)) ∧
    (∃ t, exec (.msetw g d a) s = .next t ∧ OneSet s t d ((s.sreg a).extractLsb' 0 21))

/-- R33, R211, R214, R218, R221 to R238: a command that passes its checks and finds room joins its slot's queue with its snapshots and makes
its mark pending; one that fails them takes ILLEGAL_ENC; a full queue holds; a CPYM on a tile whose quad is not aligned takes PROT; LSEND is
irrevocable. -/
def EngineCommands : Prop :=
  ∀ (s : State) (i : Instr) (o : CmdForm), commandOf s i = some o → s.guard o.guard = true →
    let isSend := match i with | .lsend _ _ _ _ => true | _ => false
    let isMcast := match i with | .cpym _ _ _ _ _ => true | _ => false
    let s1 := if isSend then s.mapCtx fun x => { x with irrevOut := true } else s
    let goes := (isMcast = true → bindQalign (s.bind s.coreTile) = true) ∧ (isSend = true → s.ctx.ckDone = true)
    (o.ok = true → goes → (slotQueue s).length < 32 → exec i s = .next (accepted s1 i o)) ∧
    (o.ok = true → goes → 32 ≤ (slotQueue s).length → exec i s = .next (s1.holdFor .queueFull)) ∧
    (o.ok = false → exec i s = .next (s.raise .illegalEnc 0 0)) ∧
    (o.ok = true → isMcast = true → bindQalign (s.bind s.coreTile) = false → exec i s = .next (s.raise .prot 0 0)) ∧
    (isSend = true → s.ctx.ckDone = false → s.ctx.irrevOut = false → exec i s = .next (s.needCk .irrevBefore)) ∧
    (isSend = true → s.ctx.ckDone = false → s.ctx.irrevOut = true → exec i s = .next (s.holdFor .order))

/-- R66, R70, R78 to R90: some of the spec's worked encodings decode to the instructions that they stand for. -/
def DecodeWords : Prop := ∀ w ∈ workedWords, decodeSlot w.1 w.2.1 = .ok w.2.2

/-- R68, R70, R78 to R90: for every well-formed slot instruction, with every operand at every value that its encoding admits, the word that
the encoder lays out decodes in the instruction's slot to that instruction. -/
def EncodeDecode : Prop :=
  ∀ (i : Instr) (k : BitVec 3), i.wf = true → i.homeSlot = some k → ∃ w, encode i = some w ∧ decodeSlot k w = .ok i

/-- R85, R91: what a slot's decoder reads from a word is well-formed and belongs to that slot, or to the first of the two slots of its
kind. -/
def DecodedWellFormed : Prop :=
  ∀ (k : BitVec 3) (w : BitVec 32) (i : Instr), decodeSlot k w = .ok i →
    i.wf = true ∧ ∃ h, i.homeSlot = some h ∧ (h = k ∨ (h = 3 ∧ k = 4) ∨ (h = 6 ∧ k = 7))

/-- R66, R73, R75, R282: when the only action is a cycle of a core whose picked context comes to a bundle that decodes to the eight
instructions `i`, with no trap, hold or checkpoint before it and no poisoned line read, the step runs those instructions on the state in which the bundle begins, and
then ends the bundle. -/
def StepRunsDecoded : Prop :=
  ∀ (s : State) (t : BitVec 7) (n : BitVec 2) (b : BitVec 256) (i : BitVec 3 → Instr),
    let f := (s.focus t).noteAll.pickNow
    let g := f.begun n (inOrder i)
    s.inputs = [] → s.acts = [.cycle t] → f.core.cur.picked = some n → f.hindered n = none →
    f.core.bundleAt (f.core.ctx n).ix = some b → (f.core.ctx n).barwOnly = false →
    PLine.bundle (f.core.ctx n).ix ∉ f.core.linePoison → g.lineTraps (inOrder i) = [] → f.core.interlocked n (inOrder i) = false → f.core.earlyTraps n b (inOrder i) = [] →
    (∀ k, decodeSlot k (slotWord b k) = .ok (i k)) →
    ((inOrder i).filter fun p => spadUse p.2 ≠ 0).length < 2 →
    (∀ k, ∃ u, exec (i k) (g.mapCur fun c => { c with slot := k }) = .next u ∧ Clean k u) →
    ∀ u, runSlots g (inOrder i) = some u → u.core.cur.hold = none → u.core.entries n ≤ partSize n →
      Machine.step s = .next (((u.finished g (inOrder i)).pass.mapCore Core.cycleOver).clock t)

/-- R69: a false guard makes an instruction of the main context change nothing, and so does one of the D and C slots in any context, but for
SEL, the `.x` compares, and immediates and forms that trap whatever the guard. -/
def FalseGuard : Prop :=
  ∀ (s : State) (i : Instr), i.homeSlot.isSome = true → s.guard (guardOfInstr i) = false → effectAlways i = false → immediateOk s i = true →
    (tailColumn s = false ∨ i.homeSlot = some 2 ∨ i.homeSlot = some 6) → exec i s = .next s

/-- R22, R23, R35, R36, R320, R413: what the machine holds right after reset. The values of the registers for which the spec gives none are the model's
choice (assumption log 1), and so is what memory reads (assumption log 2). -/
def ResetValues : Prop :=
  let s := State.reset
  s.boot = .inReset ∧ (∀ t, (s.coreAt t).bound = false ∧ bindState (s.bind t) = 0) ∧ (∀ a, Memory.read s.mem a = 0) ∧
    s.core.sh.efmt = 0x29 ∧ s.core.sh.seed = 1 ∧ s.core.sh.frm = 0 ∧ s.core.main.regs.sreg 62 = 0x200000 ∧
    (∀ j, j ≠ 62 → s.core.main.regs.sreg j = 0) ∧ (∀ j, j ≠ 0 → s.core.main.regs.preg j = false) ∧
    (∀ j, s.core.sh.lmask j = BitVec.allOnes 256) ∧ (∀ j, (s.core.acc.read j).st = .empty) ∧ s.refClk = 0 ∧ s.inputs = []

/-- The memories of the machine stand in their canonical form right after reset. -/
def ResetMemories : Prop := MemoriesOk State.reset

/-- R20, R190: every step keeps device memory and every scratchpad in canonical form, from every state in which they are. -/
def StepKeepsMemories : Prop :=
  ∀ (s t : State), MemoriesOk s → Machine.step s = .next t → MemoriesOk t

/-- R369: every stop of the machine is a state: a trap taken, a core held, frozen or in reset. No step faults and none is refused. -/
def StepGoes : Prop := ∀ (s : State), Goes (Machine.step s)

/-- R40, R190, R199: no slot instruction that traps on nothing changes a byte of device memory; withheld stores, requests and engine commands
do so later. -/
def NoSlotWritesDevice : Prop :=
  ∀ (s t : State) (i : Instr), i.homeSlot.isSome = true → s.core.cur.trap = none → exec i s = .next t → t.core.cur.trap = none →
    t.mem = s.mem ∧ t.parked = s.parked ∧ t.binds = s.binds ∧ t.gangs = s.gangs

/-- R369, R382, R385: a fatal trap kills the member: its core is free, the scratchpads keep their bytes but for those of units that commands have in
hand, which land (the model's reading, assumption log 102), its slot-table entry becomes free unless the tile is unavailable, its gang counts a killed
member, and a record of kind 3 says cause, bundle, address and detail. -/
def FatalTrap : Prop :=
  ∀ (s : State) (c : Cause) (n : BitVec 2) (ix : BitVec 13) (unit : BitVec 8) (addr detail : Word),
    c.cls = .fatal → ringRoom s (dieOf s.coreTile) → (∀ q ∈ s.core.q0 ++ s.core.q1, q.pin = none) →
    s.isflush.contains s.coreTile = false → Memory.wf s.mem = true →
      let u := s.takeTrap ⟨c, unit, addr, detail⟩ n ix
      let v := s.landUnits (s.core.q0 ++ s.core.q1)
      memberGone u ∧ u.core.spad = v.core.spad ∧ u.parked = v.parked ∧
      ((∀ q ∈ s.core.q0 ++ s.core.q1, q.pend = []) → u.core.spad = s.core.spad ∧ u.parked = s.parked) ∧ u.core.cur.trap = some ⟨c, unit, addr, detail⟩ ∧
      (u.bind s.coreTile = if bindState (s.bind s.coreTile) = 5 then 5 else 0) ∧
      (∀ t, t ≠ s.coreTile → u.bind t = s.bind t) ∧
      (∀ g, s.gangOf s.coreTile = some g → ∃ h ∈ u.gangs, h.gang = g.gang ∧ h.killed = g.killed + 1 ∧ s.coreTile ∈ h.dead ∧ s.coreTile ∈ h.gone ∧
        (g.killed = 0 → h.code = 1 ∧ h.cause.toNat = c.code)) ∧
      ∃ r, recordSays r 3 c.code ix (recordAddr c addr) detail ∧ recordPosted s u r

/-- R369, R370, R384, R385: a freeze stops the whole core at its bundle, drops a rollback event of its context that it outranks, and posts a
record of kind 4; no register and no scratchpad byte changes. A core that is frozen takes no second freeze. -/
def FreezeTrap : Prop :=
  ∀ (s : State) (c : Cause) (n : BitVec 2) (ix : BitVec 13) (unit : BitVec 8) (addr detail : Word), c.cls = .freeze →
    let u := s.takeTrap ⟨c, unit, addr, detail⟩ n ix
    let noted := s.mapCur fun i => { i with trap := some ⟨c, unit, addr, detail⟩ }
    let still := noted.mapCore fun k => { (k.mapCtx n fun x => { x with rollPend := none }) with frozen := some ⟨c, n, ix⟩ }
    (s.core.frozen = none → u.core = still.core ∧ u.parked = s.parked ∧
      ∃ r, recordSays r 4 c.code ix (recordAddr c addr) detail ∧ u = still.postRecord (dieOf s.coreTile) (some (s.coreTile, n)) r) ∧
    (s.core.frozen ≠ none → u = noted)

/-- R370, R373, R374, R376: a rollback event stops its context for a rollback when the phase is protected, no irrevocable operation of it is
out and fewer than three rollbacks have come before, one in progress among them; else it kills the member, whose scratchpad keeps its bytes but for
those of units that commands have in hand (the model's reading, assumption log 102). One that comes while an earlier
one waits is outranked by it. -/
def RollbackTrap : Prop :=
  ∀ (s : State) (c : Cause) (n : BitVec 2) (ix : BitVec 13) (unit : BitVec 8) (addr detail : Word), c.cls = .rollback →
    let t : Trap := ⟨c, unit, addr, detail⟩
    let x := s.core.ctx n
    let u := s.takeTrap t n ix
    let noted := s.mapCur fun i => { i with trap := some t }
    let before := x.rolls + if x.rolling.isSome then 1 else 0
    (x.rollPend ≠ none → u = noted) ∧
    (x.rollPend = none → x.irrevOut = false → x.unprot = .safe → before < 3 →
      u = noted.mapCore fun k => k.mapCtx n fun x => { x with rollPend := some t, rollFresh := true, hold := none }) ∧
    (x.rollPend = none → (x.irrevOut = true ∨ x.unprot ≠ .safe ∨ 3 ≤ before) → memberGone u ∧
      u.core.spad = (s.landUnits (s.core.q0 ++ s.core.q1)).core.spad ∧
      ((∀ q ∈ s.core.q0 ++ s.core.q1, q.pend = []) → u.core.spad = s.core.spad))

/-- R369: the class of each cause, and its code. -/
def TrapCauses : Prop :=
  (∀ c : Cause, c.cls = match c with
    | .tagMismatch => .rollback
    | .checkMismatch => .rollback
    | .dataUe => .rollback
    | .xlateFault => .stall
    | .prot => .freeze
    | .brk => .freeze
    | _ => .fatal) ∧
  (∀ c d : Cause, c.code = d.code → c = d) ∧ ∀ c : Cause, 1 ≤ c.code ∧ c.code ≤ 15

/-- R370, R374, R384: once the cycle in which the event was detected is over, and unless the core is frozen, ROLLBACK_EVENT empties the context's partition, cancels its phase's commands, and stops it until its loads have come. -/
def RollbackStops : Prop :=
  ∀ (s : State),
    let f := s.focus s.ev.tile
    let n := s.ev.ctx
    let x := f.core.ctx n
    x.rollPend.isSome = true → x.rolling = none → x.rollFresh = false → f.core.frozen = none → n.toNat < 3 →
      ∃ u, exec .rollbackEvent s = .next u ∧ (u.core.ctx n).part = [] ∧ (u.core.ctx n).rolling = x.rollPend ∧ (u.core.ctx n).rollPend = none ∧
        (u.core.ctx n).ck = none ∧ (u.core.ctx n).regs = x.regs ∧ u.core.spad = f.core.spad ∧
        (∀ k, k ∈ u.core.q0 ++ u.core.q1 ↔ k ∈ f.core.q0 ++ f.core.q1 ∧ ¬ (k.ctx = n ∧ k.phase = x.phase)) ∧
        (∀ m, m ≠ n → m.toNat < 3 → u.core.ctx m = f.core.ctx m)

/-- A tail after a rollback of the main context: one that a RELC of the unfinished phase has started is free again. -/
def unstarted (c : Core) (x : Ctx) : Ctx := if x.run = .running ∧ c.main.phase < x.afterPhase then { x with run := .free } else x

/-- R22, R29, R288, R374, R375: ROLLBACK_RESTORE gives the context its duplicate registers and its restart point, counts the rollback, and in the main
context restores the shared registers from the duplicate set, the marks, mark sets and descriptors among them but for those that a tail has touched,
keeps the multicasts that have arrived, zeroes live accumulators and keeps retired ones; of FA and FB the retained lines are held again, first, and
those of the phase's FEEDs, marked one above its number, are gone (R31). What RELC has recorded since the last checkpoint is
undone, which is the model's reading (assumption log 101). A scratchpad keeps its bytes. -/
def RollbackRestores : Prop :=
  ∀ (s : State),
    let f := s.focus s.ev.tile
    let n := s.ev.ctx
    let x := f.core.ctx n
    let c := f.core
    let from' := fun (own : Bool) (m : Nat) (w d : Word) => if own then w.getLsbD m else d.getLsbD m
    x.rolling.isSome = true → c.loadsSettled n = true → c.frozen = none → c.dupBad n = false → n.toNat < 3 →
      ∃ u, exec .rollbackRestore s = .next u ∧ (u.core.ctx n).regs = x.dup ∧ (u.core.ctx n).ix = x.restart ∧
        (u.core.ctx n).rolls = x.rolls + 1 ∧ (u.core.ctx n).rolling = none ∧ u.core.spad = c.spad ∧ u.core.cyc = c.cyc ∧
        (n ≠ 0 → u.core.sh = c.sh ∧ u.core.acc = c.acc ∧ u.core.fa = c.fa ∧ u.core.fb = c.fb ∧ u.core.inline = c.inline ∧ u.core.latest = c.latest ∧
          ∀ m, m ≠ n → m.toNat < 3 → u.core.ctx m = c.ctx m) ∧
        (n = 0 → u.core.sh.v = c.dupSh.v ∧ u.core.sh.t = c.dupSh.t ∧ u.core.sh.lm = c.dupSh.lm ∧ u.core.sh.frm = c.dupSh.frm ∧
          u.core.sh.seed = c.dupSh.seed ∧ u.core.sh.efmt = c.dupSh.efmt ∧ u.core.sh.loops = c.dupSh.loops ∧
          u.core.sh.mpc = c.dupSh.mpc ∧ u.core.sh.mflags = c.dupSh.mflags ∧
          (∀ k, u.core.sh.d.read k = if c.tailD.getLsbD k.toNat then c.sh.d.read k else c.dupSh.d.read k) ∧
          (∀ k, u.core.sh.ms.read k = if c.tailMs.getLsbD k.toNat then c.sh.ms.read k else c.dupSh.ms.read k) ∧
          (∀ k : BitVec 6, let own := c.tailMarks.getLsbD k.toNat
            u.core.sh.mready.getLsbD k.toNat = (from' own k.toNat c.sh.mready c.dupSh.mready || c.mcast.getLsbD k.toNat) ∧
            u.core.sh.mstale.getLsbD k.toNat = from' own k.toNat c.sh.mstale c.dupSh.mstale ∧
            u.core.sh.merr.getLsbD k.toNat = from' own k.toNat c.sh.merr c.dupSh.merr ∧
            u.core.sh.mpend.read k = (if own then c.sh.mpend.read k else c.dupSh.mpend.read k)) ∧
          u.core.inline = c.dupCall.inline ∧ u.core.latest = c.dupCall.latest ∧ u.core.inlineBit = c.dupCall.inlineBit ∧
          u.core.tail0 = unstarted c c.tail0 ∧ u.core.tail1 = unstarted c c.tail1 ∧
          (∀ p ∈ [(c.fa, u.core.fa), (c.fb, u.core.fb)], p.2.retained = [] ∧
            p.2.held = (p.1.retained ++ p.1.held).filter fun l => l.phase ≠ c.main.phase + 1) ∧
          ∀ a, u.core.acc.read a = match (c.acc.read a).st with
            | .live => ⟨.empty, .fp32, 0⟩
            | .liveRet => ⟨.empty, .fp32, 0⟩
            | _ => c.acc.read a)

/-- R29, R35, R371, R373: CHECKPOINT copies the context's registers to its duplicate set, releases its partition, begins a new phase with no
rollbacks counted, and in the main context puts the last pending SETEF value in force, changing no other shared register, before they are copied,
frees retained lines, and retires the accumulators that MRET marked. -/
def CheckpointTaken : Prop :=
  ∀ (s : State) (k : Ckpt),
    let f := s.focus s.ev.tile
    let n := s.ev.ctx
    let x := f.core.ctx n
    f.ckDue n = true → x.ck = some k → n.toNat < 3 →
      ∃ u, exec .checkpoint s = .next u ∧ (u.core.ctx n).dup = x.regs ∧ (u.core.ctx n).regs = x.regs ∧ (u.core.ctx n).restart = k.restart ∧
        (u.core.ctx n).released = x.part ∧ (u.core.ctx n).part = [] ∧ (u.core.ctx n).phase = x.phase + 1 ∧ (u.core.ctx n).rolls = 0 ∧
        (u.core.ctx n).ck = none ∧ (k.why = .tendTail → (u.core.ctx n).run = .ended) ∧ (k.why = .endMember → u.core.ending = true) ∧
        u.core.spad = f.core.spad ∧
        (n = 0 → u.core.dupSh = u.core.sh ∧ u.core.dupCall = ⟨f.core.inline, f.core.latest, f.core.inlineBit⟩ ∧
          u.core.sh = { f.core.sh with efmt := match f.core.sh.efmtPend.getLast? with | some p => 0#24 ++ p.2 | none => f.core.sh.efmt, efmtPend := [] } ∧
          u.core.fa = { f.core.fa with retained := [] } ∧ u.core.fb = { f.core.fb with retained := [] } ∧
          ∀ a, u.core.acc.read a = match (f.core.acc.read a).st with
            | .liveRet => { f.core.acc.read a with st := .retired }
            | _ => f.core.acc.read a) ∧
        (n ≠ 0 → u.core.sh = f.core.sh ∧ u.core.acc = f.core.acc ∧ u.core.fa = f.core.fa ∧ u.core.fb = f.core.fb)

/-! ## Events -/

/-- The state with the core of the event's tile in focus. -/
def at_ (s : State) : State := s.focus s.ev.tile

/-- The core of the event's tile. -/
def here (s : State) : Core := (at_ s).core

/-- The state after an event, when it goes on to one. -/
def leads (i : Instr) (s u : State) : Prop := exec i s = .next u

/-- Nothing differs but the core in focus, and of that only what is named elsewhere: device memory, the parked cores and the slot tables. -/
def restSame (s u : State) : Prop :=
  u.mem = (at_ s).mem ∧ u.parked = (at_ s).parked ∧ u.coreTile = (at_ s).coreTile ∧ u.binds = s.binds ∧ u.gangs = s.gangs

/-- The bits of a mark after its last pending command has completed (R32). -/
def markSet (r q : Shared) (m : BitVec 6) (stale err : Bool) : Prop :=
  q.mready.getLsbD m.toNat = true ∧ q.mstale.getLsbD m.toNat = (r.mstale.getLsbD m.toNat || stale) ∧
    q.merr.getLsbD m.toNat = (r.merr.getLsbD m.toNat || err) ∧
    ∀ k, k < 64 → k ≠ m.toNat → q.mready.getLsbD k = r.mready.getLsbD k ∧ q.mstale.getLsbD k = r.mstale.getLsbD k ∧
      q.merr.getLsbD k = r.merr.getLsbD k

/-- PICK_CONTEXT (R282). -/
def PickContextEvent : Prop :=
  ∀ (s : State),
    let c := here s
    let ready := fun n => decide ((c.ctx n).run = .running) && (c.ctx n).ready
    let late := fun n => ready n && decide (6 ≤ (c.ctx n).w)
    let first := decide ((c.ctx 2).w ≤ (c.ctx 1).w)
    ∃ u, leads .pickContext s u ∧
      (u.core.cur.picked =
        if late 1 ∧ (late 2 = false ∨ first) then some 1 else if late 2 then some 2 else if ready 0 then some 0
        else if ready 1 ∧ (ready 2 = false ∨ first) then some 1 else if ready 2 then some 2 else none) ∧
      (∀ n : BitVec 2, n = 1 ∨ n = 2 → (u.core.ctx n).w =
        if u.core.cur.picked = some n then 0 else if ready n then (c.ctx n).w + 1 else (c.ctx n).w) ∧
      u.core.main = c.main ∧ u.core.sh = c.sh ∧ u.core.spad = c.spad ∧ restSame s u

/-- A record's FLAGS about the main context: bit 0 says that its phase is unprotected (R385). -/
def flagSays (r : BitVec 512) (c : Core) : Prop := r.getLsbD 40 = decide (c.main.unprot ≠ .safe)

/-- YIELD_DEADLINE and PHASE_OVERRUN post their records once (R326, R328, R385). -/
def LateEvents : Prop :=
  ∀ (s : State), Memory.wf (at_ s).mem = true → ringRoom (at_ s) (dieOf (at_ s).coreTile) →
    let c := here s
    (c.yieldLate = true → ∃ u r, leads .yieldDeadline s u ∧ recordSays r 6 0 c.main.ix 0 0 ∧ flagSays r c ∧ recordPosted (at_ s) u r ∧
      u.core = { c with latePosted := true }) ∧
    ((at_ s).overrun = true → ∃ u r, leads .phaseOverrun s u ∧ recordSays r 5 0 c.main.ix 0 0 ∧ flagSays r c ∧ recordPosted (at_ s) u r ∧
      u.core = { c with overPosted := true })

/-- WAIT_PREEMPTION rolls the waiting member back, and once its loads have arrived saves it, or ends it when it is a ballast member (R327,
R333); a core that a trap has frozen meanwhile rests (R384). -/
def WaitPreemptionEvent : Prop :=
  ∀ (s : State),
    let c := here s
    ((at_ s).waitedOut = true → ∃ u, leads .waitPreemption s u ∧ u.core.save = .wanted ∧ u.core.main.part = [] ∧ u.core.main.regs = c.main.regs ∧
      u.core.spad = c.spad ∧ (∀ k ∈ u.core.q0 ++ u.core.q1, ¬ (k.ctx = 0 ∧ k.phase = c.main.phase))) ∧
    ((at_ s).waitedOut = false → c.save = .wanted → c.frozen = none → c.loadsSettled 0 = true → c.dupBad 0 = false →
      ∃ u, leads .waitPreemption s u ∧ u.core.main.regs = c.main.dup ∧ u.core.main.ix = c.main.restart ∧ u.core.spad = c.spad ∧
        if bindBallast ((at_ s).bind (at_ s).coreTile) then u.core.ending = true ∧ bindState (u.bind (at_ s).coreTile) = 3
        else u.core.save = .reached ∧ bindState (u.bind (at_ s).coreTile) = 4) ∧
    (c.save = .wanted → c.frozen ≠ none → leads .waitPreemption s (at_ s))

/-- ENGINE_COMMAND_START: a command that may start starts; one whose units are done is done; a unit of a CPY inside the local scratchpad has
its bytes read and on their way (R211, R213, R219 to R221, R248). -/
def EngineStartEvent : Prop :=
  ∀ (s : State) (k : Cmd),
    let c := here s
    let tile := (at_ s).coreTile
    let e := s.ev.eng
    c.enginesRun = true → c.headCmd e = some k → k.done = false →
      (k.started = false → c.mayStart k = true → ∃ u, leads .engineCommandStart s u ∧ u = (at_ s).mapCore fun c => c.putCmd e { k with started := true }) ∧
      (k.started = true → k.exhausted = true → ∃ u, leads .engineCommandStart s u ∧ u = (at_ s).mapCore fun c => c.putCmd e { k with done := true }) ∧
      (∀ g d m j l, k.started = true → k.pend = [] → k.progress < k.total → k.i = .cpy g d m j 0 0 l → fd k.d0 473 3 = 0 →
        let p := nestPoint k.d0 k.progress
        let n := unitSize (fd k.d0 476 4)
        let from' := (p.s % 2 ^ 24).toNat
        let into := (p.t % 2 ^ 24).toNat
        p.pad = false → from' + n ≤ 0x200000 → into + n ≤ 0x200000 → (at_ s).storeOnWay k tile = false →
        (∀ x, from' ≤ x → x < from' + n → c.spadPoisoned x 1 = false) →
          ∃ u, leads .engineCommandStart s u ∧ u.core.spad = c.spad ∧
            u.core.queue e = (c.queue e).map (fun x => if x.id = k.id then
              { k with
                progress := k.progress + 1
                pend := (List.range n).map fun j => (tile, into + j, Memory.read c.spad (from' + j)) } else x) ∧
            u.core.main = c.main ∧ u.core.sh = c.sh ∧ restSame s u)

/-- Of a command's scratchpad bytes on their way some perform in a step, each byte on its own, and the others later (R248); those of the unit in
hand in a frozen core too (R384). -/
def UnitBytesEvent : Prop :=
  ∀ (s : State) (k : Cmd),
    let c := here s
    let e := s.ev.eng
    let tile := (at_ s).coreTile
    c.unitsLand = true → c.headCmd e = some k → k.done = false → k.started = true → k.pend ≠ [] → (∀ w ∈ k.pend, w.1 = tile) →
    (k.pend.map (·.2.1)).Nodup → Memory.wf c.spad = true →
      ∃ u now rest, leads .engineCommandStart s u ∧ now ≠ [] ∧ (∀ w, w ∈ now ∨ w ∈ rest ↔ w ∈ k.pend) ∧
        (∀ x, Memory.read u.core.spad x = match now.find? (fun w => w.2.1 = x) with | some w => w.2.2 | none => Memory.read c.spad x) ∧
        u.core.queue e = (c.queue e).map (fun x => if x.id = k.id then { k with pend := rest } else x) ∧
        u.core.main = c.main ∧ u.core.sh = c.sh ∧ restSame s u

/-- ENGINE_COMMAND_COMPLETE: a command that is done leaves its queue, its mark gets its bits when it was the last pending on it, and its matrix flags
go to the duplicate set too when its phase has closed (R32, R211, R235, R243, R374). -/
def EngineCompleteEvent : Prop :=
  ∀ (s : State) (k : Cmd),
    let c := here s
    let e := s.ev.eng
    c.headCmd e = some k → k.done = true → k.pin = none → (at_ s).arrivalsOf k = [] → (at_ s).arriving k = false →
    c.sh.mpend.read k.mark = 1 → c.sh.mbits.read k.mark = 0 →
      ∃ u, leads .engineCommandComplete s u ∧ u.core.queue e = (c.queue e).filter (fun x => decide (x.id ≠ k.id)) ∧
        markSet c.sh u.core.sh k.mark k.isStale k.err ∧ u.core.sh.mpend.read k.mark = 0 ∧ u.core.sh.mflags = c.sh.mflags ||| k.flags ∧
        u.core.dupSh.mflags = (if k.mphase < c.main.phase then c.dupSh.mflags ||| k.flags else c.dupSh.mflags) ∧
        u.core.main = c.main ∧ u.core.spad = c.spad ∧ restSame s u

/-- FEED_LINE_WRITE puts the line that a FEED has built last in its FIFO (R31, R234). -/
def FeedLineEvent : Prop :=
  ∀ (s : State) (k : Cmd) (g : Guard) (d : BitVec 4) (m : BitVec 6) (j : BitVec 4) (e f : BitVec 1) (cv : BitVec 3),
    let c := here s
    let q := fun (c : Core) => if f = 1 then c.fb else c.fa
    let o := fun (c : Core) => if f = 1 then c.fa else c.fb
    c.headCmd s.ev.eng = some k → k.i = .feed g d m j e cv f → c.enginesRun = true → k.lineDue = true → (q c).held.length < 128 →
      ∃ u l, leads .feedLineWrite s u ∧ (q u.core).held = (q c).held ++ [l] ∧
        (∀ x, x < 256 → byteOf l.bits x = k.buf.getD x 0) ∧
        l.tag = (if cv = 0 then BitVec.ofNat 4 (fd k.d0 476 4) else if cv = 1 then 2 else if cv = 2 then 3 else if cv = 3 then 4 else if cv = 4 then 5
          else BitVec.ofNat 4 (fd k.d0 476 4)) ∧
        o u.core = o c ∧ u.core.queue s.ev.eng = (c.queue s.ev.eng).map (fun x => if x.id = k.id then { k with buf := k.buf.drop 256 } else x) ∧
        u.core.sh = c.sh ∧ u.core.spad = c.spad ∧ u.core.main.regs = c.main.regs ∧ restSame s u

/-- MULTICAST_ARRIVAL sets the receiver's mark ready at once (R32, R223). -/
def MulticastEvent : Prop :=
  ∀ (s : State) (m : BitVec 6), (s.arrivals.find? fun a => a.1 = s.ev.tile) = some (s.ev.tile, m) →
    let c := s.coreAt s.ev.tile
    ∃ u, leads .multicastArrival s u ∧ u.arrivals = s.arrivals.erase (s.ev.tile, m) ∧
      (c.bound = true → (u.coreAt s.ev.tile).sh.mready = c.sh.mready ||| BitVec.ofNat 64 (2 ^ m.toNat) ∧
        (u.coreAt s.ev.tile).mcast = c.mcast ||| BitVec.ofNat 64 (2 ^ m.toNat)) ∧
      (u.coreAt s.ev.tile).main = c.main ∧ (u.coreAt s.ev.tile).spad = c.spad ∧ u.mem = s.mem

/-- MATRIX_K_STEP: the k-step that is due consumes its lines of the right tags, the first of a block after the block's scale lines where scales are
due, and they are retained; once its last line is consumed the entry leaves the queue and its write is pending at the ready tick (R166 to
R170, R31). -/
def MatrixStepEvent : Prop :=
  ∀ (s : State) (e : MEntry),
    let c := here s
    let scaled := fun (bit : Nat) => decide (e.af ≠ 2 ∧ e.af ≠ 3) && e.efmt.getLsbD bit
    let ka := if scaled 6 ∧ e.steps % 32 = 0 then 1 else 0
    let kb := if scaled 7 ∧ e.steps % 32 = 0 then 1 else 0
    let na := ka + (dataLines (e.aSteps e.steps) 128 (mWidth e.af) - e.aLines.length)
    let nb := kb + (dataLines (e.steps + 1) 256 (mWidth e.bf) - e.bLines.length)
    let la := c.fa.held.take na
    let lb := c.fb.held.take nb
    c.dueEntry = some e → e.efmt.extractLsb' 4 2 ≠ 0 → na ≤ c.fa.held.length → nb ≤ c.fb.held.length →
    (∀ l ∈ la ++ lb, l.bad = false) → (∀ l ∈ la.take ka ++ lb.take kb, l.tag = 10) → (∀ l ∈ la.drop ka, l.tag = mTag e.af) →
    (∀ l ∈ lb.drop kb, l.tag = mTag e.bf) →
      ∃ u e', leads .matrixKStep s u ∧ u.core.fa = ⟨c.fa.held.drop na, c.fa.retained ++ la⟩ ∧
        u.core.fb = ⟨c.fb.held.drop nb, c.fb.retained ++ lb⟩ ∧
        e' = { e with
          steps := e.steps + 1
          aLines := e.aLines ++ (la.drop ka).map (·.bits), bLines := e.bLines ++ (lb.drop kb).map (·.bits)
          aScales := e.aScales ++ (la.take ka).map (·.bits), bScales := e.bScales ++ (lb.take kb).map (·.bits) } ∧
        (let last := e'.aLines.length = dataLines (e.aSteps (e.k - 1)) 128 (mWidth e.af) ∧ e'.bLines.length = dataLines e.k 256 (mWidth e.bf) ∧
          (scaled 6 = true ∨ scaled 7 = true → (e.k - 1) / 32 * 32 < e.steps + 1)
        u.core.mq = (if last then c.mq.drop 1 else e' :: c.mq.drop 1) ∧
          u.core.apend = (if last then c.apend ++ [⟨e.acc, e.ready, .mma e', e.phase⟩] else c.apend)) ∧
        u.core.acc = c.acc ∧ u.core.sh = c.sh ∧ u.core.main = c.main ∧ u.core.spad = c.spad ∧ restSame s u

/-- ACCUMULATOR_COMMIT and M_ACC_COMMIT write the accumulator whose ready tick has come: the result of an MMA or MMAS; zeros; one segment;
or the converted elements. It is live, of the type written (R29, R173, R177 to R182). -/
def CommitEvents : Prop :=
  ∀ (s : State) (p : AccPend),
    let c := here s
    let i := match p.write with | .mma _ => Instr.accumulatorCommit | _ => Instr.mAccCommit
    c.readyPend = some p →
      ∃ u, leads i s u ∧ u.core.apend = c.apend.erase p ∧ (∀ a, a ≠ p.acc → u.core.acc.read a = c.acc.read a) ∧
        (u.core.acc.read p.acc).st = .live ∧ u.core.mq = c.mq ∧ u.core.main = c.main ∧ u.core.spad = c.spad ∧ restSame s u ∧
        match p.write with
        | .mma e => u.core.acc.read p.acc = ⟨.live, if e.af = 2 ∨ e.af = 3 then .i32 else .fp32, e.result.1⟩ ∧ u.core.sh.mflags = c.sh.mflags ||| e.result.2
        | .zero ty => u.core.acc.read p.acc = ⟨.live, ty, 0⟩ ∧ u.core.sh.mflags = c.sh.mflags
        | .push row sg v fresh =>
          let n := if v.tag = 1 ∨ v.tag = 8 then 64 else 128
          let base := 256 * row.toNat + n * sg.toNat
          (v.tag = 1 ∨ v.tag = 2 ∨ v.tag = 3 ∨ v.tag = 8) → base + n ≤ 32768 → (u.core.acc.read p.acc).ty = (if v.tag = 8 then .i32 else .fp32) ∧
            ∀ j, j < 32768 → accCode (u.core.acc.read p.acc) j =
              if base ≤ j ∧ j < base + n then
                (if n = 64 then codeOf v.bits v.tag (j - base) else (Fmt.ofVal ⟨8, 23⟩ .rne (readElem v.tag 0 (codeOf v.bits v.tag (j - base)))).1 % 2 ^ 32)
              else if fresh then 0 else accCode (c.acc.read p.acc) j
        | .fmt ty o => (u.core.acc.read p.acc).ty = ty ∧ (o.ty = ty → (u.core.acc.read p.acc).bits = o.bits) ∧
            (o.ty = .i32 → ty = .fp32 → ∀ j, j < 32768 → accCode (u.core.acc.read p.acc) j = (Fmt.ofVal ⟨8, 23⟩ .rne (readElem 8 0 (accCode o j))).1 % 2 ^ 32) ∧
            (¬ (o.ty = .fp32 ∧ ty = .i32) → u.core.sh.mflags = c.sh.mflags) ∧
            (o.ty = .fp32 → ty = .i32 →
              let x := fun j => toIntSat .rne (-2147483648) 2147483647 (Fmt.decode ⟨8, 23⟩ (accCode o j))
              (∀ j, j < 32768 → (accCode (u.core.acc.read p.acc) j : Int) = (x j).1 % 2 ^ 32) ∧
              ∀ k, k < 4 → (u.core.sh.mflags.getLsbD k = true ↔ c.sh.mflags.getLsbD k = true ∨
                ∃ j, j < 32768 ∧ (k = 0 ∧ (Fmt.decode ⟨8, 23⟩ (accCode o j)).isNaN = true ∨ k = 3 ∧ (x j).2 &&& flagSAT ≠ 0)))

/-- MFLUSH_EFFECT empties the FIFOs that it names, whose lines are retained, and writes MPC (R31, R183). -/
def FlushEvent : Prop :=
  ∀ (s : State) (e : MEntry) (q : List MEntry),
    let c := here s
    c.mq = e :: q → e.kind = .flush → e.start ≤ c.sched.toNat + c.mOff →
      ∃ u, leads .mflushEffect s u ∧ u.core.mq = q ∧
        u.core.fa = (if e.flushA then ⟨[], c.fa.retained ++ c.fa.held⟩ else c.fa) ∧
        u.core.fb = (if e.flushB then ⟨[], c.fb.retained ++ c.fb.held⟩ else c.fb) ∧
        u.core.sh = { c.sh with mpc := e.mpc.getD c.sh.mpc } ∧ u.core.acc = c.acc ∧ u.core.main = c.main ∧ u.core.spad = c.spad ∧ restSame s u

/-! ### Requests at homes and peers -/

/-- The `n` bytes from `pa` on are those of `f`, and every other byte of device memory reads as before. -/
def wroteAt (s u : State) (pa n : Nat) (f : Nat → Byte) : Prop :=
  ∀ a, Memory.read u.mem a = if pa ≤ a ∧ a < pa + n then f (a - pa) else Memory.read s.mem a

/-- Every byte of device memory reads as before. -/
def memSame (s u : State) : Prop := ∀ a, Memory.read u.mem a = Memory.read s.mem a

/-- Byte `j` of a number. -/
def numByte (x j : Nat) : Byte := BitVec.ofNat 8 (x / 256 ^ j)

/-- The request that the event names, of the core in focus, may perform now. -/
structure Performs (s : State) (r : Req) : Prop where
  found : (here s).req s.ev.id = some r
  fresh : r.result = none
  turn : (here s).mayPerform r = true
  memory : Memory.wf (at_ s).mem = true

/-- Request `r` has its result. -/
def answered (u : State) (r : Req) (x y : Word) : Prop := u.core.req r.id = some { r with result := some (x, y) }

/-- The new value of an atomic operation on `w` bits (R196, R201): add, signed and unsigned minimum and maximum, and, or, exclusive or,
exchange, compare and swap. -/
def atomResult (op w old x y : Nat) : Nat :=
  let neg := fun (n : Nat) => (n : Int) - if 2 ^ (w - 1) ≤ n then 2 ^ w else 0
  match op with
  | 0 => (old + x) % 2 ^ w
  | 1 => if neg x ≤ neg old then x else old
  | 2 => if neg x ≤ neg old then old else x
  | 3 => if x ≤ old then x else old
  | 4 => if x ≤ old then old else x
  | 5 => old &&& x
  | 6 => old ||| x
  | 7 => old ^^^ x
  | 8 => x
  | _ => if old = x then y else old

/-- The scalar registers that a reply with result `(x, y)` writes: `dst` and `dst + 1` (R201, R203, R208). -/
def replyWrites (r : Req) (x y : Word) : Option (Option Word × Option Word) :=
  match r.kind with
  | .atom _ => some (some x, none)
  | .once _ => some (some x, some y)
  | .pop _ => some (some x, some y)
  | .push _ => some (none, some y)
  | .qpush _ => some (some x, none)
  | _ => none

/-- DEVICE_REPLY_ARRIVAL: a load whose last bytes arrive writes its register, forwarded bytes as they were; a request with a result writes its
destinations; its counter falls by one and it is gone (R25, R84, R191, R201 to R208). -/
def ReplyEvent : Prop :=
  ∀ (s : State) (r : Req), (here s).req s.ev.id = some r → r.discard = false →
    let c := here s
    let x := c.ctx r.ctx
    let counted := fun (u : State) => ∀ k, (u.core.ctx r.ctx).regs.dc.read k = if r.dc = some k then x.regs.dc.read k - 1 else x.regs.dc.read k
    (∀ n sx pa, r.kind = .load n sx → r.result = none → c.mayPerform r = true → r.pas = [(0, pa)] → r.progress = 0 → r.page.rc = false → r.y = 0 →
      (n = 1 ∨ n = 2 ∨ n = 4 ∨ n = 8) → pa.toNat % 64 + n ≤ 64 → (at_ s).homeHeld ((at_ s).reqKey r) pa.toNat = false →
      (at_ s).poisoned pa.toNat n = false →
        let v := leNat ((List.range n).map fun j => if r.mask.getLsbD j then byteOf r.bits j else Memory.read (at_ s).mem (pa.toNat + j))
        ∃ u, leads .deviceReplyArrival s u ∧
          (∀ j, (u.core.ctx r.ctx).regs.sreg j =
            if j = r.dst ∧ j ≠ 0 then (if sx then (BitVec.ofNat (8 * n) v).signExtend 64 else BitVec.ofNat 64 v) else x.regs.sreg j) ∧
          (u.core.ctx r.ctx).regs.p = x.regs.p ∧ counted u ∧ u.core.req r.id = none ∧ u.core.sh = c.sh ∧ u.core.spad = c.spad ∧ restSame s u) ∧
    (∀ a b w, r.result = some (a, b) → r.mask = 0 → replyWrites r a b = some w →
      ∃ u, leads .deviceReplyArrival s u ∧
        (∀ j, (u.core.ctx r.ctx).regs.sreg j =
          if j = 0 then 0 else if j = r.dst + 1 ∧ w.2.isSome then w.2.getD 0 else if j = r.dst ∧ w.1.isSome then w.1.getD 0 else x.regs.sreg j) ∧
        (u.core.ctx r.ctx).regs.p = x.regs.p ∧ counted u ∧ u.core.req r.id = none ∧ u.core.sh = c.sh ∧ u.core.spad = c.spad ∧ restSame s u)

/-- The predicate pair of a reply takes `x` and `y`, but for `p0`, which stays true, in the duplicate set too when the phase of the request has
closed; the other predicates stay (R23, R25). -/
def repliedP (s u : State) (r : Req) (k : BitVec 5) (x y : Bool) : Prop :=
  let old := (here s).ctx r.ctx
  let put := fun (q p : Priv) => q.preg (k ++ 0#1) = (x || k = 0) ∧ q.preg (k ++ 1#1) = y ∧ ∀ j, j.extractLsb' 1 5 ≠ k → q.preg j = p.preg j
  put (u.core.ctx r.ctx).regs old.regs ∧
    if r.phase < old.phase then put (u.core.ctx r.ctx).dup old.dup else (u.core.ctx r.ctx).dup.p = old.dup.p

/-- Request `r`, whose reply has come, counts no more on its counter and is gone; its context's branch targets, the scratchpad and what lies
outside the core are as before. -/
structure Replied (s u : State) (r : Req) : Prop where
  counted : ∀ k, (u.core.ctx r.ctx).regs.dc.read k =
    if r.dc = some k then ((here s).ctx r.ctx).regs.dc.read k - 1 else ((here s).ctx r.ctx).regs.dc.read k
  gone : u.core.req r.id = none
  targets : (u.core.ctx r.ctx).regs.b = ((here s).ctx r.ctx).regs.b
  spad : u.core.spad = (here s).spad
  rest : restSame s u

/-- The scalar destination of a reply takes `v`, in the duplicate set too when the phase of the request has closed; the other registers stay
(R25). -/
def repliedS (s u : State) (r : Req) (v : Word) : Prop :=
  let x := (here s).ctx r.ctx
  let y := u.core.ctx r.ctx
  (∀ j, y.regs.sreg j = if j = r.dst ∧ j ≠ 0 then v else x.regs.sreg j) ∧ y.regs.p = x.regs.p ∧ u.core.sh = (here s).sh ∧
    ∀ j, y.dup.sreg j = if r.phase < x.phase ∧ j = r.dst ∧ j ≠ 0 then v else x.dup.sreg j

/-- The vector destination of a reply changes by `f`, in the duplicate set too when the phase of the request has closed; the other registers stay
(R25). -/
def repliedV (s u : State) (r : Req) (f : VReg → VReg) : Prop :=
  let d : BitVec 5 := r.dst.setWidth 5
  let put := fun (q p : Shared) => q = { p with v := q.v } ∧ ∀ j, q.v.read j = if j = d then f (p.v.read j) else p.v.read j
  (u.core.ctx r.ctx).regs.s = ((here s).ctx r.ctx).regs.s ∧ (u.core.ctx r.ctx).regs.p = ((here s).ctx r.ctx).regs.p ∧ put u.core.sh (here s).sh ∧
    if r.phase < (here s).main.phase then put u.core.dupSh (here s).dupSh else u.core.dupSh = (here s).dupSh

/-- A request in flight goes a step on its way, and stays, as `q`; the registers of its core are as before. -/
def stepsOn (s u : State) (r q : Req) : Prop :=
  u.core.req r.id = some q ∧ u.core.ctx r.ctx = (here s).ctx r.ctx ∧ u.core.sh = (here s).sh ∧ u.core.spad = (here s).spad ∧ restSame s u

/-- The next piece of an LDG or VLDG comes from home or, on a page with RC, from a line of the read-only cache, but for forwarded bytes; after the
last one the register is written (R189, R191, R192, R339). -/
def LoadEvent : Prop :=
  ∀ (s : State) (r : Req) (n off : Nat) (pa : BitVec 45), (here s).req s.ev.id = some r → r.discard = false → r.result = none →
    (here s).mayPerform r = true → r.y = 0 → r.pas[r.progress]? = some (off, pa) → off < n →
    ((∃ sx, r.kind = .load n sx ∧ (n = 1 ∨ n = 2 ∨ n = 4 ∨ n = 8)) ∨ ((∃ t, r.kind = .vload t) ∧ n = 256)) →
    let m := min (64 - pa.toNat % 64) (n - off)
    let va := r.va.toNat + off
    (at_ s).homeHeld ((at_ s).reqKey r) pa.toNat = false → (at_ s).poisoned pa.toNat m = false → va % 64 = pa.toNat % 64 →
      ∃ u, ∃ f : Nat → Byte, leads .deviceReplyArrival s u ∧
        ((∀ j, f j = Memory.read (at_ s).mem (pa.toNat + j)) ∨
          (r.page.rc = true ∧ ∃ l, (here s).roFind (here s).asid va = some l ∧ ∀ j, f j = byteOf l.bytes (va % 64 + j))) ∧
        let got := fun (j : Nat) => if off ≤ j ∧ j < off + m ∧ r.mask.getLsbD j = false then f (j - off) else byteOf r.bits j
        (r.progress + 1 < r.pas.length → ∃ b, (∀ j, j < 256 → byteOf b j = got j) ∧
          stepsOn s u r { r with bits := b, progress := r.progress + 1 }) ∧
        (r.progress + 1 = r.pas.length → Replied s u r ∧
          (∀ sx, r.kind = .load n sx → let v := leNat ((List.range n).map got)
            repliedS s u r (if sx then (BitVec.ofNat (8 * n) v).signExtend 64 else BitVec.ofNat 64 v)) ∧
          (∀ t, r.kind = .vload t → ∃ w : VReg, repliedV s u r (fun _ => w) ∧ w.tag = t ∧
            ∀ j, j < 256 → byteOf w.bits j = if t = tagT6 then got j &&& 0x3F else got j))

/-- The next elements of a translated gather, those that share its cell by the model's choice (assumption log 131), come in one step, forwarded or
from home; after the last one the active elements are written (R195, R356). -/
def GatherEvent : Prop :=
  ∀ (s : State) (r : Req) (t : BitVec 4), (here s).req s.ev.id = some r → r.discard = false → r.result = none → (here s).mayPerform r = true →
    r.kind = .gather t → r.x = 0 → r.y = 0 → r.pas.map (·.1) = r.addrs.map (·.1) → (r.addrs.map (·.1)).Nodup → (∀ e ∈ r.addrs, e.1 < tagN t) →
    (r.sc = true → r.irrev = true) → (r.sc = true ∨ ∀ p ∈ r.pages, p.rc = false) → r.progress < r.pas.length →
    let n := tagW t / 8
    let now := (r.pas.drop r.progress).take r.cellRun
    n = 1 ∨ n = 2 ∨ n = 4 ∨ n = 8 → (∀ p ∈ now, (at_ s).homeHeld ((at_ s).reqKey r) p.2.toNat = false ∧ (at_ s).poisoned p.2.toNat n = false) →
      ∃ u b, leads .deviceReplyArrival s u ∧
        (∀ i j, i < tagN t → j < n → byteOf b (i * n + j) = match now.find? fun p => p.1 = i with
          | some p => (((here s).ctx r.ctx).forwardTo r p.2.toNat n)[j]?.join.getD (Memory.read (at_ s).mem (p.2.toNat + j))
          | none => byteOf r.bits (i * n + j)) ∧
        (r.progress + r.cellRun < r.pas.length → stepsOn s u r { r with bits := b, progress := r.progress + r.cellRun }) ∧
        (r.pas.length ≤ r.progress + r.cellRun → Replied s u r ∧ ∃ f, repliedV s u r f ∧ ∀ w, (f w).tag = w.tag ∧
          ∀ i, i < tagN t → field (f w).bits (tagW t * i) (tagW t) =
            if r.addrs.any (fun e => decide (e.1 = i)) then (let x := field b (tagW t * i) (tagW t); if t = tagT6 then x % 64 else x)
            else field w.bits (tagW t * i) (tagW t))

/-- The replies of VATOM, DIGB, DIGRS and WSTAT: the old values; below and above; the number of blocks in a region, each recomputed; the word
about a tile of this package by the map of its lowest-numbered live neighbour (R196, R210, R241, R242, R404). -/
def QueryEvent : Prop :=
  ∀ (s : State) (r : Req), (here s).req s.ev.id = some r → r.discard = false →
    let a := at_ s
    let asid := (here s).asid
    (∀ op t x, r.kind = .vatom op t → r.result = some x → r.mask = 0 →
      ∃ u, leads .deviceReplyArrival s u ∧ Replied s u r ∧ repliedV s u r fun v => { v with bits := r.bits }) ∧
    (r.result = none → (here s).mayPerform r = true →
      (∀ k : BitVec 5, r.kind = .digb k → k.toNat < 24 →
        (∀ n g, a.regionOf asid r.va.toNat = some (n, g) →
          a.blockHeld (a.reqKey r) n (a.blockBase (a.reqKey r) n ((r.va.toNat - g.base) / g.block)) = none) →
        let e := a.entryAt asid r.va.toNat
        let int := isIntFmt (field e 4 4)
        let t := if int then valOfInt r.x.toInt else fmtFP64.decode r.x.toNat
        let open' := field e 8 3 = 0 ∧ e.getLsbD 13 = false ∧ field e 192 3 = 0 ∧ t.isNaN = false
        ∃ u, leads .deviceReplyArrival s u ∧ Replied s u r ∧ (u.core.ctx r.ctx).regs.s = ((here s).ctx r.ctx).regs.s ∧ u.core.sh = (here s).sh ∧
          (open' → repliedP s u r k (!t.lt (valOfField int (field e 128 64))) (t.lt (valOfField int (field e 64 64)))) ∧
          (¬ open' → repliedP s u r k false false)) ∧
      (∀ n b, r.kind = .digrs n → (a.queryBlocks asid r.va.toNat n)[r.progress]? = some b → (a.queryBlock asid b).1 = b →
        let reg := a.regionOf asid b
        let y := r.y + if reg.isSome then 1 else 0
        (∀ k g, reg = some (k, g) → a.blockHeld (a.reqKey r) k (a.blockNow (a.reqKey r) k ((b - g.base) / g.block)) = none) →
        ∃ u, leads .deviceReplyArrival s u ∧ (reg = none → u.digests = a.digests) ∧
          (∀ k g pa old, reg = some (k, g) → a.blockNow (a.reqKey r) k ((b - g.base) / g.block) = .ok (some pa) →
            a.digEntry k ((b - g.base) / g.block) = some old → a.poisoned pa g.block = false → ∃ e, u.digEntry k ((b - g.base) / g.block) = some e ∧
              e.bytes = setField (scanEntry g fun j => Memory.read a.mem (pa + j)) 32 32 (entVersion old.bytes).toNat) ∧
          (r.progress + 1 < n → stepsOn s u r { r with y := y, progress := r.progress + 1 }) ∧
          (r.progress + 1 = n → Replied s u r ∧ repliedS s u r y))) ∧
    (∀ v, r.kind = .wstat → r.result = none → r.x.toNat / 128 = Config.pkgId.toNat →
      let t : BitVec 7 := BitVec.ofNat 7 r.x.toNat
      let near := fun (w : BitVec 7) => (∃ d, neighbour t d = w) ∧ a.cutOff w = false
      near v → (∀ w, near w → v.toNat ≤ w.toNat) →
        let m := a.mapAt v t
        let suspect := ∃ d, let w := neighbour t d
          (a.mapAt v w).fused = false ∧ (a.mapAt v w).fenced = false ∧ ((a.trellisAt w).votes.read (d ^^^ 1)).state = 1
        ∃ u st, leads .deviceReplyArrival s u ∧ Replied s u r ∧
          repliedS s u r (BitVec.ofNat 64 (st + 4 * min m.strikes.length 2 + if m.isolated then 16 else 0)) ∧
          (m.fused = true → st = 3) ∧ (m.fused = false → m.fenced = true → st = 2) ∧
          (m.fused = false → m.fenced = false → (suspect ∨ m.isolated = true) → st = 1) ∧
          (m.fused = false → m.fenced = false → ¬ suspect → m.isolated = false → st = 0))

/-- ATOM_HOME_STEP: an ATOM changes its doubleword in one step, and its result is the old value (R201). -/
def AtomEvent : Prop :=
  ∀ (s : State) (r : Req) (op : BitVec 4), Performs s r → r.kind = .atom op → op.toNat < 10 →
    (at_ s).homeHeld ((at_ s).reqKey r) r.home = false → (at_ s).poisoned r.home 8 = false →
      let old := Memory.readLE (at_ s).mem r.home 8
      ∃ u, leads .atomHomeStep s u ∧ answered u r (BitVec.ofNat 64 old) 0 ∧
        wroteAt (at_ s) u r.home 8 (numByte (atomResult op.toNat 64 old r.x.toNat r.y.toNat)) ∧ u.core.spad = (here s).spad

/-- A half of a once-cell in memory (R357): value, generation, winner and state. -/
def halfAt (s : State) (pa : Nat) : Word × BitVec 32 × BitVec 32 :=
  (BitVec.ofNat 64 (Memory.readLE s.mem pa 8), BitVec.ofNat 32 (Memory.readLE s.mem (pa + 8) 4), BitVec.ofNat 32 (Memory.readLE s.mem (pa + 12) 4))

/-- A control word that damages no cell: state 0 or 1 and reserved bits zero (R357). -/
def ctlGood (x : BitVec 32) : Prop := x.extractLsb' 1 3 = 0 ∧ x.extractLsb' 17 13 = 0

/-- ONCE_CELL_HOME_STEP (R356 to R358): on the current generation a PROPOSE decides an open cell and loses to a decided one, an OCREAD reads a
decided one and finds an open one open, and an OCRECYCLE opens the next generation of a decided one, the last one excepted; a
generation ahead of the cell's is answered 4. Of an earlier generation a PROPOSE and an OCREAD read the archived result when it is that
generation's, the PROPOSE as one that came late, and are else, as an OCRECYCLE always is, answered 3, that it is gone. -/
def OnceEvent : Prop :=
  ∀ (s : State) (r : Req) (op : BitVec 2), Performs s r → r.kind = .once op →
    let pa := r.home
    let c := halfAt (at_ s) pa
    let a := halfAt (at_ s) (pa + 16)
    let asked := r.y.extractLsb' 0 32
    let is := c.2.2.extractLsb' 0 1
    let word := fun (w : BitVec 2) (t : BitVec 13) (st : BitVec 3) => c.2.1 ++ w ++ 0#13 ++ t ++ 0#1 ++ st
    let winner := fun (st : BitVec 3) => word (c.2.2.extractLsb' 30 2) (c.2.2.extractLsb' 4 13) st
    let me := BitVec.ofNat 13 (podTile (at_ s).coreTile)
    (at_ s).homeHeld ((at_ s).reqKey r) pa = false → (at_ s).poisoned pa 32 = false → ctlGood c.2.2 → ctlGood a.2.2 → pa % 32 = 0 →
      (op = 0 → asked = c.2.1 → is = 0 → ∃ u, leads .onceCellHomeStep s u ∧ answered u r r.x (word r.ctx me 0) ∧
        wroteAt (at_ s) u pa 16 fun j =>
          if j < 8 then byteOf r.x j else if j < 12 then byteOf c.2.1 (j - 8) else byteOf (r.ctx ++ 0#13 ++ me ++ 0#2 ++ 1#2) (j - 12)) ∧
      (op = 0 → asked = c.2.1 → is = 1 → ∃ u, leads .onceCellHomeStep s u ∧ answered u r c.1 (winner 1) ∧ memSame (at_ s) u) ∧
      (op = 1 → asked = c.2.1 → is = 1 → ∃ u, leads .onceCellHomeStep s u ∧ answered u r c.1 (winner 5) ∧ memSame (at_ s) u) ∧
      (op = 1 → asked = c.2.1 → is = 0 → ∃ u, leads .onceCellHomeStep s u ∧ answered u r 0 (word 0 0 6) ∧ memSame (at_ s) u) ∧
      (op = 2 → asked = c.2.1 → is = 1 → c.2.1 ≠ 0xFFFFFFFF → ∃ u, leads .onceCellHomeStep s u ∧ answered u r c.1 (winner 7) ∧
        wroteAt (at_ s) u pa 32 fun j =>
          if j < 8 then 0 else if j < 12 then byteOf (c.2.1 + 1) (j - 8) else if j < 16 then 0 else Memory.read (at_ s).mem (pa + j - 16)) ∧
      (asked.toNat < c.2.1.toNat →
        (op.toNat < 2 → a.2.2.extractLsb' 0 1 = 1#1 → a.2.1 = asked → ∃ u, leads .onceCellHomeStep s u ∧ answered u r a.1
          (c.2.1 ++ a.2.2.extractLsb' 30 2 ++ 0#13 ++ a.2.2.extractLsb' 4 13 ++ 0#1 ++ (if op = 0 then 2#3 else 5#3)) ∧ memSame (at_ s) u) ∧
        ((op = 2 ∨ a.2.2.extractLsb' 0 1 = 0#1 ∨ a.2.1 ≠ asked) → op ≠ 3 → ∃ u, leads .onceCellHomeStep s u ∧ answered u r 0 (word 0 0 3) ∧
          memSame (at_ s) u)) ∧
      (op = 2 → asked = c.2.1 → is = 0 → ∃ u, leads .onceCellHomeStep s u ∧ answered u r 0 (word 0 0 6) ∧ memSame (at_ s) u) ∧
      (op = 2 → asked = c.2.1 → is = 1 → c.2.1 = 0xFFFFFFFF → ∃ u, leads .onceCellHomeStep s u ∧ answered u r 0 (word 0 0 3) ∧ memSame (at_ s) u) ∧
      (c.2.1.toNat < asked.toNat → ∃ u, leads .onceCellHomeStep s u ∧ answered u r 0 (word 0 0 4) ∧ memSame (at_ s) u)

/-- WORK_QUEUE_HOME_STEP (R189, R331, R332): a POPW takes the oldest item and counts it; of an empty queue it is answered 1, or 2 when closed,
and a POPW.b waits; a PUSHW puts its item last and counts it; into a full or closed queue it is answered 1 or 2; a PUSHW.c closes the queue, a
full one too; an item's page that bars a queue operation traps. -/
def WorkQueueEvent : Prop :=
  ∀ (s : State) (r : Req), Performs s r → r.waiting = false → r.discard = false → r.pas ≠ [] →
    let pa := r.home
    let q := (at_ s).workQ pa
    let key := (at_ s).reqKey r
    let found := fun (va ia : Nat) (bar : Option Cause) =>
      ∃ leaf, (at_ s).walkPa key (r.y.extractLsb' 0 8) va = .ok ia leaf ∧ attrTrap leaf .queue = bar
    let barred := fun (va : Nat) (x : Cause) => ∃ u t, leads .workQueueHomeStep s u ∧ u.core.cur.trap = some t ∧ t.cause = x ∧ t.addr = BitVec.ofNat 64 va
    (at_ s).homeHeld key pa = false → (at_ s).poisoned pa 64 = false → q.ok = true → (∀ w ∈ s.waiters, w.1.toNat ≠ pa) →
      (∀ b, r.kind = .pop b →
        (∀ ia, q.held ≠ 0 → found (q.item q.popped) ia none → (at_ s).homeHeld key ia = false → (at_ s).poisoned ia 8 = false →
            ∃ u, leads .workQueueHomeStep s u ∧ answered u r (BitVec.ofNat 64 (Memory.readLE (at_ s).mem ia 8)) 0 ∧
              wroteAt (at_ s) u (pa + 24) 8 (numByte (q.popped + 1)) ∧ (u.core.ctx r.ctx).irrevOut = true) ∧
        (∀ ia x, q.held ≠ 0 → found (q.item q.popped) ia (some x) → barred (q.item q.popped) x) ∧
        (q.held = 0 → q.closed = true → ∃ u, leads .workQueueHomeStep s u ∧ answered u r 0 2 ∧ memSame (at_ s) u) ∧
        (q.held = 0 → q.closed = false → ∃ u, leads .workQueueHomeStep s u ∧ memSame (at_ s) u ∧
          if b then u.core.req r.id = some { r with waiting := true } ∧ u.waiters = s.waiters ++ [(BitVec.ofNat 45 pa, (at_ s).coreTile, r.id)]
          else answered u r 0 1)) ∧
      (∀ c, r.kind = .push c →
        (∀ ia, q.closed = false → q.held ≠ q.cap → found (q.item q.pushed) ia none → (at_ s).homeHeld key ia = false →
          (ia + 8 ≤ pa ∨ pa + 64 ≤ ia) →
            ∃ u, leads .workQueueHomeStep s u ∧ answered u r 0 0 ∧ ∀ a, Memory.read u.mem a =
              if ia ≤ a ∧ a < ia + 8 then byteOf r.x (a - ia) else if pa + 16 ≤ a ∧ a < pa + 24 then numByte (q.pushed + 1) (a - (pa + 16))
              else if c = true ∧ a = pa + 12 then 1 else Memory.read (at_ s).mem a) ∧
        (∀ ia x, q.closed = false → q.held ≠ q.cap → found (q.item q.pushed) ia (some x) → barred (q.item q.pushed) x) ∧
        (q.closed = true → ∃ u, leads .workQueueHomeStep s u ∧ answered u r 0 2 ∧ memSame (at_ s) u) ∧
        (q.closed = false → q.held = q.cap → ∃ u, leads .workQueueHomeStep s u ∧ answered u r 0 1 ∧
          ∀ a, Memory.read u.mem a = if c = true ∧ a = pa + 12 then 1 else Memory.read (at_ s).mem a))

/-- QPUSH_HOME_STEP: a record goes into the ring slot of the queue's tail with its sequence number, and the tail counts it; into a full ring,
or a slot that no page or one without W holds, it is answered 1 or 2 (R310). -/
def QpushEvent : Prop :=
  ∀ (s : State) (r : Req) (q : BitVec 6), Performs s r → r.kind = .qpush q → q ≠ 63 →
    let t := (at_ s).tailSeq q
    let cell := (at_ s).qtBase.toNat + 64 * q.toNat
    let key := (at_ s).reqKey r
    let found := (at_ s).walkPa key ((at_ s).queueAsid q) ((at_ s).slotVa q t)
    (at_ s).homeHeld key r.home = false → (at_ s).homeHeld key cell = false → (at_ s).poisoned r.home 128 = false →
      ((at_ s).queueOpen q = false → ∃ u, leads .qpushHomeStep s u ∧ answered u r 2 0 ∧ memSame (at_ s) u) ∧
      ((at_ s).queueOpen q = true → r.y.extractLsb' 0 8 = (at_ s).queueAsid q → (at_ s).cap q ≠ 0 →
          (found = .none → ∃ u, leads .qpushHomeStep s u ∧ answered u r 2 0 ∧ memSame (at_ s) u) ∧
          (∀ pa leaf, found = .ok pa leaf → leafW leaf = false → ∃ u, leads .qpushHomeStep s u ∧ answered u r 2 0 ∧ memSame (at_ s) u) ∧
          (∀ pa leaf, found = .ok pa leaf → leafW leaf = true → t - (at_ s).headSeq q = (at_ s).cap q →
            ∃ u, leads .qpushHomeStep s u ∧ answered u r 1 0 ∧ memSame (at_ s) u) ∧
          (∀ pa leaf, found = .ok pa leaf → leafW leaf = true → t - (at_ s).headSeq q ≠ (at_ s).cap q → (at_ s).homeHeld key pa = false →
            (pa + 128 ≤ cell ∨ cell + 64 ≤ pa) →
              ∃ u, leads .qpushHomeStep s u ∧ answered u r 0 0 ∧ ∀ a, Memory.read u.mem a =
                if pa ≤ a ∧ a < pa + 120 then Memory.read (at_ s).mem (r.home + (a - pa))
                else if pa + 120 ≤ a ∧ a < pa + 128 then numByte t (a - (pa + 120))
                else if cell + 16 ≤ a ∧ a < cell + 24 then numByte (t + 1) (a - (cell + 16)) else Memory.read (at_ s).mem a))

/-- WINDOW_ACCESS_ARRIVAL: a load through a window reads the peer's bytes, and of a store's bytes `w` are written there in this step, the rest
later (R187, R190, R250, R262). -/
def WindowEvent : Prop :=
  ∀ (s : State) (r : Req), (here s).req s.ev.id = some r → r.discard = false → (here s).windowTurn r = true →
    let m := r.x.extractLsb' 0 2
    let p := quadMate (at_ s).coreTile m
    let peer := (at_ s).coreAt p
    (at_ s).windowGone r m = none →
      (∀ n sx, r.kind = .winLoad n sx → (n = 1 ∨ n = 2 ∨ n = 4 ∨ n = 8) → peer.spadPoisoned r.pa.toNat n = false →
        let v := Memory.readLE peer.spad r.pa.toNat n
        ∃ u, leads .windowAccessArrival s u ∧ u.core.req r.id = none ∧
          (∀ j, (u.core.ctx r.ctx).regs.sreg j = if j = r.dst ∧ j ≠ 0 then (if sx then (BitVec.ofNat (8 * n) v).signExtend 64 else BitVec.ofNat 64 v)
            else ((here s).ctx r.ctx).regs.sreg j) ∧ u.core.sh = (here s).sh ∧ u.core.spad = (here s).spad ∧ restSame s u) ∧
      (r.kind = .winStore → r.y.toNat < 5 → Memory.wf peer.spad = true →
        ∃ u, ∃ w : BitVec 256, leads .windowAccessArrival s u ∧ w &&& ~~~r.mask = 0 ∧ (r.mask ≠ 0 → w ≠ 0) ∧
          u.core.req r.id = (if w = r.mask then none else some { r with mask := r.mask &&& ~~~w }) ∧ u.mem = (at_ s).mem ∧
          (∀ j, j < 256 → w.getLsbD j = true → Memory.read (u.coreAt p).spad (placeOf (r.pa.toNat + j) r.y.toNat) = byteOf r.bits j) ∧
          ∀ x, (∀ j, j < 256 → w.getLsbD j = true → placeOf (r.pa.toNat + j) r.y.toNat ≠ x) →
            Memory.read (u.coreAt p).spad x = Memory.read peer.spad x)

/-- HOLDING_ENTRY_PERFORM and HOME_WRITE_STEP: the bytes of the one released entry whose turn it is, or of a control core's write within a block,
reach device memory in one step, and no others (R40, R252, R278); while an earlier access of the core has not performed, its write waits (R263).
-/
def HomeWriteEvents : Prop :=
  ∀ (s : State), Memory.wf (at_ s).mem = true →
    (∀ e, (at_ s).entriesReady s.ev.ctx = [e] → (at_ s).homeHeld ((at_ s).entryKey s.ev.ctx e) e.pa.toNat = false → ∃ u, leads .holdingEntryPerform s u ∧
      (∀ a, Memory.read u.mem a =
        if e.pa.toNat ≤ a ∧ a < e.pa.toNat + 64 ∧ e.mask.getLsbD (a - e.pa.toNat) then byteOf e.bytes (a - e.pa.toNat)
        else Memory.read (at_ s).mem a) ∧
      (u.core.ctx s.ev.ctx).released = ((here s).ctx s.ev.ctx).released.erase e ∧ u.core.spad = (here s).spad) ∧
    (s.ev.flag = true → s.ctlPending (s.ev.port.setWidth 3) = false → s.ev.addr.toNat % 64 + s.ev.data.length ≤ 64 → s.ev.data ≠ [] → s.quiesced s.ev.addr.toNat = false →
      s.stalls s.ev.addr.toNat = false → Memory.wf s.mem = true →
      ∃ u, leads .homeWriteStep s u ∧ wroteAt s u s.ev.addr.toNat s.ev.data.length (fun j => s.ev.data.getD j 0) ∧ u.core = s.core) ∧
    (s.ev.flag = true → s.ctlPending (s.ev.port.setWidth 3) = true → ∃ u, leads .homeWriteStep s u ∧ u.mem = s.mem ∧ u.core = s.core)

/-- BARRIER_PHASE_COMPLETE: when every living member of the instance that has not left has arrived, or, once one was lost, any of them, the
next phase completes; it and every later one are poisoned when a member was lost (R205, R207). -/
def BarrierEvent : Prop :=
  ∀ (s : State) (b : Barrier) (g : Gang), s.barriers[s.ev.id]? = some b → s.liveGang b.gang = some g → g.saved = [] →
    let inst := fun t => decide (scopeInst b.scope t = b.inst)
    let alive := g.tiles.filter fun t => inst t && !g.left.contains t && !g.dead.contains t
    let lost := (g.dead ++ g.lost).any inst
    let came := fun t => decide (b.phase < b.count t)
    (if lost then alive.any came = true else alive ≠ [] ∧ alive.all came = true) →
      let b' := { b with phase := b.phase + 1, poisoned := if b.poisoned.isSome then b.poisoned else if lost then some b.phase else none }
      ∃ u, leads .barrierPhaseComplete s u ∧ u = { s with barriers := s.barriers.set s.ev.id b' }

/-- KVAPP_EXECUTE: behind a scratchpad write from before its release, or a fence, it waits; a malformed record ends it with 0 and false; one all
of whose sequences are served ends with their count and true; the last step of a sequence whose block has room raises its length (R244 to R246,
R255). -/
def KvappEvent : Prop :=
  ∀ (s : State) (r : Req) (pd : BitVec 6), (here s).req s.ev.id = some r → r.kind = .kvapp pd → (here s).kvReleased r = true →
    (here s).kvRuns = true →
    ((at_ s).kvWaits r = true → leads .kvappExecute s (at_ s)) ∧ ((at_ s).kvWaits r = false →
    let c := here s
    let a := r.va.toNat
    let h := c.kvRecord a
    let q := a + 64 + 32 * r.progress
    let row := h.rows + 4 * h.w * r.progress
    let len := Memory.readLE c.spad (q + 16) 4
    let ends := fun (n : Nat) (all : Bool) => ∃ u, leads .kvappExecute s u ∧ u.core.req r.id = none ∧
      (∀ j, (u.core.ctx r.ctx).regs.sreg j = if j = r.dst ∧ j ≠ 0 then BitVec.ofNat 64 n else (c.ctx r.ctx).regs.sreg j) ∧
      (0 < pd.toNat → pd.toNat < 48 → (u.core.ctx r.ctx).regs.preg pd = all) ∧ u.core.spad = c.spad ∧ u.mem = (at_ s).mem
    c.spadPoisoned a 64 = false →
      (h.ok = false → ends 0 false) ∧ (h.ok = true → h.nseq ≤ r.progress → ends r.progress true) ∧
      (h.ok = true → r.progress < h.nseq → q + 32 ≤ 0x200000 → c.spadPoisoned q 32 = false → h.rows % 64 = 0 → row + 4 * h.w ≤ 0x200000 →
        c.spadPoisoned row (4 * h.w) = false → r.mask = 2 → len % 16 ≠ 15 → Memory.wf c.spad = true →
          ∃ u, leads .kvappExecute s u ∧ u.core.req r.id = some { r with mask := 0, waiting := false, progress := r.progress + 1 } ∧
            (∀ x, Memory.read u.core.spad x = if q + 16 ≤ x ∧ x < q + 20 then numByte (len + 1) (x - (q + 16)) else Memory.read c.spad x) ∧
            u.mem = (at_ s).mem))

/-! ### Translation and the registers of firmware -/

/-- TRANSLATION_WALK: a walk that finds a leaf serves every miss of its page and die, whose units and die then cache the translation; one that
faults takes the next token and posts a record of kind 1 with its reason and address; a poisoned entry is DATA_UE; and a walk that home
holds waits there (R337 to R339, R341, R342, R380). -/
def WalkEvent : Prop :=
  ∀ (s : State) (w : Walk), (s.walks.find? fun x => x.id = s.ev.id) = some w → w.token = none → s.hasWalker w = true →
    let served := s.walks.filter fun x => x.token.isNone && x.shares w
    let key := HeldAcc.walk ((served.head?.map (·.id)).getD w.id)
    let found := s.pageWalk key w.asid w.va.toNat
    (∀ leaf level, found = .ok leaf level →
      ∃ u t, leads .translationWalk s u ∧ t.leaf = leaf ∧ t.level = level ∧ t.covers w.asid w.va.toNat = true ∧
        (∀ x ∈ served, if x.unit = 4 ∨ x.unit = 5 then t ∈ (u.coreAt x.tile).ctlb else t ∈ (u.coreAt x.tile).utlb) ∧
        t ∈ u.lltlb.read (dieOf w.tile) ∧ (∀ x, x ∈ u.walks ↔ x ∈ s.walks ∧ ∀ y ∈ served, y.id ≠ x.id) ∧ u.mem = s.mem) ∧
    (∀ pa, found = .wait pa → ∃ u, leads .translationWalk s u ∧ u = s.arriveHeld key pa) ∧
    (∀ pa, found = .poison pa → served = [w] → w.unit.toNat < 4 → ∃ u t, leads .translationWalk s u ∧ u.coreTile = w.tile ∧
      u.core.cur.trap = some t ∧ t.cause = .dataUe) ∧
    (∀ reason level entry, found = .fault reason level entry → served = [w] → ringRoom s (dieOf w.tile) → Memory.wf s.mem = true →
      let d := dieOf w.tile
      let n := s.nextToken.read d
      let g := s.rings.read d
      let slot := g.base.toNat + 64 * (g.prod.toNat % g.cap.toNat)
      ∃ u, leads .translationWalk s u ∧ u.nextToken.read d = (n + 1) % 2 ^ 48 ∧
        u.walks = s.walks.map (fun x => if x.id = w.id then { x with token := some n } else x) ∧
        (u.rings.read d).prod = g.prod + 1 ∧ (u.rings.read d).irq = true ∧
        (s.quiesced slot = false → s.stalls slot = false → Memory.read u.mem slot = 1 ∧ Memory.read u.mem (slot + 5) = BitVec.ofNat 8 reason ∧
          Memory.read u.mem (slot + 6) = BitVec.ofNat 8 level ∧ ∀ j, j < 8 → Memory.read u.mem (slot + 8 + j) = byteOf w.va j))

/-- XRESOLVE, once the stores of scheduling cores before it have performed, lets the unit that waits with its token walk again; FRCONS moves the ring's consumer, and a record that waited enters the
ring (R263, R342, R343, R386). -/
def FirmwareRingEvents : Prop :=
  ∀ (s : State),
    let d := s.ev.die
    let hit := fun (w : Walk) => decide (dieOf w.tile = d ∧ w.token = some (s.ev.value.toNat % 2 ^ 48))
    (s.ctlPending (d.setWidth 3) = false → ∃ u, leads .xresolve s u ∧
      u = { s with walks := (s.walks.filter fun w => !hit w) ++ (s.walks.filter hit).map fun w => { w with token := none } }) ∧
    (s.ctlPending (d.setWidth 3) = true → ∃ u, leads .xresolve s u ∧ u.walks = s.walks) ∧
    (let cons := s.ev.value.extractLsb' 0 64
     let g := { s.rings.read d with cons := cons, irq := decide ((s.rings.read d).prod ≠ cons) }
     (s.recWait = [] → ∃ u, leads .frcons s u ∧ u = { s with rings := s.rings.write d g }) ∧
     (∀ holder r, s.recWait = [⟨d, holder, r⟩] → (g.prod - g.cons).toNat < g.cap.toNat →
       ∃ u, leads .frcons s u ∧ u.recWait = [] ∧ u.rings = s.rings.write d { g with prod := g.prod + 1, irq := true } ∧
         (∀ t n, holder = some (t, n) → r.extractLsb' 0 8 = 3 → u.bind t = if bindState (s.bind t) = 5 then 5 else 0) ∧
         (r.extractLsb' 0 8 ≠ 3 ∨ holder = none → u.binds = s.binds)))

/-- XINV with BUSY drops, on every die and in every core, each cached translation, read-only line, block map entry and once-cache entry of its range
and keeps the others, makes requests that have not gone out translate anew (the model's choice, assumption log 130), and is ignored while an
invalidation runs; without BUSY it
writes the other fields and BUSY stays (R6). XINV_COMPLETE, once nothing of the range is left in flight, drops what has been cached since and
clears BUSY (R340). -/
def InvalidationEvents : Prop :=
  ∀ (s : State),
    let x := s.ev.value.extractLsb' 0 64 &&& 0xCFFFFFFFFFFFFFFF
    let overlap := fun (x : BitVec 64) (asid : BitVec 8) (va n : Nat) => decide (asid = x.extractLsb' 52 8) &&
      (x.getLsbD 62 || decide (va < ((x.extractLsb' 16 36).toNat + (x.extractLsb' 0 16).toNat) * 65536 ∧ (x.extractLsb' 16 36).toNat * 65536 < va + n))
    let hit := fun (x : BitVec 64) (t : TlbEntry) => overlap x t.asid t.va.toNat (2 ^ pageBits t.level)
    let page := fun (x : BitVec 64) (asid : BitVec 8) (va : Nat) (level : BitVec 2) =>
      overlap x asid (va / 2 ^ pageBits level * 2 ^ pageBits level) (2 ^ pageBits level)
    let drops := fun (x : BitVec 64) (u : State) =>
      (∀ d t, t ∈ u.lltlb.read d ↔ t ∈ s.lltlb.read d ∧ hit x t = false) ∧
      (∀ tile, let c := s.coreAt tile
        let c' := u.coreAt tile
        (∀ t, t ∈ c'.utlb ↔ t ∈ c.utlb ∧ hit x t = false) ∧ (∀ t, t ∈ c'.ctlb ↔ t ∈ c.ctlb ∧ hit x t = false) ∧
        (∀ l, l ∈ c'.ro ↔ l ∈ c.ro ∧ page x l.asid l.va.toNat l.level = false) ∧
        (∀ e, e ∈ c'.bmc ↔ e ∈ c.bmc ∧ page x e.asid e.va.toNat e.level = false) ∧
        (∀ e, e ∈ c'.once ↔ e ∈ c.once ∧ overlap x e.asid (e.cell.toNat * 32) 32 = false) ∧
        c'.main = c.main ∧ c'.tail0 = c.tail0 ∧ c'.tail1 = c.tail1 ∧ c'.sh = c.sh ∧ c'.spad = c.spad ∧ c'.q0 = c.q0 ∧ c'.q1 = c.q1) ∧
      u.mem = s.mem
    (s.xinv.reg.getLsbD 63 = false → x.getLsbD 63 = true → ∃ u, leads .xinv s u ∧ u.xinv.reg = x ∧ drops x u) ∧
    (s.xinv.reg.getLsbD 63 = true → x.getLsbD 63 = true → ∃ u, leads .xinv s u ∧ u = s) ∧
    (x.getLsbD 63 = false → ∃ u, leads .xinv s u ∧ u.xinv.reg.extractLsb' 0 63 = x.extractLsb' 0 63 ∧
      u = { s with xinv := { s.xinv with reg := u.xinv.reg } } ∧ u.xinv.reg.getLsbD 63 = s.xinv.reg.getLsbD 63) ∧
    (s.xinvDone = true → ∃ u, leads .xinvComplete s u ∧ u.xinv = ⟨s.xinv.reg &&& 0x7FFFFFFFFFFFFFFF, 0, [], [], []⟩ ∧ drops s.xinv.range u) ∧
    (s.xinvDone = false → leads .xinvComplete s s)

/-- ISFLUSH clears the tag of an idle core's overlay and notes a bound one (R351). KVRECLAIM frees an unpinned slot that is not free, and says
BUSY, ALREADY or OK (R352, R353). KVTSCFG takes a legal value with BUSY, also while an earlier one is being completed, and its completion
clears BUSY (R6, R354). -/
def FirmwarePoolEvents : Prop :=
  ∀ (s : State),
    let d := s.ev.die
    (∀ n, n < 32 → s.ev.value = BitVec.ofNat _ (2 ^ n) →
      let t := tileOfEntry d n
      ((s.coreAt t).bound = true → ∃ u, leads .isflush s u ∧ t ∈ u.isflush ∧ u.coreAt t = s.coreAt t) ∧
      ((s.coreAt t).bound = false → ∃ u, leads .isflush s u ∧ ∀ o, (u.coreAt t).overlay = some o → o.tagged = false)) ∧
    (let p := s.pools.read s.ev.port
     let pa := p.stateBase.toNat + 4 * s.ev.count
     let w := Memory.readLE s.mem pa 4
     p.valid = true → s.ev.count < p.nslot.toNat → Memory.wf s.mem = true →
       (s.homeHeld s.outsideKey pa = true → ∃ u, leads .kvreclaim s u ∧ u.kvRes = s.kvRes.write d 0 ∧ u.mem = s.mem) ∧
       (s.homeHeld s.outsideKey pa = false →
       (w % 65536 ≠ 0 → ∃ u, leads .kvreclaim s u ∧ u = { s.outsideDone with kvRes := s.kvRes.write d 1 }) ∧
       (w % 65536 = 0 → 2 ^ 31 ≤ w → ∃ u, leads .kvreclaim s u ∧ u = { s.outsideDone with kvRes := s.kvRes.write d 2 }) ∧
       (w % 65536 = 0 → w < 2 ^ 31 → ∃ u, leads .kvreclaim s u ∧ u.kvRes = s.kvRes.write d 3 ∧ wroteAt s u pa 4 (numByte (w + 2 ^ 31))))) ∧
    (let x := s.ev.value.extractLsb' 0 64 &&& 0x00001FFFFFF0001F
     (kvtsLegal d x = true → ∃ u, leads .kvtscfg s u ∧
       u = { s with kvtsOld := s.kvtsOld.write d (s.kvts.read d :: s.kvtsOld.read d), kvts := s.kvts.write d (x ||| 0x8000000000000000) }) ∧
     (kvtsLegal d x = false → ∃ u, leads .kvtscfg s u ∧ u = s)) ∧
    let done := { s with kvts := s.kvts.write d (s.kvts.read d &&& 0x7FFFFFFFFFFFFFFF), kvtsOld := s.kvtsOld.write d [] }
    ∃ u, leads .kvtscfgComplete s u ∧ u.kvts = done.kvts ∧ u.kvtsOld = done.kvtsOld ∧ (s.stalled = [] → u = done)

/-- REGISTER_WRITE: the firmware registers that have no behaviour of their own take what is written, a region's record but for STATE and its
reserved bits (R265, R308, R334, R342, R352, R412, R416, R417); their numbers are the model's choice (assumption log 22). -/
def RegisterWriteEvent : Prop :=
  ∀ (s : State),
    let v := s.ev.value
    let pa := v.extractLsb' 0 45
    let d := s.ev.die
    ∃ u, leads .registerWrite s u ∧
      (s.ev.id = 0 → u = { s with astBase := pa &&& 0x1FFFFFFFF000 }) ∧ (s.ev.id = 1 → u = { s with qtBase := pa }) ∧
      (s.ev.id = 2 → u = { s with rings := s.rings.write d { s.rings.read d with base := pa &&& 0x1FFFFFFFF000 } }) ∧
      (s.ev.id = 3 → u = { s with rings := s.rings.write d { s.rings.read d with cap := v.extractLsb' 0 32 } }) ∧
      (s.ev.id = 4 → (u.pools.read s.ev.port).valid = s.ev.flag ∧ (u.pools.read s.ev.port).stateBase = pa ∧
        ∀ j, j ≠ s.ev.port → u.pools.read j = s.pools.read j) ∧
      (s.ev.id = 5 → u = { s with dumpArea := pa }) ∧ (s.ev.id = 6 → u = { s with powerTarget := v.extractLsb' 0 32 }) ∧
      (s.ev.id = 7 → u = { s with rdma := s.rdma ++ [(s.ev.gang.extractLsb' 0 8, s.ev.addr.extractLsb' 0 52, s.ev.count)] }) ∧
      (s.ev.id = 8 → u = { s with rdma := [] }) ∧ (s.ev.id = 9 → ∀ q, q ∈ u.qps ↔ if q = (s.ev.port, BitVec.ofNat 12 s.ev.count) then s.ev.flag = true else q ∈ s.qps) ∧
      (s.ev.id = 10 →
        let k := BitVec.ofNat 8 s.ev.count
        let x := u.regions.read k
        x.extractLsb' 0 52 = v.extractLsb' 0 52 ∧ x.extractLsb' 52 12 = 0 ∧ x.extractLsb' 64 50 = v.extractLsb' 64 50 ∧
          x.extractLsb' 114 2 = (s.regions.read k).extractLsb' 114 2 ∧ x.extractLsb' 116 12 = v.extractLsb' 116 12 ∧
          (∀ n, n ≠ k → u.regions.read n = s.regions.read n) ∧ u.mem = s.mem ∧ u.digests = s.digests)

/-! ### Launches, members and saves -/

/-- Record `seq` of queue `q` completes: its status record stands at the device address `st` where that is not 0 and its page has W and no CMP,
DONESEQ has passed the completed records, and TRIGSEQ lies at it or beyond; no other byte of memory changes (R314, R324). -/
def recordDone (s u : State) (q : BitVec 6) (asid : BitVec 8) (st code cause killed seq : Nat) : Prop :=
  let cell := s.qtBase.toNat + 64 * q.toNat
  let place := if st = 0 then none else match s.walkPa (.outside 0) asid st with
    | .ok ps leaf => if leafCMP leaf = true ∨ leafW leaf = false then none else some ps
    | _ => none
  s.quiesces = [] → (∀ a, s.stalls a = false) → Memory.wf s.mem = true → (∀ ps, place = some ps → ps + 16 ≤ cell ∨ cell + 64 ≤ ps) →
    (∃ d t, (∀ j, j < 8 → Memory.read u.mem (cell + 32 + j) = numByte d j) ∧ s.doneSeq q ≤ d ∧
      (∀ n, s.doneSeq q ≤ n → n < d → n = seq ∨ ∃ x ∈ (s.queues.read q).doneSet, x.toNat = n) ∧
      d ≠ seq ∧ (∀ x ∈ (s.queues.read q).doneSet, x.toNat ≠ d) ∧
      (∀ j, j < 8 → Memory.read u.mem (cell + 40 + j) = numByte t j) ∧ d ≤ t ∧ s.trigSeq q ≤ t) ∧
    (∀ ps, place = some ps → ∀ j, j < 16 → Memory.read u.mem (ps + j) =
      if j = 0 then BitVec.ofNat 8 code else if j = 1 then BitVec.ofNat 8 cause else if j < 4 then numByte killed (j - 2) else if j < 8 then 0
      else numByte seq (j - 8)) ∧
    ∀ a, (a < cell + 32 ∨ cell + 48 ≤ a) → (∀ ps, place = some ps → a < ps ∨ ps + 16 ≤ a) → Memory.read u.mem a = Memory.read s.mem a

/-- The head at `pa` of queue `q` completes with a code: it leaves its place, HEADSEQ advances past it, and then its record completes (R315,
R317). -/
def headDone (s u : State) (q : BitVec 6) (pa code : Nat) : Prop :=
  let cell := s.qtBase.toNat + 64 * q.toNat
  (u.queues.read q).checked = none ∧ (u.queues.read q).eligible = none ∧ (u.queues.read q).offered = none ∧
  (s.quiesces = [] → (∀ a, s.stalls a = false) → Memory.wf s.mem = true → ∀ a, Memory.read (s.advanceHead q).mem a =
    if cell + 24 ≤ a ∧ a < cell + 32 then numByte (s.headSeq q + 1) (a - (cell + 24)) else Memory.read s.mem a) ∧
  recordDone (s.advanceHead q) u q (s.queueAsid q) (Memory.readLE s.mem (pa + 72) 8) code 0 0 (s.headSeq q)

/-- HEAD_PRESENT checks a present head, which with a bad record completes REFUSED at once, HEAD_ELIGIBLE resolves its team size once its dependences
are met, or completes it with the code of its failure, and ABSENT_HEAD_TIMEOUT times an absent one and posts a record of kind 13 for each further
millisecond, while home holds the slot or the control block without change (R311, R313, R315, R316). A completed head leaves its place,
HEADSEQ, DONESEQ and TRIGSEQ move, and its status record is written (R314, R324). -/
def HeadEvents : Prop :=
  ∀ (s : State) (pa : Nat),
    let q := s.ev.queue
    let f := s.queues.read q
    let passed : QFlags := { f with checked := some (BitVec.ofNat 64 (s.headSeq q)), eligible := none, offered := none, absentAt := none }
    (s.headNew q = true → s.head q = some pa → s.headBad q pa = false → ∃ u, leads .headPresent s u ∧
      u = { s with queues := s.queues.write q passed }) ∧
    (s.headNew q = true → s.head q = some pa → s.headBad q pa = true → ∃ u, leads .headPresent s u ∧ headDone s u q pa 2) ∧
    (∀ code, s.headDue q = true → s.head q = some pa → s.teamSize q pa = .error code → ∃ u, leads .headEligible s u ∧ headDone s u q pa code) ∧
    (s.slotHeld q = true → leads .absentHeadTimeout s s) ∧
    (∀ n, s.headDue q = true → s.head q = some pa → s.teamSize q pa = .ok n → ∃ u, leads .headEligible s u ∧
      u = { s with queues := s.queues.write q { f with eligible := some (BitVec.ofNat 64 n) } }) ∧
    (s.headAbsent q = true → f.absentAt = none → ∃ u, leads .absentHeadTimeout s u ∧
      u = { s with queues := s.queues.write q { f with absentAt := some s.refClk } }) ∧
    (∀ t, s.headAbsent q = true → f.absentAt = some t → t + 100000 ≤ s.refClk → Memory.wf s.mem = true →
      (s.qtBase.toNat + 64 * q.toNat) / 2 ^ 39 = Config.pkgId.toNat → ringRoom s (homeDie (s.qtBase.toNat + 64 * q.toNat)) → ∃ u r, leads .absentHeadTimeout s u ∧ (r.extractLsb' 0 8).toNat = 13 ∧
        recordPostedAt s u (homeDie (s.qtBase.toNat + 64 * q.toNat)) r ∧ (u.queues.read q).absentAt = some (t + 100000))

/-- OFFER and FITOFFER put on offer the head of the lowest rank that has one, of that rank's queues the first after the last offered one, and
answer that there is none otherwise; FITOFFER looks at heads whose RUN is set and fits (R317, R318). While home holds what an eligible head's offer reads, both wait (R354, R405). -/
def OfferEvents : Prop :=
  ∀ (s : State) (fit : Bool),
    let d := s.ev.die
    let i := if fit then Instr.fitoffer else Instr.offer
    let may := fun (r : Nat) (q : BitVec 6) => s.queueRank q = r ∧ s.headFree q = true ∧ (s.head q).isSome = true ∧ (fit = true → s.headRun q ≠ 0 ∧ s.headRun q ≤ s.ev.count)
    (∀ r q, s.headsHeld = false → r < 15 → may r q → (∀ r' q', r' < r → ¬ may r' q') →
      (let last := s.lastQ.read (BitVec.ofNat 4 r)
       (last < q ∧ ∀ q', may r q' → last < q' → q ≤ q') ∨ ((∀ q', may r q' → q' ≤ last) ∧ ∀ q', may r q' → q ≤ q')) →
        let f := s.queues.read q
        ∃ u, leads i s u ∧ u.lastQ = s.lastQ.write (BitVec.ofNat 4 r) q ∧
          u.queues = s.queues.write q { f with offered := some (BitVec.ofNat 4 r) } ∧
          u.out = s.out ++ [.offer d (some (q, BitVec.ofNat 64 (s.headSeq q), BitVec.ofNat 4 r, f.eligible.getD 0))] ∧ u.mem = s.mem) ∧
    (s.headsHeld = false → (∀ r q, r < 15 → ¬ may r q) → ∃ u, leads i s u ∧ u = { s with out := s.out ++ [.offer d none] }) ∧
    (s.headsHeld = true → leads i s (s.later i))

/-- RETURN takes a head off offer, or completes a present one, on offer or not, as CANCELLED: HEADSEQ advances past it, and its status record and
DONESEQ say so (R314, R317, R324). SKIPHEAD passes an absent head with the expected
sequence number and else, and on queue 63, reads FAIL (R311, R317, R333); that it reads FAIL of an empty queue is the model's choice (assumption
log 110). What home holds, they wait for (R354, R405). -/
def ReturnEvents : Prop :=
  ∀ (s : State),
    let q := s.ev.queue
    let f := s.queues.read q
    let cell := s.qtBase.toNat + 64 * q.toNat
    (f.offered.isSome = true → s.ev.flag = false → ∃ u, leads .returnHead s u ∧ u = { s with queues := s.queues.write q { f with offered := none } }) ∧
    (∀ pa, s.ev.flag = true → s.head q = some pa → q ≠ 63 → s.completionHeld q (s.queueAsid q) (Memory.readLE s.mem (pa + 72) 8) = false →
      ∃ u, leads .returnHead s u ∧ headDone s u q pa 4) ∧
    (s.ev.flag = true → q ≠ 63 → s.slotHeld q = true → leads .returnHead s (s.later .returnHead)) ∧
    (q ≠ 63 → s.slotHeld q = true → leads .skiphead s (s.later .skiphead)) ∧
    ((q = 63 ∨ (s.slotHeld q = false ∧ (s.headSeq q ≠ s.ev.count ∨ s.headAbsent q = false))) → ∃ u, leads .skiphead s u ∧ u = { s with skipFail := true }) ∧
    (q ≠ 63 → s.headSeq q = s.ev.count → s.headAbsent q = true → s.quiesces = [] → s.stalls (cell + 24) = false → Memory.wf s.mem = true →
      ∃ u, leads .skiphead s u ∧ u.skipFail = false ∧ (∀ j, j < 8 → Memory.read u.mem (cell + 24 + j) = numByte (s.ev.count + 1) j) ∧
        (u.queues.read q).offered = none ∧ (u.queues.read q).checked = none)

/-- BIND_RECORD_WRITE reserves a free tile and cancels a reservation; a write of any other STATE changes no entry (R320). That one which leaves
STATE takes every field of a reserved entry, RESUME and PREEMPT of a bound one and nothing of another is the model's choice (assumption
log 111). -/
def BindEvent : Prop :=
  ∀ (s : State),
    let t := s.ev.tile
    let v := s.ev.value
    let old := bindState (s.bind t)
    (old = 0 → bindState v = 1 → s.unavailable t = false → ∃ u, leads .bindRecordWrite s u ∧ u = { s with binds := s.binds.write t v }) ∧
    (old = 1 → bindState v = 0 → ∃ u, leads .bindRecordWrite s u ∧ u = { s with binds := s.binds.write t 0 }) ∧
    (old ≠ bindState v → ¬ (old = 0 ∧ bindState v = 1 ∧ s.unavailable t = false) → ¬ (old = 1 ∧ bindState v = 0) →
      ∃ u, leads .bindRecordWrite s u ∧ u.binds = s.binds) ∧
    (old = bindState v → ∃ u, leads .bindRecordWrite s u ∧ (∀ t', t' ≠ t → u.bind t' = s.bind t') ∧ (old = 1 → u.bind t = v) ∧
      (old = 2 → ∀ j, j < 512 → (u.bind t).getLsbD j = if (384 ≤ j ∧ j < 448) ∨ j = 482 then v.getLsbD j else (s.bind t).getLsbD j) ∧
      (old ≠ 1 → old ≠ 2 → u = s))

/-- GANGGO binds every reserved tile of its gang at once, or none and reads FAIL; a new member's core is loaded with its image, and a bind that
dispatch refuses ends the whole team (R103, R321 to R323). -/
def GangEvent : Prop :=
  ∀ (s : State),
    let ts := s.gangTiles s.ev.gang
    let q := match ts with | t :: _ => bindQueue (s.bind t) | [] => 0
    let others := fun (u : State) => ∀ t, t ∉ ts → u.bind t = s.bind t
    let bound := fun (u : State) => u.gangFail = false ∧ (∀ t ∈ ts, bindState (u.bind t) = 2) ∧ others u
    (s.gangOk ts = false → ∃ u, leads .ganggo s u ∧ u = { s with gangFail := true }) ∧
    (s.gangOk ts = true → s.slotHeld q = false →
      ((∀ t ∈ ts, bindResume (s.bind t) ≠ 0 ∧ (bindCkey (s.bind t)).extractLsb' 15 17 = 0) → ∃ u, leads .ganggo s u ∧ bound u) ∧
      ((∀ t ∈ ts, bindResume (s.bind t) = 0 ∧ ∃ i, s.dispatch t = .ok i) → ∃ u, leads .ganggo s u ∧ bound u ∧
        (∃ g ∈ u.gangs, g.gang = s.ev.gang ∧ g.tiles = ts ∧ g.refused = false) ∧
        ∀ t ∈ ts, ∀ i, s.dispatch t = .ok i → Memory.wf (s.coreAt t).spad = true → (u.coreAt t).overlay = some i.overlay ∧
          ∀ a, Memory.read (u.coreAt t).spad a =
            if i.spadAddr ≤ a ∧ a < i.spadAddr + i.spad.length then i.spad.getD (a - i.spadAddr) 0 else Memory.read (s.coreAt t).spad a) ∧
      ((∀ t ∈ ts, bindResume (s.bind t) = 0 ∧ ∀ pa, s.dispatch t ≠ .held pa) → (∃ t ∈ ts, s.dispatch t = .refused) →
        (∀ g ∈ s.gangs, ∀ t ∈ ts, t ∈ g.tiles → t ∈ g.gone) → ∃ u, leads .ganggo s u ∧ u.gangFail = false ∧ others u ∧
          (∀ t ∈ ts, bindState (u.bind t) = 0) ∧ ∃ g ∈ u.gangs, g.gang = s.ev.gang ∧ g.tiles = ts ∧ g.refused = true))

/-- MEMBER_CREATION gives a new member its registers, scalar, predicate, vector, tile, mask and descriptor, its bundle and its identity, keeps its core's image and scratchpad, and leaves no barrier,
loop or live accumulator (R22, R23, R101, R323). An ENTRY beyond the instruction store is the model's reading (assumption log 96). -/
def CreationEvent : Prop :=
  ∀ (s : State),
    let t := s.ev.tile
    let b := s.bind t
    s.toCreate t false = true → (bindEntry b).toNat < 8192 →
      ∃ u, leads .memberCreation s u ∧
        let c := u.coreAt t
        c.bound = true ∧ c.main.run = .running ∧ c.tail0.run = .free ∧ c.tail1.run = .free ∧
        (∀ j, c.main.regs.sreg j = if j = 1 then bindArg b else if j = 62 then 0x200000 else if j = 63 then bindTeamBlk b else 0) ∧
        c.main.dup = c.main.regs ∧ c.main.ix = (bindEntry b).setWidth 13 ∧ c.asid = bindAsid b ∧ c.sh.efmt = 0x29 ∧ c.sh.seed = 1 ∧ c.sh.frm = 0 ∧
        c.sh.loops = [] ∧ c.main.regs.p = 1 ∧ (∀ i, c.main.regs.b.read i = 0) ∧ (∀ i, c.main.regs.dc.read i = 0) ∧ (∀ i, c.sh.v.read i = ⟨0, 0⟩) ∧
        (∀ i, c.sh.t.read i = ⟨0, 0⟩) ∧ (∀ i, c.sh.lm.read i = BitVec.allOnes 256) ∧ (∀ i, c.sh.d.read i = 0) ∧ (∀ i, c.sh.ms.read i = 0) ∧
        c.sh.mready = 0 ∧ c.sh.mstale = 0 ∧ c.sh.merr = 0 ∧ c.fa = ⟨[], []⟩ ∧ c.fb = ⟨[], []⟩ ∧ c.dupSh = c.sh ∧ c.sched = 0 ∧ c.cyc = 0 ∧ (∀ a, (c.acc.read a).st = .empty) ∧
        c.spad = (s.coreAt t).spad ∧ c.overlay = (s.coreAt t).overlay ∧ u.mem = s.mem ∧ u.binds = s.binds

/-- CORE_FREE, KILL and TEAM_COMPLETION: an ended member leaves its core free and its scratchpad as it is; a killed one posts a record of
kind 3, and its commands stop with the units in hand done (the model's reading, assumption log 102); and a team whose members are all gone leaves no trace, a ballast team not even a status, and any other the status of its kills or its refusal (R132, R314, R320, R324, R330, R333, R382). -/
def EndEvents : Prop :=
  ∀ (s : State),
    let f := at_ s
    let t := f.coreTile
    (f.core.freeable = true → bindState (f.bind t) = 3 → f.isflush.contains t = false → ∃ u, leads .coreFree s u ∧ memberGone u ∧
      u.core.spad = f.core.spad ∧ u.bind t = 0 ∧ u.mem = f.mem) ∧
    ((bindState (f.bind t) = 2 ∨ bindState (f.bind t) = 3) → ringRoom f (dieOf t) → f.killWaits t = false → Memory.wf f.mem = true →
      (∀ q ∈ f.core.q0 ++ f.core.q1, q.pin = none) → f.isflush.contains t = false →
        ∃ u r, leads .killMember s u ∧ memberGone u ∧ u.core.spad = (f.landUnits (f.core.q0 ++ f.core.q1)).core.spad ∧
          ((∀ q ∈ f.core.q0 ++ f.core.q1, q.pend = []) → u.core.spad = f.core.spad) ∧ u.bind t = 0 ∧ (r.extractLsb' 0 8).toNat = 3 ∧ recordPosted f u r) ∧
    (∀ g, s.gangs[s.ev.id]? = some g → g.saved = [] → (∀ x ∈ g.tiles, x ∈ g.gone) →
      (g.queue = 63 ∨ s.completionHeld g.queue g.asid g.status.toNat = false) →
      ∃ u, leads .teamCompletion s u ∧ u.gangs = s.gangs.eraseIdx s.ev.id ∧
        (∀ b ∈ u.barriers, b.gang = g.gang → ∃ x ∈ u.gangs, x.gang = g.gang) ∧ (g.queue = 63 → u.mem = s.mem) ∧
        (g.queue ≠ 63 → recordDone s u g.queue g.asid g.status.toNat (if g.refused then 2 else if g.killed = 0 then 0 else g.code.toNat)
          (if g.refused = false ∧ g.killed ≠ 0 ∧ g.code.toNat = 1 then g.cause.toNat else 0) g.killed g.seq.toNat)) ∧
    (∀ g, s.gangs[s.ev.id]? = some g → g.over = false → g.allTriggered = true → s.ctlHeld g.queue = false →
      ∃ u, leads .teamCompletion s u ∧ u.gangs = s.gangs.modify s.ev.id fun x => { x with early := false })

/-- CONTEXT_SAVE and SAVE_COMPLETE: a frozen member's save begins once its freeze record is in the ring; the area takes the scratchpad, and no byte
outside the area changes; and when every write of it has performed, the entry is free while the gang keeps the member as saved (R344, R346,
R384, R386). -/
def SaveEvents : Prop :=
  ∀ (s : State),
    let f := at_ s
    let t := f.coreTile
    let pa := (bindResume (f.bind t)).toNat
    (∀ z, f.core.save = .none → f.core.frozen = some z → f.core.bound = true → bindPreempt (f.bind t) = true → bindResume (f.bind t) ≠ 0 →
      bindState (f.bind t) = 2 → bindBallast (f.bind t) = false → f.recordWaits t = false → f.core.rollsBack = none → f.core.drained = true → ∃ u, leads .contextSave s u ∧ u.core.save = .reached ∧ bindState (u.bind t) = 4 ∧ u.core.spad = f.core.spad ∧
        u.mem = f.mem) ∧
    (f.core.save = .waiting → f.core.midUnit = none → f.settled = true → f.quiesces = [] →
      (∀ x, pa ≤ x → x < pa + 0x400000 → f.stalls x = false) → Memory.wf f.mem = true → f.core.q0.length ≤ 32 → f.core.q1.length ≤ 32 →
      f.core.fa.all.length ≤ 128 → f.core.fb.all.length ≤ 128 → (∀ r, f.core.inline = some r → r.s18.length = 8) → ∃ u, leads .contextSave s u ∧ u.core.save = .writing ∧
      (∀ x, x < 0x200000 → Memory.read u.mem (pa + 0x200000 + x) = Memory.read f.core.spad x) ∧
      (∀ x, (x < pa ∨ pa + 0x400000 ≤ x) → Memory.read u.mem x = Memory.read f.mem x) ∧ u.core.spad = f.core.spad) ∧
    (f.core.save = .writing → f.areaPending pa = false → f.core.areaPoison = [] → f.isflush.contains t = false → bindState (f.bind t) = 4 → ∃ u, leads .saveComplete s u ∧ memberGone u ∧ u.bind t = 0 ∧
      u.core.spad = f.core.spad ∧ u.mem = f.mem ∧
      ∀ g, f.gangOf t = some g → ∃ h ∈ u.gangs, h.gang = g.gang ∧ (bindMember (f.bind t), g.triggered.contains t) ∈ h.saved ∧ t ∉ h.tiles)

/-- CONTEXT_RESTORE gives a member back its registers, scalar, predicate, vector, tile, mask and descriptor, its bundle, its scratchpad and its counters from the area that its bind record names (R346 to
R349). -/
def RestoreEvent : Prop :=
  ∀ (s : State) (i : Image),
    let t := s.ev.tile
    let b := s.bind t
    let key := HeldAcc.tile t
    let pa := (bindResume b).toNat
    let le := fun (o n : Nat) => Memory.readLE s.mem (pa + o) n
    s.toCreate t true = true → s.image key (bindAsid b) (bindImage b).toNat (s.coreAt t).overlay none = .ok i → s.areaHeld t pa = none →
    le 0 4 = 1 → BitVec.ofNat 64 (le 8 8) = i.overlay.imageId → BitVec.ofNat 8 (le 146 1) = bindAsid b → Memory.wf s.mem = true →
      ∃ u, leads .contextRestore s u ∧
        let c := u.coreAt t
        c.bound = true ∧ c.main.run = .running ∧ (∀ j, j ≠ 0 → c.main.regs.sreg j = BitVec.ofNat 64 (le (0x1000 + 8 * j.toNat) 8)) ∧
        c.main.regs.p = BitVec.ofNat 48 (le (0x1000 + 512) 6) ∧ (∀ i, c.main.regs.b.read i = BitVec.ofNat 32 (le (0x1000 + 520 + 4 * i.toNat) 4)) ∧
        (∀ i, c.main.regs.dc.read i = BitVec.ofNat 12 (le (0x1000 + 536 + 2 * i.toNat) 2)) ∧
        (∀ i, c.sh.v.read i = ⟨BitVec.ofNat 2048 (le (0x4000 + 256 * i.toNat) 256), BitVec.ofNat 4 (le 128 16 / 16 ^ i.toNat)⟩) ∧
        (∀ i, c.sh.t.read i = ⟨BitVec.ofNat 131072 (le (0x10000 + 16384 * i.toNat) 16384), BitVec.ofNat 4 (le 144 2 / 16 ^ i.toNat)⟩) ∧
        (∀ i, c.sh.lm.read i = BitVec.ofNat 256 (le (512 + 32 * i.toNat) 32)) ∧
        (∀ i j, j < 512 → (c.sh.d.read i).getLsbD j = ((le (0x2000 + 64 * i.toNat) 64).testBit j && !decide (440 ≤ j ∧ j < 448))) ∧
        c.main.dup = c.main.regs ∧ c.main.ix = BitVec.ofNat 13 (le (0x1000 + 552) 4) ∧ c.sched = BitVec.ofNat 64 (le 16 8) ∧
        c.cyc = BitVec.ofNat 64 (le 24 8) ∧ c.sh.seed = BitVec.ofNat 64 (le 32 8) ∧ c.sh.efmt = BitVec.ofNat 32 (le 44 4) &&& 0xFB ∧
        c.overlay = some i.overlay ∧ (∀ x, x < 0x200000 → Memory.read c.spad x = Memory.read s.mem (pa + 0x200000 + x)) ∧ u.mem = s.mem ∧ u.binds = s.binds

/-! ### Digest regions, links and remote accesses -/

/-- The entries of every block but one stay. -/
def otherEntries (s u : State) (k : BitVec 8) (b : Nat) : Prop :=
  ∀ j c, ¬(j = k ∧ c = b) → u.digEntry j c = s.digEntry j c

/-- REGION_ACTIVATE, SIEVE_BLOCK_SCAN and REGION_DESTROY: an acceptable record becomes scanning and any other stays; a scan computes the block's
entry from its data with version 0, or makes it region-INVALID with the version it has; past the last block there is nothing to scan; a destroyed
region has no entry left (R267, R269). -/
def RegionEvents : Prop :=
  ∀ (s : State),
    let k : BitVec 8 := BitVec.ofNat 8 s.ev.id
    let b := s.ev.count
    let r := Region.ofBits (s.regions.read k)
    let held := (r :: ((s.liveRegions.filter fun p => p.2.state = 1).map (·.2))).findSome? s.regionHeld
    (r.state = 0 → held = none → s.regionOk r = true → ∃ u, leads .regionActivate s u ∧ (Region.ofBits (u.regions.read k)).state = 1 ∧
      (∀ j, j ≠ k → u.regions.read j = s.regions.read j) ∧ u.digests = s.digests ∧ u.mem = s.mem) ∧
    ((r.state ≠ 0 ∨ (held = none ∧ s.regionOk r = false)) → leads .regionActivate s s.outsideDone) ∧
    (∀ pa, r.state = 0 → held = some pa → ∃ u, leads .regionActivate s u ∧ u.regions = s.regions ∧ u.digests = s.digests ∧ u.mem = s.mem) ∧
    (s.ev.flag = true → r.state ≠ 0 → b < r.nblk → ∃ u, leads .sieveBlockScan s u ∧ u.mem = s.mem ∧ otherEntries s u k b ∧
      ∀ e, s.digEntry k b = some e → ∃ e', u.digEntry k b = some e' ∧ e'.bytes = regionInvalid r (entVersion e.bytes).toNat) ∧
    (∀ pa leaf, s.ev.flag = false → r.state ≠ 0 → b < r.nblk → s.walkPa s.outsideKey (BitVec.ofNat 8 r.asid) (r.base + b * r.block) = .ok pa leaf →
      leafCMP leaf = false → leafONCE leaf = false → (∀ j, j < r.block / 256 → s.homeHeld s.outsideKey (pa + 256 * j) = false) → ∃ u e, leads .sieveBlockScan s u ∧ u.mem = s.mem ∧ otherEntries s u k b ∧ u.digEntry k b = some e ∧
        entVersion e.bytes = 0 ∧ (s.poisoned pa r.block = true → e.bytes = regionInvalid r 0) ∧
        (s.poisoned pa r.block = false → e.bytes = setField (scanEntry r fun j => Memory.read s.mem (pa + j)) 32 32 0)) ∧
    (r.state ≠ 0 → r.nblk ≤ b → ∃ u, leads .sieveBlockScan s u ∧ u.digests = s.digests ∧ u.mem = s.mem) ∧
    ∃ u, leads .regionDestroy s u ∧ (Region.ofBits (u.regions.read k)).state = 0 ∧ (∀ c, u.digEntry k c = none) ∧
      (∀ j c, j ≠ k → u.digEntry j c = s.digEntry j c) ∧ (∀ j, j ≠ k → u.regions.read j = s.regions.read j) ∧ u.mem = s.mem

/-- DIGEST_ENTRY_ECC_ERROR: the entry becomes region-INVALID with its version, and a record of kind 7 names the block's address. The
record's own bytes may update an entry only where the fault ring lies in its block (R269, R385). An entry whose home is on another package
posts nothing here (R15). -/
def EntryErrorEvent : Prop :=
  ∀ (s : State) (e : DigEntry),
    let k : BitVec 8 := BitVec.ofNat 8 s.ev.id
    let r := Region.ofBits (s.regions.read k)
    let die : BitVec 2 := e.home.setWidth 2
    let g := s.rings.read die
    let slot := g.base.toNat + 64 * (g.prod.toNat % g.cap.toNat)
    s.digEntry k s.ev.count = some e →
    (e.home.toNat / 4 ≠ Config.pkgId.toNat → ∃ u, leads .digestEntryEccError s u ∧ u.rings = s.rings ∧ u.recWait = s.recWait ∧ u.mem = s.mem ∧
      ∃ e', u.digEntry k s.ev.count = some e' ∧ e'.pa = e.pa ∧ e'.bytes = regionInvalid r (entVersion e.bytes).toNat) ∧
    (e.home.toNat / 4 = Config.pkgId.toNat → ringRoom s die → Memory.wf s.mem = true →
      ∃ u rcd, leads .digestEntryEccError s u ∧ recordSays rcd 7 0 0 (e.pa.setWidth 64) 0 ∧ recordPostedAt s u die rcd ∧ u.regions = s.regions ∧
        ((slot + 64 ≤ e.pa.toNat ∨ e.pa.toNat + r.block ≤ slot) → ∃ e', u.digEntry k s.ev.count = some e' ∧ e'.pa = e.pa ∧
          e'.bytes = regionInvalid r (entVersion e.bytes).toNat))

/-- LINK_PAIR: the first local end of the port and channel moves the shorter length; unequal lengths end in error after the move. A send waits for the
stores of earlier bundles that are on their way to its tile (R212), and leaves with its bytes. LRECV has its bytes on their way to its scratchpad, LRXADD for its additions
at hand (R237, R238, R248). -/
def LinkPairEvent : Prop :=
  ∀ (s : State) (w : LinkWait) (k : Cmd),
    (s.linkWaits.find? fun w => w.port = s.ev.port && w.chan.toNat = s.ev.count && w.send = s.ev.flag) = some w →
    s.linkCmd w = some k → (s.coreAt w.tile).enginesRun = true → (s.ports.read w.port).state = 2 →
    let c := s.coreAt w.tile
    let n := 64 * min (linkLen k.link) s.ev.id
    let a := linkAddr k.link
    let ended := fun (u : State) => ∀ x ∈ (u.coreAt w.tile).queue w.eng, x.id = k.id → x.done = true ∧ x.err = (k.err || decide (linkLen k.link ≠ s.ev.id))
    let waits := fun (u : State) => u.linkWaits = s.linkWaits.filter fun x => x ≠ w
    Memory.wf c.spad = true →
      (w.send = true → (s.focus w.tile).storeOnWay k w.tile = true → leads .linkPair s s) ∧
      (w.send = true → (s.focus w.tile).storeOnWay k w.tile = false → c.spadPoisoned a n = false → ∃ u, leads .linkPair s u ∧ u.out = s.out ++ [Out.link w.port w.chan (Memory.readList c.spad a n)] ∧
        (u.coreAt w.tile).spad = c.spad ∧ ended u ∧ waits u ∧ u.mem = s.mem) ∧
      (w.send = false → s.ev.data.length = n → ∃ u, leads .linkPair s u ∧ u.out = s.out ∧ waits u ∧ u.mem = s.mem ∧
        (u.coreAt w.tile).sh = c.sh ∧ (u.coreAt w.tile).main = c.main ∧ (u.coreAt w.tile).spad = c.spad ∧
        ∀ y ∈ (u.coreAt w.tile).queue w.eng, y.id = k.id →
          y.progress = 1 ∧ y.err = (k.err || decide (linkLen k.link ≠ s.ev.id)) ∧
          (∀ g r m j, k.i = .lrecv g r m j → y.pend = s.ev.data.zipIdx.map fun b => (w.tile, a + b.2, b.1)) ∧
          (∀ g r m j f, k.i = .lrxadd g r m j f → y.pend = k.pend ∧ y.buf = s.ev.data))

/-- LRXADD adds what it has received element by element, in increasing address: a step reads the next element in place and has the sum's bytes on
their way, and the next step for an element comes once they are written (R238, R248). -/
def LinkAddEvent : Prop :=
  ∀ (s : State) (k : Cmd) (g : Guard) (r m : BitVec 6) (j : BitVec 4) (f : BitVec 3),
    let c := here s
    let e := s.ev.eng
    let tile := (at_ s).coreTile
    let z := linkElem f
    let a := linkAddr k.link + (k.progress - 1)
    c.enginesRun = true → c.headCmd e = some k → k.done = false → k.started = true → k.pend = [] → k.buf ≠ [] → k.i = .lrxadd g r m j f →
    1 ≤ k.progress → a + z ≤ 0x200000 → (at_ s).storeOnWay k tile = false → (∀ x, a ≤ x → x < a + z → c.spadPoisoned x 1 = false) →
      let sum := linkSum f (Memory.readLE c.spad a z) (leNat (k.buf.take z))
      ∃ u, leads .engineCommandStart s u ∧ u.core.queue e = (c.queue e).map (fun x => if x.id = k.id then
          { k with progress := k.progress + z, buf := k.buf.drop z, pend := (leBytes z sum).zipIdx.map fun b => (tile, a + b.2, b.1) } else x) ∧
        u.core.spad = c.spad ∧ u.core.main = c.main ∧ u.core.sh = c.sh ∧ restSame s u

/-- LINK_PORT_DOWN and LINK_PORT_UP: the port's pending commands end in error; the state becomes down, or, where a cable is fitted, up with its
lanes (R17, R237, R407, R418). -/
def LinkPortEvents : Prop :=
  ∀ (s : State),
    let p := s.ev.port
    let x := s.ports.read p
    (∃ u, leads .linkPortDown s u ∧ u.ports = (if s.ev.flag then s.ports else s.ports.write p { x with state := 0, lanes := 0 }) ∧ u.mem = s.mem ∧
      (∀ w, s.linkWaits = [w] → w.port = p → u.linkWaits = [] ∧
        ∀ k, s.linkCmd w = some k → ∀ y ∈ (u.coreAt w.tile).queue w.eng, y.id = k.id → y.done = true ∧ y.err = true) ∧
      ∀ w ∈ s.linkWaits, w.port ≠ p → w ∈ u.linkWaits) ∧
    (p.toNat < 12 → Config.lanes p ≠ 0 →
      let ports := s.ports.write p { x with state := 2, lanes := Config.lanes p }
      ∃ u, leads .linkPortUp s u ∧ u.ports = ports ∧ (s.stalled = [] → u = { s with ports := ports })) ∧
    ((12 ≤ p.toNat ∨ Config.lanes p = 0) → leads .linkPortUp s s)

/-- FLIT_RETRANSMIT counts a retransmission, saturating; LINK_RETRAIN trains an up port that has retransmitted more than 1,024 flits in 1 ms, and
posts a record of kind 12 to its die (R418). -/
def RetransmitEvents : Prop :=
  ∀ (s : State),
    let p := s.ev.port
    let x := s.ports.read p
    (∃ u, leads .flitRetransmit s u ∧ (u.ports.read p).retry.toNat = min 0xFFFF (x.retry.toNat + 1) ∧ (u.ports.read p).state = x.state ∧
      (u.ports.read p).recent = (x.recent.filter fun a => s.refClk < a + 100000) ++ [s.refClk] ∧
      ∀ q, q ≠ p → u.ports.read q = s.ports.read q) ∧
    (x.state = 2 → 1024 < x.recent.length → p.toNat < 12 → ringRoom s (BitVec.ofNat 2 (p.toNat / 3)) → Memory.wf s.mem = true →
      ∃ u r, leads .linkRetrain s u ∧ recordSays r 12 0 0 0 0 ∧ recordPostedAt s u (BitVec.ofNat 2 (p.toNat / 3)) r ∧
        u.ports = s.ports.write p { x with state := 1, lanes := 0, recent := [] }) ∧
    ((x.state ≠ 2 ∨ x.recent.length ≤ 1024) → leads .linkRetrain s s)

/-- The remote access of `n` bytes stays in one block of a registered region, and every check of its page passes: it performs at `pa`. -/
structure Remote (s : State) (n : Nat) (acc : Machine.Access) (pa : Nat) : Prop where
  block : 0 < n ∧ s.ev.addr.toNat % 64 + n ≤ 64
  inside : ∃ m ∈ s.rdma, m.1 = s.ev.gang.setWidth 8 ∧ m.2.1.toNat ≤ s.ev.addr.toNat ∧ s.ev.addr.toNat + n ≤ m.2.1.toNat + m.2.2
  page : ∃ leaf, s.walkPa s.outsideKey (s.ev.gang.setWidth 8) s.ev.addr.toNat = .ok pa leaf ∧ attrTrap leaf acc = none
  place : pa % 64 = s.ev.addr.toNat % 64
  free : s.homeHeld s.outsideKey pa = false
  memory : Memory.wf s.mem = true

/-- RDMA: an access that comes over no open queue pair is dropped; one outside every registered region is refused; inside one, a write stores its
bytes, a read answers with them, and a fetch-add answers the old doubleword and stores the sum modulo 2^64 (R263, R417). That a write
performs in one step, and that a read and a fetch-add of poisoned data are answered by an error, are the model's choices (assumption log 108 and
109). -/
def RdmaEvents : Prop :=
  ∀ (s : State),
    let va := s.ev.addr.toNat
    let outside := fun n => ∀ m ∈ s.rdma, ¬(m.1 = s.ev.gang.setWidth 8 ∧ m.2.1.toNat ≤ va ∧ va + n ≤ m.2.1.toNat + m.2.2)
    let said := fun (u : State) ok (l : List Byte) => u.out = s.out ++ [Out.rdma ok l]
    (s.qpOpen = false → leads .rdmaWrite s s.outsideDone ∧ leads .rdmaRead s s.outsideDone ∧ leads .rdmaFetchAdd s s.outsideDone) ∧
    (s.qpOpen = true →
    (outside s.ev.data.length → ∃ u, leads .rdmaWrite s u ∧ said u false [] ∧ u.mem = s.mem) ∧
    (outside s.ev.count → ∃ u, leads .rdmaRead s u ∧ said u false [] ∧ u.mem = s.mem) ∧
    ((outside 8 ∨ va % 8 ≠ 0) → ∃ u, leads .rdmaFetchAdd s u ∧ said u false [] ∧ u.mem = s.mem) ∧
    (∀ pa, Remote s s.ev.data.length .store pa →
      ∃ u, leads .rdmaWrite s u ∧ said u true [] ∧ wroteAt s u pa s.ev.data.length fun j => s.ev.data.getD j 0) ∧
    (∀ pa, Remote s s.ev.count .load pa → ∃ u, leads .rdmaRead s u ∧ u.mem = s.mem ∧
      if s.poisoned pa s.ev.count then said u false [] else said u true (Memory.readList s.mem pa s.ev.count)) ∧
    ∀ pa, Remote s 8 .atom pa → va % 8 = 0 →
      (s.poisoned pa 8 = true → ∃ u, leads .rdmaFetchAdd s u ∧ said u false [] ∧ u.mem = s.mem) ∧
      (s.poisoned pa 8 = false →
      let old := Memory.readLE s.mem pa 8
      ∃ u, leads .rdmaFetchAdd s u ∧ said u true (leBytes 8 old) ∧ wroteAt s u pa 8 (numByte ((old + (s.ev.value.setWidth 64).toNat) % 2 ^ 64))))

/-! ### The neighbour watch -/

/-- A record of kind 9 about tile `t` is posted, and the same goes to the service core: event code, direction of the reporting neighbour or 15, and
team and queue of the tile's bind record, which a readmitted tile has not (R385, R401). -/
def reports (s u : State) (t : BitVec 7) (code dir cause : Nat) : Prop :=
  ∃ r : BitVec 512, recordSays r 9 cause 0 0 (BitVec.ofNat 64 (code + 16 * dir)) ∧ (r.extractLsb' 16 16).toNat = podTile t ∧
    (code ≠ 9 → r.extractLsb' 448 16 = bindTeamNo (s.bind t) ∧ (r.extractLsb' 464 8).toNat = (bindQueue (s.bind t)).toNat) ∧
    recordPostedAt s u (dieOf t) r ∧ u.out = s.out ++ [Out.record (dieOf t) r]

/-- Whether a link that is not fenced leads from tile `v` to tile `w` (R399). -/
def openTo (s : State) (v w : BitVec 7) : Bool := [0#2, 1#2, 2#2, 3#2].any fun d => neighbour v d = w && !(s.vote v d).linkFenced

/-- The two flits about tile `t` that tile `v` sends both ways round its ring, but over no fenced link (R395, R399). -/
def ringFlits (s : State) (v t : BitVec 7) (kind : BitVec 3) : List Flit :=
  [⟨ringNext t v false, 0, kind, 0, t, v, s.refClk⟩, ⟨ringNext t v true, 1, kind, 0, t, v, s.refClk⟩].filter fun f => openTo s v f.dest

/-- Tile `v` suspects its neighbour in direction `d` from now on, accuses it, and the suspicion is reported (R393 to R395, R401). -/
def suspects (s u : State) (v : BitVec 7) (d : BitVec 2) (kind : BitVec 2) : Prop :=
  (u.vote v d).state = 1 ∧ (u.vote v d).kind = kind ∧ (u.vote v d).accusing = true ∧ reports s u (neighbour v d) kind.toNat (d ^^^ 1).toNat 0

/-- No fence notice about the neighbour has come yet, its die's ring has room, and device memory stands in its form. -/
structure WatchOk (s : State) (v : BitVec 7) (d : BitVec 2) : Prop where
  open_ : (s.trellisAt v).noticed (neighbour v d) = false
  room : ringRoom s (dieOf (neighbour v d))
  memory : Memory.wf s.mem = true

/-- The notice about tile `t` that tile `v` posts on the management ring: it has reached `v`, and need not reach a fused-off tile (R396). -/
def noticeOf (s : State) (v : BitVec 7) (kind : BitVec 3) (t : BitVec 7) : Notice :=
  ⟨kind, t, s.refClk, s.fusedTiles ||| BitVec.ofNat 128 (2 ^ v.toNat)⟩

/-- HEARTBEAT_SEND: at its edge a tile that may send sends one heartbeat to each neighbour that is not fused off, with the fields of R391. -/
def HeartbeatSendEvent : Prop :=
  ∀ (s : State),
    let t := s.ev.tile
    let k := (s.trellisAt t).beatSent + 1
    let m := s.mapAt t t
    (s.refClk < 2000 * k → leads .heartbeatSend s s) ∧
    (2000 * k ≤ s.refClk → ∃ u, leads .heartbeatSend s u ∧ (u.trellisAt t).beatSent = k ∧ u.map = s.map ∧ u.mem = s.mem ∧
      (((s.map.read t).fused = true ∨ (m.fenced = true ∧ (s.trellisAt t).probation = none)) → u.flits = s.flits) ∧
      ((s.map.read t).fused = false → m.fenced = false → Config.silent t k = false → ∀ d, (s.map.read (neighbour t d)).fused = false →
        ∃ f ∈ u.flits, f.dest = neighbour t d ∧ f.dir = d ^^^ 1 ∧ f.kind = 0 ∧ (f.payload.extractLsb' 48 16).toNat = k % 65536 ∧
          (f.payload.extractLsb' 35 13).toNat = podTile t ∧ f.payload.getLsbD 34 = (s.trellisAt t).probation.isSome ∧
          (f.payload.extractLsb' 32 2).toNat = min 2 m.strikes.length ∧ f.payload.extractLsb' 24 8 = 0 ∧
          (∀ j : BitVec 2, f.payload.extractLsb' (16 + 2 * j.toNat) 2 = s.neighbourState t j) ∧
          f.payload.extractLsb' 0 16 = Config.heartbeatCheck (f.payload.extractLsb' 16 48)))

/-- HEARTBEAT_RECEIVE on a live link: the first valid heartbeat of a period counts, sets LASTSEQ and clears a silent suspicion with a withdrawal;
a violation is kept with its time, and makes the neighbour suspect-babbling when four earlier ones lie within TVIOL (R391, R393, R394); one that was
suspect-silent is accused again when that is due (R395). -/
def HeartbeatReceiveEvents : Prop :=
  ∀ (s : State),
    let v := s.ev.tile
    let d := s.ev.dir
    let x := s.vote v d
    let p := s.ev.value.setWidth 64
    s.ev.flag = true → x.linkFenced = false → (s.map.read v).fused = false → (s.map.read (neighbour v d)).fused = false → WatchOk s v d →
      (s.ev.count = 0 → x.beats = 0 → x.beatOk (neighbour v d) p = true → ∃ u, leads .heartbeatReceive s u ∧ (u.vote v d).beats = 1 ∧
        (u.vote v d).beatsValid = x.beatsValid + 1 ∧ (u.vote v d).lastSeq = some (p.extractLsb' 48 16) ∧ (u.vote v d).miss = x.miss ∧
        (if x.state = 1 ∧ x.kind = 1 then (u.vote v d).state = 0 ∧ (u.vote v d).accusing = false ∧
            u.flits = s.flits ++ ringFlits s v (neighbour v d) 2
          else (u.vote v d).state = x.state ∧ (u.vote v d).kind = x.kind ∧ u.flits = s.flits)) ∧
      ((s.ev.count ≠ 0 ∨ x.beats ≠ 0 ∨ x.beatOk (neighbour v d) p = false) →
        let recent := x.viol.filter fun a => s.refClk ≤ a + 10000
        ∃ u, leads .heartbeatReceive s u ∧ (u.vote v d).beatsValid = x.beatsValid ∧ (u.vote v d).badPeriod = true ∧ s.refClk ∈ (u.vote v d).viol ∧
          (recent.length < 4 → (u.vote v d).state = x.state ∧ (u.vote v d).kind = x.kind ∧ u.flits = s.flits) ∧
          (4 ≤ recent.length → x.state = 0 → x.kind ≠ 2 → suspects s u v d 2 ∧ u.flits = s.flits ++ ringFlits s v (neighbour v d) 1 ∧
            (u.vote v d).renewed = s.refClk) ∧
          (4 ≤ recent.length → x.state = 1 → x.kind ≠ 2 → suspects s u v d 2 ∧ u.flits = s.flits ∧ (u.vote v d).renewed = x.renewed))

/-- PERIOD_END, once for each period: without a valid heartbeat MISS rises, and at three the live neighbour becomes suspect-silent. On a fenced
link GOOD counts, and at sixteen, while the tile is on probation, the voter sends its admission, and opens the link when it holds a quorum of them (R393, R402). -/
def PeriodEndEvents : Prop :=
  ∀ (s : State),
    let v := s.ev.tile
    let d := s.ev.dir
    let t := neighbour v d
    let x := s.vote v d
    let k := (s.trellisAt v).periodsEnded.read d + 1
    let e := s.voters v t
    let good := decide (x.beatsValid = 1) && !x.badPeriod
    let held := ((s.trellisAt v).admits.filter fun h => h.subject = t && h.by_ ≠ v && s.votes v h.by_).length + 1
    (s.refClk < 2000 * k → leads .periodEnd s s) ∧
    (2000 * k ≤ s.refClk → (s.map.read v).fused = false → (s.map.read t).fused = false →
      (x.linkFenced = false → WatchOk s v d → ∃ u, leads .periodEnd s u ∧ (u.trellisAt v).periodsEnded.read d = k ∧
        (u.vote v d).miss.toNat = (if 0 < x.beatsValid then 0 else min 3 (x.miss.toNat + 1)) ∧ (u.vote v d).beats = 0 ∧ (u.vote v d).beatsValid = 0 ∧
        (if (u.vote v d).miss = 3 ∧ x.state = 0 then suspects s u v d 1 ∧ u.flits = s.flits ++ ringFlits s v t 1
          else (u.vote v d).state = x.state ∧ (u.vote v d).kind = x.kind ∧ u.flits = s.flits)) ∧
      (x.linkFenced = true → x.good.toNat ≤ 16 → ∃ u, leads .periodEnd s u ∧ (u.trellisAt v).periodsEnded.read d = k ∧
        (¬(x.good = 15 ∧ good = true) → (u.vote v d).good.toNat = (if good then min 16 (x.good.toNat + 1) else 0) ∧ (u.vote v d).linkFenced = true ∧
          u.flits = s.flits) ∧
        (x.good = 15 → good = true → (s.trellisAt t).probation = none → (u.vote v d).good = 16 ∧ (u.vote v d).linkFenced = true ∧ u.flits = s.flits) ∧
        (x.good = 15 → good = true → (s.trellisAt t).probation ≠ none → (∀ f ∈ ringFlits s v t 4, f ∈ u.flits) ∧
          if s.votes v v = true ∧ max 2 (e / 2 + 1) ≤ held then
            u.vote v d = Vote.fresh ∧ (∀ f ∈ ringFlits s v t 5, f ∈ u.flits) ∧ noticeOf s v 2 t ∈ u.mring
            else (u.vote v d).good = 16 ∧ (u.vote v d).linkFenced = true)))

/-- BABBLE_CLEAR: a babbling suspicion ends after TVIOL without a violation, with a withdrawal; silence remains when MISS stands at three and no
valid heartbeat has come since (R393, R394). -/
def BabbleClearEvent : Prop :=
  ∀ (s : State),
    let v := s.ev.tile
    let d := s.ev.dir
    let x := s.vote v d
    let lasts := x.state = 1 ∧ x.kind = 2 ∧ (s.trellisAt v).noticed (neighbour v d) = false ∧ ∀ a ∈ x.viol, a + 10000 ≤ s.refClk
    (lasts → ∃ u, leads .babbleClear s u ∧ (x.miss = 3 ∧ x.beatsValid = 0 → (u.vote v d).state = 1 ∧ (u.vote v d).kind = 1 ∧ u.flits = s.flits) ∧
      (¬ (x.miss = 3 ∧ x.beatsValid = 0) → (u.vote v d).state = 0 ∧ (u.vote v d).accusing = false ∧ u.flits = s.flits ++ ringFlits s v (neighbour v d) 2)) ∧
    (¬ lasts → leads .babbleClear s s)

/-- The flit that goes on round the ring after tile `v` has taken it, when it has not gone round, but over no fenced link (R395, R399). -/
def forwarded (s : State) (v : BitVec 7) (f : Flit) : List Flit :=
  let next := ringNext f.subject v (f.dir = 1)
  if next = f.sender ∨ openTo s v next = false then [] else [{ f with dest := next, sent := s.refClk }]

/-- Tile `v` is not fenced, and takes the flit from the ring tile before it: neither its map nor its link holds that tile as fenced (R399). -/
def heard (s : State) (v : BitVec 7) (f : Flit) : Prop := s.votes v v = true ∧ s.hears v (ringNext f.subject v (f.dir = 0)) = true

/-- ACCUSATION_RECEIVE, WITHDRAWAL_RECEIVE: a live voter holds the sender's accusation from now, or no longer, and forwards it. ACCUSATION_RENEW
sends again after THB; ACCUSATION_EXPIRY drops what is older than TACC (R395). -/
def AccusationEvents : Prop :=
  ∀ (s : State),
    let v := s.ev.tile
    let d := s.ev.dir
    let n := s.ev.id
    (∀ f, s.flits[n]? = some f → f.dest = v → heard s v f →
      (f.kind = 1 → (∃ d', neighbour v d' = f.subject) → ∃ u, leads .accusationReceive s u ∧ u.flits = s.flits.eraseIdx n ++ forwarded s v f ∧
        (⟨f.subject, f.sender, s.refClk⟩ : Held) ∈ (u.trellisAt v).accs ∧
        ∀ h, (h.subject, h.by_) ≠ (f.subject, f.sender) → (h ∈ (u.trellisAt v).accs ↔ h ∈ (s.trellisAt v).accs)) ∧
      (f.kind = 2 → ∃ u, leads .withdrawalReceive s u ∧ u.flits = s.flits.eraseIdx n ++ forwarded s v f ∧
        ∀ h, h ∈ (u.trellisAt v).accs ↔ h ∈ (s.trellisAt v).accs ∧ (h.subject, h.by_) ≠ (f.subject, f.sender))) ∧
    ((s.vote v d).accusing = true → s.votes v v = true → (s.vote v d).renewed + 2000 ≤ s.refClk → ∃ u, leads .accusationRenew s u ∧
      (u.vote v d).renewed = s.refClk ∧ u.flits = s.flits ++ ringFlits s v (neighbour v d) 1) ∧
    ∃ u, leads .accusationExpiry s u ∧ u.flits = s.flits ∧
      ∀ h, h ∈ (u.trellisAt v).accs ↔ h ∈ (s.trellisAt v).accs ∧ s.refClk ≤ h.time + 20000

/-- The fence of tile `t` has its effect: its entry is Unavailable, and no member is left on it, where none had been killed before; a reserved one
keeps its gang (R314, R321, R400). -/
def fenced (s u : State) (t : BitVec 7) : Prop :=
  bindState (u.bind t) = 5 ∧ (∀ x, x ≠ t → bindState (u.bind x) = bindState (s.bind x)) ∧
    (bindState (s.bind t) = 1 → bindGang (u.bind t) = bindGang (s.bind t)) ∧
    (bindState (s.bind t) = 2 ∨ bindState (s.bind t) = 3 ∨ bindState (s.bind t) = 4 → u.coreTile = t ∧ (s.killWaits t = false → memberGone u))

/-- QUORUM_CHECK: with two or more voters, a voter that holds a quorum of live accusations by voters sends the fence notice on the ring and the
management ring, reports it with CAUSE 15 as the ring's next record where no member's kill posts another, fences its link, and the fence takes
effect; a tile without voters fences itself; a single voter that suspects isolates (R396 to R398, R400); and one whom a change of the map left
with a quorum of admissions for a tile on probation readmits it (R402). -/
def QuorumEvent : Prop :=
  ∀ (s : State),
    let v := s.ev.tile
    let d := s.ev.dir
    let t := neighbour v d
    let up := fun (x : BitVec 7) => !(s.mapAt v x).fused && !(s.mapAt v x).fenced
    let e := fun (x : BitVec 7) => ([0#2, 1#2, 2#2, 3#2].filter fun d => up (neighbour x d)).length
    let live := fun (h : Held) => decide (h.subject = t) && decide (h.by_ ≠ v) && up h.by_ && decide (s.refClk ≤ h.time + 20000)
    let n := ((s.trellisAt v).accs.filter live).length + (if (s.vote v d).accusing then 1 else 0)
    let idle := fun (x : BitVec 7) => bindState (s.bind x) = 0 ∨ bindState (s.bind x) = 1 ∨ bindState (s.bind x) = 5
    let quorate := up v = true ∧ up t = true ∧ (s.trellisAt v).noticed t = false ∧ 2 ≤ e t ∧ max 2 (e t / 2 + 1) ≤ n
    (quorate → WatchOk s v d → ∃ u, leads .quorumCheck s u ∧ u.flits = s.flits ++ ringFlits s v t 3 ∧ u.mring = s.mring ++ [noticeOf s v 0 t] ∧
      (idle t → reports s u t 3 (d ^^^ 1).toNat 15) ∧ (u.vote v d).linkFenced = true ∧ (u.vote v d).state = 2 ∧
      (u.trellisAt v).noticed t = true ∧ fenced s u t) ∧
    (up v = true → e v = 0 → ringRoom s (dieOf v) → Memory.wf s.mem = true → ∃ u, leads .quorumCheck s u ∧
      u.mring = s.mring ++ [noticeOf s v 1 v] ∧ (idle v → reports s u v 5 15 15) ∧ u.flits = s.flits ∧ fenced s u v) ∧
    (up v = true → up t = true → e t = 1 → (s.vote v d).state = 1 → (s.mapAt v t).isolated = false → WatchOk s v d →
      ∃ u, leads .quorumCheck s u ∧ u.mring = s.mring ++ [noticeOf s v 3 t] ∧ reports s u t 4 (d ^^^ 1).toNat 0 ∧ u.flits = s.flits) ∧
    (up v = true → up t = true → e t = 1 → (s.vote v d).state ≠ 1 → (s.mapAt v t).isolated = true →
      ∃ u, leads .quorumCheck s u ∧ u = { s with mring := s.mring ++ [noticeOf s v 4 t] }) ∧
    (up v = true → up t = false → e v ≠ 0 → (s.vote v d).linkFenced = true → (s.trellisAt t).probation ≠ none →
      max 2 (e t / 2 + 1) ≤ ((s.trellisAt v).admits.filter fun h => decide (h.subject = t) && up h.by_).length →
        ∃ u, leads .quorumCheck s u ∧ u.vote v d = Vote.fresh ∧ u.flits = s.flits ++ ringFlits s v t 5 ∧ u.mring = s.mring ++ [noticeOf s v 2 t])

/-- FENCE_NOTICE_RECEIVE: a voter, whether it accuses or not, fences its link, the notice goes on, and the fence takes effect (R397, R400).
WATCH_MAP_UPDATE: the first notice that has not reached a tile changes its watch map and no other's: a fence notice fences and charges a strike, a
self-fence charges none, a readmission clears the entry, an isolation sets its condition, old strikes lapse. A neighbour of a fenced tile fences
its link and the fence takes effect; at a readmission it opens it, and the tile is free again (R396 to R398, R400 to R403). -/
def FenceEvents : Prop :=
  ∀ (s : State),
    let v := s.ev.tile
    (∀ f d, s.flits[s.ev.id]? = some f → f.dest = v → heard s v f → f.kind = 3 → neighbour v d = f.subject → (s.trellisAt v).noticed f.subject = false →
      ∃ u, leads .fenceNoticeReceive s u ∧ u.flits = s.flits.eraseIdx s.ev.id ++ forwarded s v f ∧ (u.vote v d).linkFenced = true ∧
        (u.vote v d).state = 2 ∧ (u.trellisAt v).noticed f.subject = true ∧ fenced s u f.subject) ∧
    (s.unseen v = none → leads .watchMapUpdate s s) ∧
    ∀ i n, s.unseen v = some i → s.mring[i]? = some n → (∀ l ∈ s.mring.drop (i + 1), l.subject = n.subject → l.seen.getLsbD v.toNat = false) →
      let t := n.subject
      let m := s.mapAt v t
      ∃ u, leads .watchMapUpdate s u ∧ (∀ w x, (w ≠ v ∨ x ≠ t) → u.mapAt w x = s.mapAt w x) ∧
        (n.kind.toNat < 2 → m.fenced = false →
          u.mapAt v t = { m with fenced := true, isolated := false, strikes := if n.kind = 0 then m.strikes ++ [n.time] else m.strikes }) ∧
        (n.kind.toNat < 2 → fenced s u t ∧ (∀ d, neighbour v d = t → (u.vote v d).linkFenced = true) ∧
          (bindState (s.bind t) ≠ 5 → (u.trellisAt t).selfTest = some s.refClk ∧ (u.trellisAt t).probation = none)) ∧
        (n.kind = 2 → u.mapAt v t = { m with fenced := false } ∧ (∀ d, neighbour v d = t → v ≠ t → (s.vote v d).linkFenced = true → u.vote v d = Vote.fresh) ∧
          (v = t → bindState (s.bind t) = 5 → ringRoom s (dieOf t) → Memory.wf s.mem = true →
            u.bind t = 0 ∧ reports s u t 9 15 0 ∧ (u.trellisAt t).probation = none)) ∧
        (n.kind = 3 → u.mapAt v t = { m with isolated := true }) ∧ (n.kind = 4 → u.mapAt v t = { m with isolated := false }) ∧
        (n.kind = 5 → u.mapAt v t = { m with strikes := m.strikes.filter fun a => n.time < a + 8640000000000 })

/-- STRIKE_LAPSE, SELF_TEST_COMPLETE, PROBATION_TIMEOUT: a strike's lapse after 24 h goes to every map; after TBIST a tile appeals and begins
probation, unless its test fails or it has two strikes, and stays fenced; probation fails after TPROB, unless its readmission notice is on the
ring; an appeal begins and fails with no admission held (R402, R403). -/
def AppealEvents : Prop :=
  ∀ (s : State),
    let t := s.ev.tile
    let m := s.mapAt t t
    let x := s.trellisAt t
    let old := (∃ a ∈ (s.map.read t).strikes, a + 8640000000000 ≤ s.refClk) ∧ ∀ n ∈ s.mring, ¬ (n.kind = 5 ∧ n.subject = t)
    (old → leads .strikeLapse s { s with mring := s.mring ++ [noticeOf s t 5 t] }) ∧ (¬ old → leads .strikeLapse s s) ∧
    let dropped := fun (u : State) => ∀ w, w ≠ t → ∀ h ∈ (u.trellisAt w).admits, h.subject ≠ t
    (∀ b, m.fenced = true → x.barred = false → x.selfTest = some b → b + 800000 ≤ s.refClk →
      (s.ev.flag = true → m.strikes.length < 2 → ∃ u, leads .selfTestComplete s u ∧ u.out = s.out ++ [.appeal t] ∧
        (u.trellisAt t).probation = some s.refClk ∧ (u.trellisAt t).selfTest = none ∧ dropped u) ∧
      ((s.ev.flag = false ∨ 2 ≤ m.strikes.length) → ringRoom s (dieOf t) → Memory.wf s.mem = true → ∃ u, leads .selfTestComplete s u ∧
        reports s u t (if s.ev.flag then 7 else 6) 15 0 ∧ (u.trellisAt t).barred = true ∧ u.map = s.map)) ∧
    ((m.fenced = false ∨ x.barred = true ∨ x.selfTest = none) → leads .selfTestComplete s s) ∧
    ((∃ n ∈ s.mring, n.kind = 2 ∧ n.subject = t) → leads .probationTimeout s s) ∧
    ∀ b, m.fenced = true → x.probation = some b → b + 200000 ≤ s.refClk → (∀ n ∈ s.mring, ¬ (n.kind = 2 ∧ n.subject = t)) → ringRoom s (dieOf t) → Memory.wf s.mem = true →
      ∃ u, leads .probationTimeout s u ∧ reports s u t 8 15 0 ∧ (u.trellisAt t).probation = none ∧ (u.trellisAt t).selfTest = some s.refClk ∧ dropped u

/-- ADMISSION_RECEIVE, READMISSION_NOTICE_RECEIVE: a voter with a fenced link holds the admission of a tile on probation, and of no other; with a
quorum of them by voters it sends the readmission notice and opens its link; at the notice it opens it (R402). -/
def AdmissionEvents : Prop :=
  ∀ (s : State) (f : Flit) (d : BitVec 2),
    let v := s.ev.tile
    let n := s.ev.id
    let held := ((s.trellisAt v).admits.filter fun h => h.subject = f.subject && h.by_ ≠ f.sender && s.votes v h.by_).length +
      (if s.votes v f.sender then 1 else 0)
    s.flits[n]? = some f → f.dest = v → heard s v f → neighbour v d = f.subject → (s.vote v d).linkFenced = true →
      (f.kind = 4 → (s.trellisAt f.subject).probation = none → ∃ u, leads .admissionReceive s u ∧
        u = { s with flits := s.flits.eraseIdx n ++ forwarded s v f }) ∧
      (f.kind = 4 → (s.trellisAt f.subject).probation ≠ none → ∃ u, leads .admissionReceive s u ∧
        if max 2 (s.voters v f.subject / 2 + 1) ≤ held then
          u.vote v d = Vote.fresh ∧ u.flits = s.flits.eraseIdx n ++ forwarded s v f ++ ringFlits s v f.subject 5 ∧
            u.mring = s.mring ++ [noticeOf s v 2 f.subject]
        else u.flits = s.flits.eraseIdx n ++ forwarded s v f ∧ (⟨f.subject, f.sender, s.refClk⟩ : Held) ∈ (u.trellisAt v).admits ∧
          (u.vote v d).linkFenced = true) ∧
      (f.kind = 5 → ∃ u, leads .readmissionNoticeReceive s u ∧ u.flits = s.flits.eraseIdx n ++ forwarded s v f ∧ u.vote v d = Vote.fresh ∧
        (u.trellisAt v).noticed f.subject = false)

/-! ### Repair, temperature, boot and reports -/

/-- A repair of a row of this package begins with a quiesce of 200 us of its channel, or waits while a channel of its stack is quiesced; with the bank's one
spare row for soft repairs taken, none begins (R15, R405, R406). -/
def repairBegins (s u : State) (row : BitVec 45) : Prop :=
  let stack : BitVec 9 := BitVec.ofNat 9 (row.toNat / 2 ^ 36)
  let local_ := row.toNat / 2 ^ 39 = Config.pkgId.toNat
  let channel : BitVec 5 := BitVec.ofNat 5 (row.toNat / 2 ^ 8) ^^^ BitVec.ofNat 5 (row.toNat / 2 ^ 16)
  (¬ local_ ∨ s.spareTaken row = true → u.quiesces = s.quiesces ∧ u.repairQ = s.repairQ) ∧
    (local_ → s.spareTaken row = false →
      ((∀ q ∈ s.quiesces, q.stack ≠ stack) → u.quiesces = s.quiesces ++ [⟨stack, channel, s.refClk + 20000, row, []⟩]) ∧
        ((∃ q ∈ s.quiesces, q.stack = stack) → u.quiesces = s.quiesces ∧ row ∈ u.repairQ))

/-- CORRECTED_ERROR counts a row's errors within 24 h; the eighth begins its repair. QUIESCE_END performs the first held write or unpin, drops an
access that nobody awaits and leaves others their step; with none left it records the row for a hard repair (R405, R406). -/
def RepairEvents : Prop :=
  ∀ (s : State),
    let row : BitVec 45 := s.ev.addr.setWidth 45
    let old := match s.rows.find? fun r => r.row = row with | some r => r.times | none => []
    let recent := old.filter fun a => s.refClk < a + 8640000000000
    (recent.length < 7 → ∃ u, leads .correctedError s u ∧ (∃ r ∈ u.rows, r.row = row ∧ r.times = recent ++ [s.refClk]) ∧
      u.quiesces = s.quiesces ∧ (∀ r, r.row ≠ row → (r ∈ u.rows ↔ r ∈ s.rows)) ∧ u.mem = s.mem) ∧
    (7 ≤ recent.length → ∃ u, leads .correctedError s u ∧ repairBegins s u row ∧ (∀ r ∈ u.rows, r.row ≠ row) ∧ u.mem = s.mem) ∧
    ∀ q, s.quiesces[s.ev.id]? = some q →
      (s.refClk < q.until_ → leads .quiesceEnd s s) ∧
      (q.until_ ≤ s.refClk → Memory.wf s.mem = true →
        (q.held = [] → (∀ r ∈ s.repairQ, BitVec.ofNat 9 (r.toNat / 2 ^ 36) ≠ q.stack) → ∃ u, leads .quiesceEnd s u ∧
          u.quiesces = s.quiesces.eraseIdx s.ev.id ∧ u.softDone = s.softDone ++ [q.row] ∧ u.repairQ = s.repairQ ∧ u.mem = s.mem ∧
          u.repairs = if s.repairs.contains q.row then s.repairs else s.repairs ++ [q.row]) ∧
        ∀ k l, q.held = k :: l →
          (∀ c pa bs, k = .write c pa bs → s.stalls pa.toNat = false → ∃ u, leads .quiesceEnd s u ∧ u.quiesces = (s.leaveHeld k).quiesces ∧
            wroteAt s u pa.toNat bs.length fun j => bs.getD j 0) ∧
          (∀ pa, k = .unpin pa → s.stalls pa.toNat = false → ∃ u, leads .quiesceEnd s u ∧ u.quiesces = (s.leaveHeld k).quiesces ∧
            (let w := Memory.readLE s.mem pa.toNat 4
             wroteAt s u pa.toNat 4 (numByte (if w % 65536 = 0 then w else w - 1)))) ∧
          ((∀ c pa bs, k ≠ .write c pa bs) → (∀ pa, k ≠ .unpin pa) → leads .quiesceEnd s (if s.keyLive k then s else s.leaveHeld k)))

/-- UNCORRECTABLE_ERROR poisons the granule, with a record of kind 8 and a repair; or the scratchpad line; or marks a line of a register,
accumulator, FIFO or instruction store; or a duplicate set (R380, R381, R385, R405). A home on another package records it there (R15). -/
def UncorrectableEvent : Prop :=
  ∀ (s : State),
    let g := s.ev.addr.toNat % 2 ^ 45 / 64 * 64
    let l := s.ev.addr.toNat % 0x200000 / 64 * 64
    let t := s.ev.tile
    let c := s.coreAt t
    let f := s.rings.read (homeDie g)
    (s.ev.count = 0 → g / 2 ^ 39 ≠ Config.pkgId.toNat → ∃ u, leads .uncorrectableError s u ∧ g ∈ u.poison ∧ u.rings = s.rings ∧
      u.recWait = s.recWait ∧ u.quiesces = s.quiesces ∧ u.mem = s.mem) ∧
    (s.ev.count = 0 → g / 2 ^ 39 = Config.pkgId.toNat → ringRoom s (homeDie g) → Memory.wf s.mem = true → ∃ u r, leads .uncorrectableError s u ∧
      (f.base.toNat + 64 * (f.prod.toNat % f.cap.toNat) ≠ g → g ∈ u.poison) ∧
      recordSays r 8 0 0 (BitVec.ofNat 64 g) 0 ∧ u.rings = s.rings.write (homeDie g) { f with prod := f.prod + 1, irq := true } ∧
      (s.quiesces = [] → repairBegins s u (BitVec.ofNat 45 g) ∧ recordPostedAt s u (homeDie g) r)) ∧
    (s.ev.count = 1 → ∃ u, leads .uncorrectableError s u ∧ (u.coreAt t).spad = c.spad ∧ (∀ n, 0 < n → n ≤ 64 → (u.coreAt t).spadPoisoned l n = true) ∧
      ∀ p ∈ c.spadPoison, p.1 ≠ l → p ∈ (u.coreAt t).spadPoison) ∧
    (s.ev.count = 2 → ∃ u, leads .uncorrectableError s u ∧
      (let x := u.coreAt t
       c = { x with linePoison := c.linePoison, fa := c.fa, fb := c.fb } ∧
        (s.ev.port = 10 → ∀ l, c.fa.held[s.ev.id]? = some l → x.fa.held[s.ev.id]? = some { l with bad := true }) ∧
        (s.ev.port = 11 → ∀ l, c.fb.held[s.ev.id]? = some l → x.fb.held[s.ev.id]? = some { l with bad := true }) ∧
        (∀ p, lineOf s.ev.port.toNat s.ev.ctx s.ev.id = some p → p ∈ x.linePoison))) ∧
    (3 ≤ s.ev.count → ∃ u, leads .uncorrectableError s u ∧ u.coreAt t = { c with dupPoison := (u.coreAt t).dupPoison } ∧
      ∀ n : BitVec 2, n.toNat < 3 → (u.coreAt t).dupBad n = (c.dupBad n || decide (n = s.ev.ctx ∨ (n = 2 ∧ s.ev.ctx = 3))))

/-- The word of a sensor says VALID, its LEVEL for its temperature in units of 0.125 degrees, and zero in the reserved bits (R408). -/
def sensorWord (case_ : Bool) (w : BitVec 32) : Prop :=
  let t := (w.extractLsb' 0 12).toInt + if case_ then 80 else 0
  w.getLsbD 31 = true ∧ w.extractLsb' 28 3 = 0 ∧ w.extractLsb' 12 14 = 0 ∧
    (w.extractLsb' 26 2).toNat = if 115 * 8 ≤ t then 3 else if 105 * 8 ≤ t then 2 else if 95 * 8 ≤ t then 1 else 0

/-- THS_CONVERSION, each 10 us: nine readings, of free temperatures. LEVEL 3 trips the package: all members killed, the dies in reset (R408,
R411). -/
def ConversionEvent : Prop :=
  ∀ (s : State),
    let d := s.ev.die
    let bound := fun t => bindState (s.bind t) = 2 ∨ bindState (s.bind t) = 3 ∨ bindState (s.bind t) = 4
    (s.refClk / 1000 ≤ s.convDone.read d → leads .thsConversion s s) ∧
    (s.convDone.read d < s.refClk / 1000 → s.tripped = false → ∃ u l, leads .thsConversion s u ∧ u.ths = s.ths.write d l ∧ l.length = 9 ∧
      (∀ n w, l[n]? = some w → sensorWord (decide (n = 8)) w) ∧ u.convDone.read d = s.convDone.read d + 1 ∧
      ((∃ w ∈ l.take 8, 2 ≤ (w.extractLsb' 26 2).toNat) → u.throttled.read d = true) ∧
      if (∃ w ∈ l, w.extractLsb' 26 2 = 3) then u.tripped = true ∧ u.boot = .inReset ∧ ∀ t, bound t → (u.coreAt t).bound = false
      else u.tripped = false ∧ u.boot = s.boot ∧ u.binds = s.binds)

/-- THROTTLE_STEP, each 10 us: a throttled die's clock falls by 100 MHz, to 650 at least, until every junction is below 103 degrees; it rises
while all nine sensors read below 100 (R409). -/
def ThrottleEvent : Prop :=
  ∀ (s : State),
    let d := s.ev.die
    let all := s.ths.read d
    let l := all.take 8
    let m := s.mhz.read d
    (s.refClk / 1000 ≤ s.stepDone.read d → leads .throttleStep s s) ∧
    (s.stepDone.read d < s.refClk / 1000 → ∃ u, leads .throttleStep s u ∧ u.mem = s.mem ∧ u.core = s.core ∧
      (∀ k, k ≠ d → u.mhz.read k = s.mhz.read k) ∧
      (s.throttled.read d = true → (∃ w ∈ l, 103 * 8 ≤ (w.extractLsb' 0 12).toInt) → u.mhz.read d = max 650 (m - 100) ∧ u.throttled.read d = true) ∧
      (s.throttled.read d = true → (∀ w ∈ l, (w.extractLsb' 0 12).toInt < 103 * 8) → (∃ w ∈ all, 100 * 8 ≤ (w.extractLsb' 0 12).toInt) →
        u.mhz.read d = m ∧ u.throttled.read d = false) ∧
      ((∀ w ∈ all, (w.extractLsb' 0 12).toInt < 100 * 8) → u.mhz.read d = min 1300 (m + 100) ∧ u.throttled.read d = false) ∧
      (s.throttled.read d = false → (∃ w ∈ all, 100 * 8 ≤ (w.extractLsb' 0 12).toInt) → u.mhz.read d = m))

/-- POWER_PAGE_UPDATE, each 100 us: all 16 bytes at ARG of the record at queue 63's head: TARGET is 0 while a sensor reads LEVEL 1 or higher,
STAMP is the reference clock, NOW is free; behind an unperformed access of the service core it waits (R263, R333, R412). Its place and what an
illegal TARGET shows are the model's choice (assumption log 115). -/
def PowerPageEvent : Prop :=
  ∀ (s : State),
    let warm := ∃ d : BitVec 2, ∃ w ∈ s.ths.read d, 1 ≤ (w.extractLsb' 26 2).toNat
    let due := decide (s.pageDone < s.refClk / 10000)
    (s.ev.ticket = 0 → due = false → leads .powerPageUpdate s s) ∧
    let next := s.pageDone + if s.ev.ticket = 0 then 1 else 0
    ((s.ev.ticket ≠ 0 ∨ due = true) → s.ctlPending 4 = true → ∃ u, leads .powerPageUpdate s u ∧ u.mem = s.mem ∧ u.pageDone = next ∧
      u.inputs.length = s.inputs.length + 1) ∧
    (due = true → s.ev.ticket = 0 → s.ctlPending 4 = false → s.powerPage = .none → leads .powerPageUpdate s { s.outsideDone with pageDone := next }) ∧
    (∀ pa, (s.ev.ticket ≠ 0 ∨ due = true) → s.ctlPending 4 = false → s.powerPage = .held pa → ∃ u, leads .powerPageUpdate s u ∧ u.mem = s.mem ∧ u.pageDone = next ∧
      u.inputs.length = s.inputs.length + 1) ∧
    ∀ pa leaf, (s.ev.ticket ≠ 0 ∨ due = true) → s.ctlPending 4 = false → s.powerPage = .ok pa leaf → Memory.wf s.mem = true →
      ∃ u target, ∃ now : BitVec 32, leads .powerPageUpdate s u ∧ u.pageDone = next ∧ (warm ∨ s.powerTarget.toNat < 600 → target = 0) ∧
        (¬ warm → 600 ≤ s.powerTarget.toNat → target = min 1800 s.powerTarget.toNat) ∧
        wroteAt s u pa 16 fun j => if j < 4 then numByte target j else if j < 8 then byteOf now (j - 4) else numByte s.refClk (j - 8)

/-- PACKAGE_RESET: when every check of the boot passes, each tile is free or fused off and no fence, strike, digest entry or active region
is left; the first check that fails halts it, with stage and reason on the management ring and on Ethernet port 0. Device memory stays, the
model's choice (assumption log 46) (R403, R413). -/
def ResetEvent : Prop :=
  ∀ (s : State), ∃ u, leads .packageReset s u ∧ u.mem = s.mem ∧ u.core.bound = false ∧ u.digests = [] ∧ u.refClk = 0 ∧
    (∀ k, (Region.ofBits (u.regions.read k)).state = 0) ∧
    ((∀ c ∈ bootChecks, c.2.2 = true) → u.boot = .done ∧ u.out = s.out ∧ ∀ t,
      (u.map.read t).fused = Config.fusedQuad (quadOf t) ∧ (u.map.read t).fenced = false ∧ (u.map.read t).strikes = [] ∧
      (bindState (u.bind t) = if Config.fusedQuad (quadOf t) then 5 else 0) ∧
      ∀ d, Config.fusedQuad (quadOf t) = false → Config.fusedQuad (quadOf (neighbour t d)) = false → Config.silent t 0 = false →
        ∃ f ∈ u.flits, f.dest = neighbour t d ∧ f.sender = t ∧ f.kind = 0) ∧
    (flashLE 0 4 ≠ 0x4D584C50 → u.boot = .halted 1 .magic ∧ u.out = s.out ++ [.bootHalt false 1 .magic, .bootHalt true 1 .magic]) ∧
    (∀ l c r, bootChecks = l ++ c :: r → (∀ k ∈ l, k.2.2 = true) → c.2.2 = false → u.boot = .halted c.1 c.2.1 ∧
      u.out = s.out ++ [.bootHalt false c.1 c.2.1, .bootHalt true c.1 c.2.1])

/-- ATTESTATION_REQUEST: the report holds nonce, serial, package, fuse and stack maps, lanes, repairs, measurement chain and a signature over its
digest. POST_FATAL_DUMP copies the buffer's rest to the dump area, sends it and frees it; behind a held service-core access it waits (R263, R415,
R416). -/
def ReportEvents : Prop :=
  ∀ (s : State),
    let d := s.ev.die
    let b := s.dumps.read d
    (s.boot ≠ .done → leads .attestationRequest s s) ∧
    (s.boot = .done → s.chain.length = 6 → ∃ r : List Byte, r.length = 512 ∧
      (let sig := Config.falconSign (Config.shake256 r)
       leads .attestationRequest s { s with out := s.out ++ [.report (r ++ leBytes 2 sig.length ++ sig) sig] }) ∧
      (∀ j, j < 32 → r.getD j 0 = byteOf s.ev.value j) ∧ (∀ j, j < 8 → r.getD (32 + j) 0 = byteOf Config.serial j) ∧
      (r.getD 40 0).toNat = Config.pkgId.toNat ∧
      (∀ q, q < 32 → (r.getD (42 + q / 8) 0).getLsbD (q % 8) = Config.fusedQuad (BitVec.ofNat 5 q)) ∧
      (∀ k, k < 8 → (r.getD 46 0).getLsbD k = Config.stackPresent Config.pkgId (BitVec.ofNat 3 k)) ∧
      (∀ p, p < 12 → r.getD (47 + p) 0 = (s.ports.read (BitVec.ofNat 4 p)).lanes.setWidth 8) ∧ r.getD 59 0 = 0 ∧
      (∀ j, j < 4 → r.getD (60 + j) 0 = numByte s.hardDone j) ∧
      (∀ i m, s.chain[i]? = some m → ∀ j, j < 64 → r.getD (64 + 64 * i + j) 0 = byteOf m j) ∧ ∀ j, 448 ≤ j → r.getD j 0 = 0) ∧
    (b.busy = false → leads .postFatalDump s s) ∧
    (b.busy = true → s.ctlPending 4 = true → ∃ u, leads .postFatalDump s u ∧ u.mem = s.mem ∧ u.out = s.out ∧ (u.dumps.read d).busy = true ∧
      (u.dumps.read d).bytes = b.bytes) ∧
    (b.busy = true → s.ctlPending 4 = false → (b.copied % 64 = 0 ∨ b.bytes.length ≤ b.copied) → s.quiesces = [] → (∀ x, s.dumpArea.toNat ≤ x → x < s.dumpArea.toNat + b.bytes.length → s.stalls x = false) → Memory.wf s.mem = true → ∃ u, leads .postFatalDump s u ∧ u.out = s.out ++ [.dump d b.bytes] ∧
      (u.dumps.read d).busy = false ∧ wroteAt s u (s.dumpArea.toNat + b.copied) (b.bytes.length - b.copied) fun j => b.bytes.getD (b.copied + j) 0)

end Sys2Proof.Claims

open Sys2Proof.Claims

/-- Worked encodings decode to the instructions they stand for. -/
def Obligations.WorkedWordsDecode : Prop := DecodeWords

/-- Decoding the encoding of a well-formed instruction gives it back. -/
def Obligations.EncodingRoundTrip : Prop := EncodeDecode

/-- What decodes is well formed. -/
def Obligations.DecodedIsWellFormed : Prop := DecodedWellFormed

/-- A step whose bundle nothing holds runs the decoded slots in order. The model's own readings and choices in it: the M slot comes after
the C slots, so that a DRAIN sees its accumulator as it stood before the bundle (assumption log 128). -/
def Obligations.StepRunsBundle : Prop := StepRunsDecoded

/-- The state right after reset, with the values the model chose by assumption log 1 and 2. -/
def Obligations.ResetState : Prop := ResetValues ∧ ResetMemories

/-- Every step keeps device memory and every scratchpad in canonical form. -/
def Obligations.StepKeepsMemoryForm : Prop := StepKeepsMemories

/-- No step faults and none is refused. -/
def Obligations.StepsNeverStop : Prop := StepGoes

/-- No slot instruction that does not trap writes device memory or another core. -/
def Obligations.SlotsLeaveDeviceMemory : Prop := NoSlotWritesDevice

/-- A false guard leaves the state as it is. -/
def Obligations.FalseGuardChangesNothing : Prop := FalseGuard

/-- A fatal trap kills the member. The model's own readings and choices in it: the units in hand of a killed member's commands land
(assumption log 102). -/
def Obligations.FatalTrapEntry : Prop := FatalTrap

/-- A freeze halts the core and posts its record; the class and code of each cause. -/
def Obligations.FreezeTrapEntry : Prop := FreezeTrap ∧ TrapCauses

/-- A rollback event stops its context, or kills the member. The model's own readings and choices in it: the units in hand of a killed
member's commands land (assumption log 102). -/
def Obligations.RollbackTrapEntry : Prop := RollbackTrap ∧ RollbackStops

/-- The return from a rollback restores the duplicate set. The model's own readings and choices in it: what RELC has recorded since the
last checkpoint is undone (assumption log 101). -/
def Obligations.RollbackReturn : Prop := RollbackRestores

/-- Checkpoints: what the forms record and what taking one does. The model's own readings and choices in it: a checkpoint keeps what RELC
has recorded (assumption log 101). -/
def Obligations.CheckpointsTaken : Prop := CheckpointForms ∧ CheckpointTaken

/-- Integer results, and division with its borderline cases. -/
def Obligations.IntegerAndDivision : Prop := IntegerResult ∧ DivisionResult

/-- Bit fields, immediate forms and SEL. -/
def Obligations.FieldsImmediatesSelect : Prop := BitFieldResult ∧ ImmediateResult ∧ SelectResult

/-- Integer compares, predicate logic and branch-target writes. -/
def Obligations.ComparesAndPredicates : Prop := CompareResult ∧ PredicateLogic ∧ BranchTargetWrite

/-- What each special register reads. -/
def Obligations.SpecialRegisterReads : Prop := SpecialRead

/-- What MTS and SETEF write and when. The model's own readings and choices in it: bit 2 of a SETEF value is ignored (assumption log 12);
in inline mode SETEF and MTS are allowed to the callee (assumption log 31). -/
def Obligations.SpecialRegisterWrites : Prop := SpecialWrite ∧ SetEngineFormat ∧ EngineFormatTiming

/-- Scalar floating-point arithmetic rounds the exact result and raises its flags. -/
def Obligations.ScalarFloat : Prop := ScalarFloatArithmetic

/-- Scalar floating-point minima, maxima and compares. -/
def Obligations.ScalarFloatPicks : Prop := ScalarFloatMinMax ∧ ScalarFloatCompare

/-- FCVT, and the round trip of every T8 code. -/
def Obligations.ScalarConversions : Prop := ScalarConvert ∧ TaperedRoundTrip

/-- Forms without effect, software checks and software traps. -/
def Obligations.IdleAndTrapForms : Prop := IdleForms ∧ SoftwareCheck ∧ SoftwareTraps

/-- Branches, trees, calls, returns and bucket selects. -/
def Obligations.ControlTransfers : Prop := Transfers ∧ BucketSelect

/-- Forms that a tail may not issue, and when they trap. -/
def Obligations.MainOnlyForms : Prop := MainContextOnly ∧ MainContextSlots

/-- Loops open, go back, end, and yield to transfers. -/
def Obligations.LoopForms : Prop := LoopOpens ∧ LoopEnds ∧ TransfersAndLoops

/-- RELC to a tail, by the model's reading of assumption log 17, and in inline mode. The model's own readings and choices in it: what RELC
hands on are the registers after the other slots of its bundle (assumption log 17); the offset is unsigned (assumption log 18). -/
def Obligations.ReleasedCallers : Prop := ReleaseToTail ∧ ReleaseInline

/-- FJOIN and TEND, in a tail and in inline mode. The model's own readings and choices in it: FJOIN of a running tail is no wait in which
R327 pre-empts a member (assumption log 84). -/
def Obligations.JoinsAndEnds : Prop := JoinTail ∧ TailEnds ∧ InlineEnds

/-- LDS and STS. -/
def Obligations.ScalarScratchpad : Prop := ScratchpadLoad ∧ ScratchpadStore

/-- VLD and VST under each layout. -/
def Obligations.VectorScratchpad : Prop := VectorScratchpadLoad ∧ VectorScratchpadStore

/-- Quad-window accesses, and where scratchpad accesses trap. The model's own readings and choices in it: ALIGN is taken before
SPAD_RANGE, FENCED and PROT (assumption log 29). -/
def Obligations.WindowsAndScratchpadTraps : Prop := WindowAccesses ∧ ScratchpadTraps

/-- Gather and scatter in the local scratchpad. -/
def Obligations.LocalGatherScatter : Prop := GatherLocal ∧ ScatterLocal

/-- Device loads become requests and count on their counter. The model's own readings and choices in it: the bytes of withheld stores are
forwarded at issue (assumption log 106). -/
def Obligations.DeviceLoadForms : Prop := DeviceLoads

/-- Device stores are withheld in the partition. -/
def Obligations.DeviceStoreForms : Prop := DeviceStores ∧ WithheldBytes

/-- Indexed device accesses and vector atomics. -/
def Obligations.IndexedAndVectorAtomics : Prop := IndexedDevice ∧ VectorAtomic

/-- Irrevocable operations go out after their checkpoint; launch requests. The model's own readings and choices in it: a second
irrevocable bundle is held until the first has had its second checkpoint (assumption log 27); TRIGGER's first checkpoint is one of every
running context (assumption log 87). -/
def Obligations.IrrevocableForms : Prop := IrrevocableOperations ∧ LaunchRequests

/-- OCREAD with its cache, and digest queries. The model's own readings and choices in it: a hit of the once-cache is no access to a
shared-consistent page (assumption log 105); ALIGN is taken before SPAD_RANGE (assumption log 29). -/
def Obligations.OnceReadsAndQueries : Prop := OnceRead ∧ DigestRequests

/-- Waits hold until what they name has come; mark instructions. -/
def Obligations.WaitsAndMarks : Prop := WaitInstructions ∧ MarkInstructions

/-- Fences and barriers. The model's own readings and choices in it: BARW with no arrival pending reports the poison of the last arrival's
phase (assumption log 34); which requests of a CFENCE's own bundle come before it (assumption log 104). -/
def Obligations.FencesAndBarriers : Prop := Fences ∧ Barriers

/-- Lane arithmetic, per format, mask and rounding mode. The model's own readings and choices in it: VEXP2 and VLOG2 round the function
evaluated to 448 bits (assumption log 9); VFMA and VFMS check the tag of vd (assumption log 24); operands of class T take TAG_MISMATCH
(assumption log 86). -/
def Obligations.VectorArithmeticForms : Prop := VectorArithmetic

/-- Lane logic, shifts, permutations, moves and table reads. -/
def Obligations.VectorPlainAndMoves : Prop := VectorPlain ∧ VectorMoves

/-- Vector conversions, scaling and quantisation. The model's own readings and choices in it: TRDR draws from SEED (assumption log 25); a
converting TRDR or TRDC substitutes the reserved code (assumption log 119); an E8M0 scale into FP16 draws nothing and rounds to nearest
even in the stochastic mode (assumption log 30). -/
def Obligations.VectorConversionForms : Prop := VectorConversions

/-- Reductions and scans over the active lanes. -/
def Obligations.ReductionsAndScans : Prop := VectorReductions ∧ VectorScans

/-- Vector compares, lane-mask logic, moves to scalars, tile writes and vector checks. -/
def Obligations.MasksTilesChecks : Prop := VectorCompare ∧ LaneMaskLogic ∧ VectorToScalar ∧ TileWrites ∧ VectorChecks

/-- Matrix multiplies and flushes enter the queue with their timing. -/
def Obligations.MatrixQueueing : Prop := MatrixMultiply ∧ MatrixFlush

/-- Accumulator writes and reads. The model's own readings and choices in it: MPUSH judges at issue whether its accumulator is empty
(assumption log 38). -/
def Obligations.AccumulatorMoves : Prop := AccumulatorWrites ∧ AccumulatorReads

/-- Descriptor and mark-set writes, and engine commands entering a queue. The model's own readings and choices in it: DLD takes ALIGN
before SPAD_RANGE (assumption log 29); LSEND is held while an irrevocable bundle is between its checkpoints (assumption log 27). -/
def Obligations.DescriptorsAndCommands : Prop := DescriptorWrites ∧ EngineCommands

/-- Which context issues next, late records, and a wait that is pre-empted. -/
def Obligations.CoreEvents : Prop := PickContextEvent ∧ LateEvents ∧ WaitPreemptionEvent

/-- Engine commands start, move data and complete; feed lines and multicasts arrive. The model's own readings and choices in it: the units
of a command move one at a time, in the order of its walk (assumption log 35); the unit in hand of a frozen core goes on to its end
(assumption log 102). -/
def Obligations.EngineEvents : Prop := EngineStartEvent ∧ UnitBytesEvent ∧ EngineCompleteEvent ∧ FeedLineEvent ∧ MulticastEvent

/-- Matrix steps, accumulator commits and flushes. The model's own readings and choices in it: an MPUSH that found its accumulator empty
zeroes the rest when it commits (assumption log 38); an MMAS takes both stored k-steps at the first k of the group (assumption log 37). -/
def Obligations.MatrixEvents : Prop := MatrixStepEvent ∧ CommitEvents ∧ FlushEvent

/-- Requests perform at home or at a peer, and replies write their destinations. The model's own readings and choices in it: KVAPP goes on
in small steps (assumption log 48); a load performs at home and writes its register in one step (assumption log 13); an NSEQ above 255
(assumption log 92). -/
def Obligations.RequestEvents : Prop := ReplyEvent ∧ LoadEvent ∧ GatherEvent ∧ QueryEvent ∧ AtomEvent ∧ WindowEvent ∧ HomeWriteEvents ∧ KvappEvent

/-- Once-cells, work queues, launch pushes and barriers at home. The model's own readings and choices in it: work-queue items are walked
at the header's home (assumption log 49); a misaligned RING is used as it stands (assumption log 91). -/
def Obligations.CellQueueBarrierEvents : Prop := OnceEvent ∧ WorkQueueEvent ∧ QpushEvent ∧ BarrierEvent

/-- Walks, their resolution, invalidations, and the registers of firmware, whose numbers are the model's choice (assumption log 22). The
model's own readings and choices in it: XINV drops its range at its start and again at its end (assumption log 51); a legal write of
KVTSCFG while BUSY is set takes effect (assumption log 50); a POPW.b that waits is translated again (assumption log 130). -/
def Obligations.TranslationEvents : Prop := WalkEvent ∧ FirmwareRingEvents ∧ InvalidationEvents ∧ FirmwarePoolEvents ∧ RegisterWriteEvent

/-- Heads are checked, offered, returned, skipped and bound. The model's own readings and choices in it: SKIPHEAD of an empty queue reads
FAIL (assumption log 110); poisoned records and counts (assumption log 121); what a bind-record write that leaves STATE may change
(assumption log 111). -/
def Obligations.LaunchEvents : Prop := HeadEvents ∧ OfferEvents ∧ ReturnEvents ∧ BindEvent

/-- Gangs bind, members are created, end, are saved and restored. The model's own readings and choices in it: a bind that the core refuses
ends its whole team, and what a gang commits (assumption log 54); the bytes of a context area (assumption log 56); the units in hand of a
killed member's commands land (assumption log 102); an ENTRY beyond the instruction store (assumption log 96). -/
def Obligations.MemberEvents : Prop := GangEvent ∧ CreationEvent ∧ EndEvents ∧ SaveEvents ∧ RestoreEvent

/-- Digest regions, errors of entries, and remote accesses. The model's own readings and choices in it: an RDMA write performs in one step
(assumption log 108); an RDMA access to poisoned data is answered by an error (assumption log 109); SUM of a block that holds non-finite
elements (assumption log 16); which zero is a bound (assumption log 113). -/
def Obligations.DigestRegionRdmaEvents : Prop := RegionEvents ∧ EntryErrorEvent ∧ RdmaEvents

/-- Pod-link pairs, ports and retransmission. The model's own readings and choices in it: LANES reads 0 at a port that is down or
training, and the 1 ms of retraining is any 1 ms (assumption log 100). -/
def Obligations.PodLinkEvents : Prop := LinkPairEvent ∧ LinkAddEvent ∧ UnitBytesEvent ∧ LinkPortEvents ∧ RetransmitEvents

/-- Heartbeats, periods and suspicion. The model's own readings and choices in it: the direction of a watch record is seen from its
subject (assumption log 60). -/
def Obligations.HeartbeatEvents : Prop := HeartbeatSendEvent ∧ HeartbeatReceiveEvents ∧ PeriodEndEvents ∧ BabbleClearEvent

/-- Accusations, quorum, fences, self-test, appeal and readmission. The model's own readings and choices in it: the direction of a watch
record is seen from its subject (assumption log 60). -/
def Obligations.FencingEvents : Prop := AccusationEvents ∧ QuorumEvent ∧ FenceEvents ∧ AppealEvents ∧ AdmissionEvents

/-- Repair, poison, temperature, throttle, power page, reset and boot, attestation and dumps; memory across reset is the model's choice
(assumption log 46). The model's own readings and choices in it: THS8 trips at 105.0 degrees exactly (assumption log 61); row and bank
names (assumption log 62). -/
def Obligations.ReliabilityEvents : Prop := RepairEvents ∧ UncorrectableEvent ∧ ConversionEvent ∧ ThrottleEvent ∧ PowerPageEvent ∧ ResetEvent ∧ ReportEvents
end

