-- ==== Sys2Proof/Laws/State.lean ====
section
/-!
SUPPORT. What each update of the state leaves in each field: one lemma per field per update.
-/
namespace Sys2Proof.Machine

variable (s : State) (c : Core)

/-! ## The focused core changes -/

@[simp] theorem State.mapCore_inputs (f : Core → Core) : (s.mapCore f).inputs = s.inputs := rfl
@[simp] theorem State.mapCore_ev (f : Core → Core) : (s.mapCore f).ev = s.ev := rfl
@[simp] theorem State.mapCore_choiceCtr (f : Core → Core) : (s.mapCore f).choiceCtr = s.choiceCtr := rfl
@[simp] theorem State.mapCore_freeCtr (f : Core → Core) : (s.mapCore f).freeCtr = s.freeCtr := rfl
@[simp] theorem State.mapCore_coreTile (f : Core → Core) : (s.mapCore f).coreTile = s.coreTile := rfl
@[simp] theorem State.mapCore_core (f : Core → Core) : (s.mapCore f).core = f s.core := rfl
@[simp] theorem State.mapCore_parked (f : Core → Core) : (s.mapCore f).parked = s.parked := rfl
@[simp] theorem State.mapCore_mem (f : Core → Core) : (s.mapCore f).mem = s.mem := rfl
@[simp] theorem State.mapCore_poison (f : Core → Core) : (s.mapCore f).poison = s.poison := rfl
@[simp] theorem State.mapCore_lltlb (f : Core → Core) : (s.mapCore f).lltlb = s.lltlb := rfl
@[simp] theorem State.mapCore_walks (f : Core → Core) : (s.mapCore f).walks = s.walks := rfl
@[simp] theorem State.mapCore_nextWalk (f : Core → Core) : (s.mapCore f).nextWalk = s.nextWalk := rfl
@[simp] theorem State.mapCore_nextToken (f : Core → Core) : (s.mapCore f).nextToken = s.nextToken := rfl
@[simp] theorem State.mapCore_rings (f : Core → Core) : (s.mapCore f).rings = s.rings := rfl
@[simp] theorem State.mapCore_recWait (f : Core → Core) : (s.mapCore f).recWait = s.recWait := rfl
@[simp] theorem State.mapCore_astBase (f : Core → Core) : (s.mapCore f).astBase = s.astBase := rfl
@[simp] theorem State.mapCore_qtBase (f : Core → Core) : (s.mapCore f).qtBase = s.qtBase := rfl
@[simp] theorem State.mapCore_xinv (f : Core → Core) : (s.mapCore f).xinv = s.xinv := rfl
@[simp] theorem State.mapCore_pools (f : Core → Core) : (s.mapCore f).pools = s.pools := rfl
@[simp] theorem State.mapCore_kvRes (f : Core → Core) : (s.mapCore f).kvRes = s.kvRes := rfl
@[simp] theorem State.mapCore_kvts (f : Core → Core) : (s.mapCore f).kvts = s.kvts := rfl
@[simp] theorem State.mapCore_kvtsOld (f : Core → Core) : (s.mapCore f).kvtsOld = s.kvtsOld := rfl
@[simp] theorem State.mapCore_lastQ (f : Core → Core) : (s.mapCore f).lastQ = s.lastQ := rfl
@[simp] theorem State.mapCore_queues (f : Core → Core) : (s.mapCore f).queues = s.queues := rfl
@[simp] theorem State.mapCore_gangFail (f : Core → Core) : (s.mapCore f).gangFail = s.gangFail := rfl
@[simp] theorem State.mapCore_skipFail (f : Core → Core) : (s.mapCore f).skipFail = s.skipFail := rfl
@[simp] theorem State.mapCore_binds (f : Core → Core) : (s.mapCore f).binds = s.binds := rfl
@[simp] theorem State.mapCore_gangs (f : Core → Core) : (s.mapCore f).gangs = s.gangs := rfl
@[simp] theorem State.mapCore_barriers (f : Core → Core) : (s.mapCore f).barriers = s.barriers := rfl
@[simp] theorem State.mapCore_isflush (f : Core → Core) : (s.mapCore f).isflush = s.isflush := rfl
@[simp] theorem State.mapCore_waiters (f : Core → Core) : (s.mapCore f).waiters = s.waiters := rfl
@[simp] theorem State.mapCore_arrivals (f : Core → Core) : (s.mapCore f).arrivals = s.arrivals := rfl
@[simp] theorem State.mapCore_regions (f : Core → Core) : (s.mapCore f).regions = s.regions := rfl
@[simp] theorem State.mapCore_scanning (f : Core → Core) : (s.mapCore f).scanning = s.scanning := rfl
@[simp] theorem State.mapCore_digests (f : Core → Core) : (s.mapCore f).digests = s.digests := rfl
@[simp] theorem State.mapCore_trellis (f : Core → Core) : (s.mapCore f).trellis = s.trellis := rfl
@[simp] theorem State.mapCore_map (f : Core → Core) : (s.mapCore f).map = s.map := rfl
@[simp] theorem State.mapCore_flits (f : Core → Core) : (s.mapCore f).flits = s.flits := rfl
@[simp] theorem State.mapCore_mring (f : Core → Core) : (s.mapCore f).mring = s.mring := rfl
@[simp] theorem State.mapCore_refClk (f : Core → Core) : (s.mapCore f).refClk = s.refClk := rfl
@[simp] theorem State.mapCore_clkAcc (f : Core → Core) : (s.mapCore f).clkAcc = s.clkAcc := rfl
@[simp] theorem State.mapCore_mhz (f : Core → Core) : (s.mapCore f).mhz = s.mhz := rfl
@[simp] theorem State.mapCore_ths (f : Core → Core) : (s.mapCore f).ths = s.ths := rfl
@[simp] theorem State.mapCore_throttled (f : Core → Core) : (s.mapCore f).throttled = s.throttled := rfl
@[simp] theorem State.mapCore_convDone (f : Core → Core) : (s.mapCore f).convDone = s.convDone := rfl
@[simp] theorem State.mapCore_stepDone (f : Core → Core) : (s.mapCore f).stepDone = s.stepDone := rfl
@[simp] theorem State.mapCore_pageDone (f : Core → Core) : (s.mapCore f).pageDone = s.pageDone := rfl
@[simp] theorem State.mapCore_tripped (f : Core → Core) : (s.mapCore f).tripped = s.tripped := rfl
@[simp] theorem State.mapCore_boot (f : Core → Core) : (s.mapCore f).boot = s.boot := rfl
@[simp] theorem State.mapCore_chain (f : Core → Core) : (s.mapCore f).chain = s.chain := rfl
@[simp] theorem State.mapCore_powerTarget (f : Core → Core) : (s.mapCore f).powerTarget = s.powerTarget := rfl
@[simp] theorem State.mapCore_rows (f : Core → Core) : (s.mapCore f).rows = s.rows := rfl
@[simp] theorem State.mapCore_repairs (f : Core → Core) : (s.mapCore f).repairs = s.repairs := rfl
@[simp] theorem State.mapCore_repairQ (f : Core → Core) : (s.mapCore f).repairQ = s.repairQ := rfl
@[simp] theorem State.mapCore_hardDone (f : Core → Core) : (s.mapCore f).hardDone = s.hardDone := rfl
@[simp] theorem State.mapCore_softDone (f : Core → Core) : (s.mapCore f).softDone = s.softDone := rfl
@[simp] theorem State.mapCore_quiesces (f : Core → Core) : (s.mapCore f).quiesces = s.quiesces := rfl
@[simp] theorem State.mapCore_stalled (f : Core → Core) : (s.mapCore f).stalled = s.stalled := rfl
@[simp] theorem State.mapCore_nextOutside (f : Core → Core) : (s.mapCore f).nextOutside = s.nextOutside := rfl
@[simp] theorem State.mapCore_dumps (f : Core → Core) : (s.mapCore f).dumps = s.dumps := rfl
@[simp] theorem State.mapCore_dumpArea (f : Core → Core) : (s.mapCore f).dumpArea = s.dumpArea := rfl
@[simp] theorem State.mapCore_ports (f : Core → Core) : (s.mapCore f).ports = s.ports := rfl
@[simp] theorem State.mapCore_linkWaits (f : Core → Core) : (s.mapCore f).linkWaits = s.linkWaits := rfl
@[simp] theorem State.mapCore_rdma (f : Core → Core) : (s.mapCore f).rdma = s.rdma := rfl
@[simp] theorem State.mapCore_qps (f : Core → Core) : (s.mapCore f).qps = s.qps := rfl
@[simp] theorem State.mapCore_out (f : Core → Core) : (s.mapCore f).out = s.out := rfl

/-! ## `mapCtx` -/

@[simp] theorem State.mapCtx_inputs (f : Ctx → Ctx) : (s.mapCtx f).inputs = s.inputs := rfl
@[simp] theorem State.mapCtx_ev (f : Ctx → Ctx) : (s.mapCtx f).ev = s.ev := rfl
@[simp] theorem State.mapCtx_choiceCtr (f : Ctx → Ctx) : (s.mapCtx f).choiceCtr = s.choiceCtr := rfl
@[simp] theorem State.mapCtx_freeCtr (f : Ctx → Ctx) : (s.mapCtx f).freeCtr = s.freeCtr := rfl
@[simp] theorem State.mapCtx_coreTile (f : Ctx → Ctx) : (s.mapCtx f).coreTile = s.coreTile := rfl
@[simp] theorem State.mapCtx_core (f : Ctx → Ctx) : (s.mapCtx f).core = s.core.mapCtx s.core.cur.ctx f := rfl
@[simp] theorem State.mapCtx_parked (f : Ctx → Ctx) : (s.mapCtx f).parked = s.parked := rfl
@[simp] theorem State.mapCtx_mem (f : Ctx → Ctx) : (s.mapCtx f).mem = s.mem := rfl
@[simp] theorem State.mapCtx_poison (f : Ctx → Ctx) : (s.mapCtx f).poison = s.poison := rfl
@[simp] theorem State.mapCtx_lltlb (f : Ctx → Ctx) : (s.mapCtx f).lltlb = s.lltlb := rfl
@[simp] theorem State.mapCtx_walks (f : Ctx → Ctx) : (s.mapCtx f).walks = s.walks := rfl
@[simp] theorem State.mapCtx_nextWalk (f : Ctx → Ctx) : (s.mapCtx f).nextWalk = s.nextWalk := rfl
@[simp] theorem State.mapCtx_nextToken (f : Ctx → Ctx) : (s.mapCtx f).nextToken = s.nextToken := rfl
@[simp] theorem State.mapCtx_rings (f : Ctx → Ctx) : (s.mapCtx f).rings = s.rings := rfl
@[simp] theorem State.mapCtx_recWait (f : Ctx → Ctx) : (s.mapCtx f).recWait = s.recWait := rfl
@[simp] theorem State.mapCtx_astBase (f : Ctx → Ctx) : (s.mapCtx f).astBase = s.astBase := rfl
@[simp] theorem State.mapCtx_qtBase (f : Ctx → Ctx) : (s.mapCtx f).qtBase = s.qtBase := rfl
@[simp] theorem State.mapCtx_xinv (f : Ctx → Ctx) : (s.mapCtx f).xinv = s.xinv := rfl
@[simp] theorem State.mapCtx_pools (f : Ctx → Ctx) : (s.mapCtx f).pools = s.pools := rfl
@[simp] theorem State.mapCtx_kvRes (f : Ctx → Ctx) : (s.mapCtx f).kvRes = s.kvRes := rfl
@[simp] theorem State.mapCtx_kvts (f : Ctx → Ctx) : (s.mapCtx f).kvts = s.kvts := rfl
@[simp] theorem State.mapCtx_kvtsOld (f : Ctx → Ctx) : (s.mapCtx f).kvtsOld = s.kvtsOld := rfl
@[simp] theorem State.mapCtx_lastQ (f : Ctx → Ctx) : (s.mapCtx f).lastQ = s.lastQ := rfl
@[simp] theorem State.mapCtx_queues (f : Ctx → Ctx) : (s.mapCtx f).queues = s.queues := rfl
@[simp] theorem State.mapCtx_gangFail (f : Ctx → Ctx) : (s.mapCtx f).gangFail = s.gangFail := rfl
@[simp] theorem State.mapCtx_skipFail (f : Ctx → Ctx) : (s.mapCtx f).skipFail = s.skipFail := rfl
@[simp] theorem State.mapCtx_binds (f : Ctx → Ctx) : (s.mapCtx f).binds = s.binds := rfl
@[simp] theorem State.mapCtx_gangs (f : Ctx → Ctx) : (s.mapCtx f).gangs = s.gangs := rfl
@[simp] theorem State.mapCtx_barriers (f : Ctx → Ctx) : (s.mapCtx f).barriers = s.barriers := rfl
@[simp] theorem State.mapCtx_isflush (f : Ctx → Ctx) : (s.mapCtx f).isflush = s.isflush := rfl
@[simp] theorem State.mapCtx_waiters (f : Ctx → Ctx) : (s.mapCtx f).waiters = s.waiters := rfl
@[simp] theorem State.mapCtx_arrivals (f : Ctx → Ctx) : (s.mapCtx f).arrivals = s.arrivals := rfl
@[simp] theorem State.mapCtx_regions (f : Ctx → Ctx) : (s.mapCtx f).regions = s.regions := rfl
@[simp] theorem State.mapCtx_scanning (f : Ctx → Ctx) : (s.mapCtx f).scanning = s.scanning := rfl
@[simp] theorem State.mapCtx_digests (f : Ctx → Ctx) : (s.mapCtx f).digests = s.digests := rfl
@[simp] theorem State.mapCtx_trellis (f : Ctx → Ctx) : (s.mapCtx f).trellis = s.trellis := rfl
@[simp] theorem State.mapCtx_map (f : Ctx → Ctx) : (s.mapCtx f).map = s.map := rfl
@[simp] theorem State.mapCtx_flits (f : Ctx → Ctx) : (s.mapCtx f).flits = s.flits := rfl
@[simp] theorem State.mapCtx_mring (f : Ctx → Ctx) : (s.mapCtx f).mring = s.mring := rfl
@[simp] theorem State.mapCtx_refClk (f : Ctx → Ctx) : (s.mapCtx f).refClk = s.refClk := rfl
@[simp] theorem State.mapCtx_clkAcc (f : Ctx → Ctx) : (s.mapCtx f).clkAcc = s.clkAcc := rfl
@[simp] theorem State.mapCtx_mhz (f : Ctx → Ctx) : (s.mapCtx f).mhz = s.mhz := rfl
@[simp] theorem State.mapCtx_ths (f : Ctx → Ctx) : (s.mapCtx f).ths = s.ths := rfl
@[simp] theorem State.mapCtx_throttled (f : Ctx → Ctx) : (s.mapCtx f).throttled = s.throttled := rfl
@[simp] theorem State.mapCtx_convDone (f : Ctx → Ctx) : (s.mapCtx f).convDone = s.convDone := rfl
@[simp] theorem State.mapCtx_stepDone (f : Ctx → Ctx) : (s.mapCtx f).stepDone = s.stepDone := rfl
@[simp] theorem State.mapCtx_pageDone (f : Ctx → Ctx) : (s.mapCtx f).pageDone = s.pageDone := rfl
@[simp] theorem State.mapCtx_tripped (f : Ctx → Ctx) : (s.mapCtx f).tripped = s.tripped := rfl
@[simp] theorem State.mapCtx_boot (f : Ctx → Ctx) : (s.mapCtx f).boot = s.boot := rfl
@[simp] theorem State.mapCtx_chain (f : Ctx → Ctx) : (s.mapCtx f).chain = s.chain := rfl
@[simp] theorem State.mapCtx_powerTarget (f : Ctx → Ctx) : (s.mapCtx f).powerTarget = s.powerTarget := rfl
@[simp] theorem State.mapCtx_rows (f : Ctx → Ctx) : (s.mapCtx f).rows = s.rows := rfl
@[simp] theorem State.mapCtx_repairs (f : Ctx → Ctx) : (s.mapCtx f).repairs = s.repairs := rfl
@[simp] theorem State.mapCtx_repairQ (f : Ctx → Ctx) : (s.mapCtx f).repairQ = s.repairQ := rfl
@[simp] theorem State.mapCtx_hardDone (f : Ctx → Ctx) : (s.mapCtx f).hardDone = s.hardDone := rfl
@[simp] theorem State.mapCtx_softDone (f : Ctx → Ctx) : (s.mapCtx f).softDone = s.softDone := rfl
@[simp] theorem State.mapCtx_quiesces (f : Ctx → Ctx) : (s.mapCtx f).quiesces = s.quiesces := rfl
@[simp] theorem State.mapCtx_stalled (f : Ctx → Ctx) : (s.mapCtx f).stalled = s.stalled := rfl
@[simp] theorem State.mapCtx_nextOutside (f : Ctx → Ctx) : (s.mapCtx f).nextOutside = s.nextOutside := rfl
@[simp] theorem State.mapCtx_dumps (f : Ctx → Ctx) : (s.mapCtx f).dumps = s.dumps := rfl
@[simp] theorem State.mapCtx_dumpArea (f : Ctx → Ctx) : (s.mapCtx f).dumpArea = s.dumpArea := rfl
@[simp] theorem State.mapCtx_ports (f : Ctx → Ctx) : (s.mapCtx f).ports = s.ports := rfl
@[simp] theorem State.mapCtx_linkWaits (f : Ctx → Ctx) : (s.mapCtx f).linkWaits = s.linkWaits := rfl
@[simp] theorem State.mapCtx_rdma (f : Ctx → Ctx) : (s.mapCtx f).rdma = s.rdma := rfl
@[simp] theorem State.mapCtx_qps (f : Ctx → Ctx) : (s.mapCtx f).qps = s.qps := rfl
@[simp] theorem State.mapCtx_out (f : Ctx → Ctx) : (s.mapCtx f).out = s.out := rfl

/-! ## `mapCur` -/

@[simp] theorem State.mapCur_inputs (f : Issue → Issue) : (s.mapCur f).inputs = s.inputs := rfl
@[simp] theorem State.mapCur_ev (f : Issue → Issue) : (s.mapCur f).ev = s.ev := rfl
@[simp] theorem State.mapCur_choiceCtr (f : Issue → Issue) : (s.mapCur f).choiceCtr = s.choiceCtr := rfl
@[simp] theorem State.mapCur_freeCtr (f : Issue → Issue) : (s.mapCur f).freeCtr = s.freeCtr := rfl
@[simp] theorem State.mapCur_coreTile (f : Issue → Issue) : (s.mapCur f).coreTile = s.coreTile := rfl
@[simp] theorem State.mapCur_core (f : Issue → Issue) : (s.mapCur f).core = { s.core with cur := f s.core.cur } := rfl
@[simp] theorem State.mapCur_parked (f : Issue → Issue) : (s.mapCur f).parked = s.parked := rfl
@[simp] theorem State.mapCur_mem (f : Issue → Issue) : (s.mapCur f).mem = s.mem := rfl
@[simp] theorem State.mapCur_poison (f : Issue → Issue) : (s.mapCur f).poison = s.poison := rfl
@[simp] theorem State.mapCur_lltlb (f : Issue → Issue) : (s.mapCur f).lltlb = s.lltlb := rfl
@[simp] theorem State.mapCur_walks (f : Issue → Issue) : (s.mapCur f).walks = s.walks := rfl
@[simp] theorem State.mapCur_nextWalk (f : Issue → Issue) : (s.mapCur f).nextWalk = s.nextWalk := rfl
@[simp] theorem State.mapCur_nextToken (f : Issue → Issue) : (s.mapCur f).nextToken = s.nextToken := rfl
@[simp] theorem State.mapCur_rings (f : Issue → Issue) : (s.mapCur f).rings = s.rings := rfl
@[simp] theorem State.mapCur_recWait (f : Issue → Issue) : (s.mapCur f).recWait = s.recWait := rfl
@[simp] theorem State.mapCur_astBase (f : Issue → Issue) : (s.mapCur f).astBase = s.astBase := rfl
@[simp] theorem State.mapCur_qtBase (f : Issue → Issue) : (s.mapCur f).qtBase = s.qtBase := rfl
@[simp] theorem State.mapCur_xinv (f : Issue → Issue) : (s.mapCur f).xinv = s.xinv := rfl
@[simp] theorem State.mapCur_pools (f : Issue → Issue) : (s.mapCur f).pools = s.pools := rfl
@[simp] theorem State.mapCur_kvRes (f : Issue → Issue) : (s.mapCur f).kvRes = s.kvRes := rfl
@[simp] theorem State.mapCur_kvts (f : Issue → Issue) : (s.mapCur f).kvts = s.kvts := rfl
@[simp] theorem State.mapCur_kvtsOld (f : Issue → Issue) : (s.mapCur f).kvtsOld = s.kvtsOld := rfl
@[simp] theorem State.mapCur_lastQ (f : Issue → Issue) : (s.mapCur f).lastQ = s.lastQ := rfl
@[simp] theorem State.mapCur_queues (f : Issue → Issue) : (s.mapCur f).queues = s.queues := rfl
@[simp] theorem State.mapCur_gangFail (f : Issue → Issue) : (s.mapCur f).gangFail = s.gangFail := rfl
@[simp] theorem State.mapCur_skipFail (f : Issue → Issue) : (s.mapCur f).skipFail = s.skipFail := rfl
@[simp] theorem State.mapCur_binds (f : Issue → Issue) : (s.mapCur f).binds = s.binds := rfl
@[simp] theorem State.mapCur_gangs (f : Issue → Issue) : (s.mapCur f).gangs = s.gangs := rfl
@[simp] theorem State.mapCur_barriers (f : Issue → Issue) : (s.mapCur f).barriers = s.barriers := rfl
@[simp] theorem State.mapCur_isflush (f : Issue → Issue) : (s.mapCur f).isflush = s.isflush := rfl
@[simp] theorem State.mapCur_waiters (f : Issue → Issue) : (s.mapCur f).waiters = s.waiters := rfl
@[simp] theorem State.mapCur_arrivals (f : Issue → Issue) : (s.mapCur f).arrivals = s.arrivals := rfl
@[simp] theorem State.mapCur_regions (f : Issue → Issue) : (s.mapCur f).regions = s.regions := rfl
@[simp] theorem State.mapCur_scanning (f : Issue → Issue) : (s.mapCur f).scanning = s.scanning := rfl
@[simp] theorem State.mapCur_digests (f : Issue → Issue) : (s.mapCur f).digests = s.digests := rfl
@[simp] theorem State.mapCur_trellis (f : Issue → Issue) : (s.mapCur f).trellis = s.trellis := rfl
@[simp] theorem State.mapCur_map (f : Issue → Issue) : (s.mapCur f).map = s.map := rfl
@[simp] theorem State.mapCur_flits (f : Issue → Issue) : (s.mapCur f).flits = s.flits := rfl
@[simp] theorem State.mapCur_mring (f : Issue → Issue) : (s.mapCur f).mring = s.mring := rfl
@[simp] theorem State.mapCur_refClk (f : Issue → Issue) : (s.mapCur f).refClk = s.refClk := rfl
@[simp] theorem State.mapCur_clkAcc (f : Issue → Issue) : (s.mapCur f).clkAcc = s.clkAcc := rfl
@[simp] theorem State.mapCur_mhz (f : Issue → Issue) : (s.mapCur f).mhz = s.mhz := rfl
@[simp] theorem State.mapCur_ths (f : Issue → Issue) : (s.mapCur f).ths = s.ths := rfl
@[simp] theorem State.mapCur_throttled (f : Issue → Issue) : (s.mapCur f).throttled = s.throttled := rfl
@[simp] theorem State.mapCur_convDone (f : Issue → Issue) : (s.mapCur f).convDone = s.convDone := rfl
@[simp] theorem State.mapCur_stepDone (f : Issue → Issue) : (s.mapCur f).stepDone = s.stepDone := rfl
@[simp] theorem State.mapCur_pageDone (f : Issue → Issue) : (s.mapCur f).pageDone = s.pageDone := rfl
@[simp] theorem State.mapCur_tripped (f : Issue → Issue) : (s.mapCur f).tripped = s.tripped := rfl
@[simp] theorem State.mapCur_boot (f : Issue → Issue) : (s.mapCur f).boot = s.boot := rfl
@[simp] theorem State.mapCur_chain (f : Issue → Issue) : (s.mapCur f).chain = s.chain := rfl
@[simp] theorem State.mapCur_powerTarget (f : Issue → Issue) : (s.mapCur f).powerTarget = s.powerTarget := rfl
@[simp] theorem State.mapCur_rows (f : Issue → Issue) : (s.mapCur f).rows = s.rows := rfl
@[simp] theorem State.mapCur_repairs (f : Issue → Issue) : (s.mapCur f).repairs = s.repairs := rfl
@[simp] theorem State.mapCur_repairQ (f : Issue → Issue) : (s.mapCur f).repairQ = s.repairQ := rfl
@[simp] theorem State.mapCur_hardDone (f : Issue → Issue) : (s.mapCur f).hardDone = s.hardDone := rfl
@[simp] theorem State.mapCur_softDone (f : Issue → Issue) : (s.mapCur f).softDone = s.softDone := rfl
@[simp] theorem State.mapCur_quiesces (f : Issue → Issue) : (s.mapCur f).quiesces = s.quiesces := rfl
@[simp] theorem State.mapCur_stalled (f : Issue → Issue) : (s.mapCur f).stalled = s.stalled := rfl
@[simp] theorem State.mapCur_nextOutside (f : Issue → Issue) : (s.mapCur f).nextOutside = s.nextOutside := rfl
@[simp] theorem State.mapCur_dumps (f : Issue → Issue) : (s.mapCur f).dumps = s.dumps := rfl
@[simp] theorem State.mapCur_dumpArea (f : Issue → Issue) : (s.mapCur f).dumpArea = s.dumpArea := rfl
@[simp] theorem State.mapCur_ports (f : Issue → Issue) : (s.mapCur f).ports = s.ports := rfl
@[simp] theorem State.mapCur_linkWaits (f : Issue → Issue) : (s.mapCur f).linkWaits = s.linkWaits := rfl
@[simp] theorem State.mapCur_rdma (f : Issue → Issue) : (s.mapCur f).rdma = s.rdma := rfl
@[simp] theorem State.mapCur_qps (f : Issue → Issue) : (s.mapCur f).qps = s.qps := rfl
@[simp] theorem State.mapCur_out (f : Issue → Issue) : (s.mapCur f).out = s.out := rfl

/-! ## `mapSh` -/

@[simp] theorem State.mapSh_inputs (f : Shared → Shared) : (s.mapSh f).inputs = s.inputs := rfl
@[simp] theorem State.mapSh_ev (f : Shared → Shared) : (s.mapSh f).ev = s.ev := rfl
@[simp] theorem State.mapSh_choiceCtr (f : Shared → Shared) : (s.mapSh f).choiceCtr = s.choiceCtr := rfl
@[simp] theorem State.mapSh_freeCtr (f : Shared → Shared) : (s.mapSh f).freeCtr = s.freeCtr := rfl
@[simp] theorem State.mapSh_coreTile (f : Shared → Shared) : (s.mapSh f).coreTile = s.coreTile := rfl
@[simp] theorem State.mapSh_core (f : Shared → Shared) : (s.mapSh f).core = { s.core with sh := f s.core.sh } := rfl
@[simp] theorem State.mapSh_parked (f : Shared → Shared) : (s.mapSh f).parked = s.parked := rfl
@[simp] theorem State.mapSh_mem (f : Shared → Shared) : (s.mapSh f).mem = s.mem := rfl
@[simp] theorem State.mapSh_poison (f : Shared → Shared) : (s.mapSh f).poison = s.poison := rfl
@[simp] theorem State.mapSh_lltlb (f : Shared → Shared) : (s.mapSh f).lltlb = s.lltlb := rfl
@[simp] theorem State.mapSh_walks (f : Shared → Shared) : (s.mapSh f).walks = s.walks := rfl
@[simp] theorem State.mapSh_nextWalk (f : Shared → Shared) : (s.mapSh f).nextWalk = s.nextWalk := rfl
@[simp] theorem State.mapSh_nextToken (f : Shared → Shared) : (s.mapSh f).nextToken = s.nextToken := rfl
@[simp] theorem State.mapSh_rings (f : Shared → Shared) : (s.mapSh f).rings = s.rings := rfl
@[simp] theorem State.mapSh_recWait (f : Shared → Shared) : (s.mapSh f).recWait = s.recWait := rfl
@[simp] theorem State.mapSh_astBase (f : Shared → Shared) : (s.mapSh f).astBase = s.astBase := rfl
@[simp] theorem State.mapSh_qtBase (f : Shared → Shared) : (s.mapSh f).qtBase = s.qtBase := rfl
@[simp] theorem State.mapSh_xinv (f : Shared → Shared) : (s.mapSh f).xinv = s.xinv := rfl
@[simp] theorem State.mapSh_pools (f : Shared → Shared) : (s.mapSh f).pools = s.pools := rfl
@[simp] theorem State.mapSh_kvRes (f : Shared → Shared) : (s.mapSh f).kvRes = s.kvRes := rfl
@[simp] theorem State.mapSh_kvts (f : Shared → Shared) : (s.mapSh f).kvts = s.kvts := rfl
@[simp] theorem State.mapSh_kvtsOld (f : Shared → Shared) : (s.mapSh f).kvtsOld = s.kvtsOld := rfl
@[simp] theorem State.mapSh_lastQ (f : Shared → Shared) : (s.mapSh f).lastQ = s.lastQ := rfl
@[simp] theorem State.mapSh_queues (f : Shared → Shared) : (s.mapSh f).queues = s.queues := rfl
@[simp] theorem State.mapSh_gangFail (f : Shared → Shared) : (s.mapSh f).gangFail = s.gangFail := rfl
@[simp] theorem State.mapSh_skipFail (f : Shared → Shared) : (s.mapSh f).skipFail = s.skipFail := rfl
@[simp] theorem State.mapSh_binds (f : Shared → Shared) : (s.mapSh f).binds = s.binds := rfl
@[simp] theorem State.mapSh_gangs (f : Shared → Shared) : (s.mapSh f).gangs = s.gangs := rfl
@[simp] theorem State.mapSh_barriers (f : Shared → Shared) : (s.mapSh f).barriers = s.barriers := rfl
@[simp] theorem State.mapSh_isflush (f : Shared → Shared) : (s.mapSh f).isflush = s.isflush := rfl
@[simp] theorem State.mapSh_waiters (f : Shared → Shared) : (s.mapSh f).waiters = s.waiters := rfl
@[simp] theorem State.mapSh_arrivals (f : Shared → Shared) : (s.mapSh f).arrivals = s.arrivals := rfl
@[simp] theorem State.mapSh_regions (f : Shared → Shared) : (s.mapSh f).regions = s.regions := rfl
@[simp] theorem State.mapSh_scanning (f : Shared → Shared) : (s.mapSh f).scanning = s.scanning := rfl
@[simp] theorem State.mapSh_digests (f : Shared → Shared) : (s.mapSh f).digests = s.digests := rfl
@[simp] theorem State.mapSh_trellis (f : Shared → Shared) : (s.mapSh f).trellis = s.trellis := rfl
@[simp] theorem State.mapSh_map (f : Shared → Shared) : (s.mapSh f).map = s.map := rfl
@[simp] theorem State.mapSh_flits (f : Shared → Shared) : (s.mapSh f).flits = s.flits := rfl
@[simp] theorem State.mapSh_mring (f : Shared → Shared) : (s.mapSh f).mring = s.mring := rfl
@[simp] theorem State.mapSh_refClk (f : Shared → Shared) : (s.mapSh f).refClk = s.refClk := rfl
@[simp] theorem State.mapSh_clkAcc (f : Shared → Shared) : (s.mapSh f).clkAcc = s.clkAcc := rfl
@[simp] theorem State.mapSh_mhz (f : Shared → Shared) : (s.mapSh f).mhz = s.mhz := rfl
@[simp] theorem State.mapSh_ths (f : Shared → Shared) : (s.mapSh f).ths = s.ths := rfl
@[simp] theorem State.mapSh_throttled (f : Shared → Shared) : (s.mapSh f).throttled = s.throttled := rfl
@[simp] theorem State.mapSh_convDone (f : Shared → Shared) : (s.mapSh f).convDone = s.convDone := rfl
@[simp] theorem State.mapSh_stepDone (f : Shared → Shared) : (s.mapSh f).stepDone = s.stepDone := rfl
@[simp] theorem State.mapSh_pageDone (f : Shared → Shared) : (s.mapSh f).pageDone = s.pageDone := rfl
@[simp] theorem State.mapSh_tripped (f : Shared → Shared) : (s.mapSh f).tripped = s.tripped := rfl
@[simp] theorem State.mapSh_boot (f : Shared → Shared) : (s.mapSh f).boot = s.boot := rfl
@[simp] theorem State.mapSh_chain (f : Shared → Shared) : (s.mapSh f).chain = s.chain := rfl
@[simp] theorem State.mapSh_powerTarget (f : Shared → Shared) : (s.mapSh f).powerTarget = s.powerTarget := rfl
@[simp] theorem State.mapSh_rows (f : Shared → Shared) : (s.mapSh f).rows = s.rows := rfl
@[simp] theorem State.mapSh_repairs (f : Shared → Shared) : (s.mapSh f).repairs = s.repairs := rfl
@[simp] theorem State.mapSh_repairQ (f : Shared → Shared) : (s.mapSh f).repairQ = s.repairQ := rfl
@[simp] theorem State.mapSh_hardDone (f : Shared → Shared) : (s.mapSh f).hardDone = s.hardDone := rfl
@[simp] theorem State.mapSh_softDone (f : Shared → Shared) : (s.mapSh f).softDone = s.softDone := rfl
@[simp] theorem State.mapSh_quiesces (f : Shared → Shared) : (s.mapSh f).quiesces = s.quiesces := rfl
@[simp] theorem State.mapSh_stalled (f : Shared → Shared) : (s.mapSh f).stalled = s.stalled := rfl
@[simp] theorem State.mapSh_nextOutside (f : Shared → Shared) : (s.mapSh f).nextOutside = s.nextOutside := rfl
@[simp] theorem State.mapSh_dumps (f : Shared → Shared) : (s.mapSh f).dumps = s.dumps := rfl
@[simp] theorem State.mapSh_dumpArea (f : Shared → Shared) : (s.mapSh f).dumpArea = s.dumpArea := rfl
@[simp] theorem State.mapSh_ports (f : Shared → Shared) : (s.mapSh f).ports = s.ports := rfl
@[simp] theorem State.mapSh_linkWaits (f : Shared → Shared) : (s.mapSh f).linkWaits = s.linkWaits := rfl
@[simp] theorem State.mapSh_rdma (f : Shared → Shared) : (s.mapSh f).rdma = s.rdma := rfl
@[simp] theorem State.mapSh_qps (f : Shared → Shared) : (s.mapSh f).qps = s.qps := rfl
@[simp] theorem State.mapSh_out (f : Shared → Shared) : (s.mapSh f).out = s.out := rfl

/-! ## `mapRegs` -/

@[simp] theorem State.mapRegs_inputs (f : Priv → Priv) : (s.mapRegs f).inputs = s.inputs := rfl
@[simp] theorem State.mapRegs_ev (f : Priv → Priv) : (s.mapRegs f).ev = s.ev := rfl
@[simp] theorem State.mapRegs_choiceCtr (f : Priv → Priv) : (s.mapRegs f).choiceCtr = s.choiceCtr := rfl
@[simp] theorem State.mapRegs_freeCtr (f : Priv → Priv) : (s.mapRegs f).freeCtr = s.freeCtr := rfl
@[simp] theorem State.mapRegs_coreTile (f : Priv → Priv) : (s.mapRegs f).coreTile = s.coreTile := rfl
@[simp] theorem State.mapRegs_core (f : Priv → Priv) : (s.mapRegs f).core = s.core.mapCtx s.core.cur.ctx (fun x => { x with regs := f x.regs }) := rfl
@[simp] theorem State.mapRegs_parked (f : Priv → Priv) : (s.mapRegs f).parked = s.parked := rfl
@[simp] theorem State.mapRegs_mem (f : Priv → Priv) : (s.mapRegs f).mem = s.mem := rfl
@[simp] theorem State.mapRegs_poison (f : Priv → Priv) : (s.mapRegs f).poison = s.poison := rfl
@[simp] theorem State.mapRegs_lltlb (f : Priv → Priv) : (s.mapRegs f).lltlb = s.lltlb := rfl
@[simp] theorem State.mapRegs_walks (f : Priv → Priv) : (s.mapRegs f).walks = s.walks := rfl
@[simp] theorem State.mapRegs_nextWalk (f : Priv → Priv) : (s.mapRegs f).nextWalk = s.nextWalk := rfl
@[simp] theorem State.mapRegs_nextToken (f : Priv → Priv) : (s.mapRegs f).nextToken = s.nextToken := rfl
@[simp] theorem State.mapRegs_rings (f : Priv → Priv) : (s.mapRegs f).rings = s.rings := rfl
@[simp] theorem State.mapRegs_recWait (f : Priv → Priv) : (s.mapRegs f).recWait = s.recWait := rfl
@[simp] theorem State.mapRegs_astBase (f : Priv → Priv) : (s.mapRegs f).astBase = s.astBase := rfl
@[simp] theorem State.mapRegs_qtBase (f : Priv → Priv) : (s.mapRegs f).qtBase = s.qtBase := rfl
@[simp] theorem State.mapRegs_xinv (f : Priv → Priv) : (s.mapRegs f).xinv = s.xinv := rfl
@[simp] theorem State.mapRegs_pools (f : Priv → Priv) : (s.mapRegs f).pools = s.pools := rfl
@[simp] theorem State.mapRegs_kvRes (f : Priv → Priv) : (s.mapRegs f).kvRes = s.kvRes := rfl
@[simp] theorem State.mapRegs_kvts (f : Priv → Priv) : (s.mapRegs f).kvts = s.kvts := rfl
@[simp] theorem State.mapRegs_kvtsOld (f : Priv → Priv) : (s.mapRegs f).kvtsOld = s.kvtsOld := rfl
@[simp] theorem State.mapRegs_lastQ (f : Priv → Priv) : (s.mapRegs f).lastQ = s.lastQ := rfl
@[simp] theorem State.mapRegs_queues (f : Priv → Priv) : (s.mapRegs f).queues = s.queues := rfl
@[simp] theorem State.mapRegs_gangFail (f : Priv → Priv) : (s.mapRegs f).gangFail = s.gangFail := rfl
@[simp] theorem State.mapRegs_skipFail (f : Priv → Priv) : (s.mapRegs f).skipFail = s.skipFail := rfl
@[simp] theorem State.mapRegs_binds (f : Priv → Priv) : (s.mapRegs f).binds = s.binds := rfl
@[simp] theorem State.mapRegs_gangs (f : Priv → Priv) : (s.mapRegs f).gangs = s.gangs := rfl
@[simp] theorem State.mapRegs_barriers (f : Priv → Priv) : (s.mapRegs f).barriers = s.barriers := rfl
@[simp] theorem State.mapRegs_isflush (f : Priv → Priv) : (s.mapRegs f).isflush = s.isflush := rfl
@[simp] theorem State.mapRegs_waiters (f : Priv → Priv) : (s.mapRegs f).waiters = s.waiters := rfl
@[simp] theorem State.mapRegs_arrivals (f : Priv → Priv) : (s.mapRegs f).arrivals = s.arrivals := rfl
@[simp] theorem State.mapRegs_regions (f : Priv → Priv) : (s.mapRegs f).regions = s.regions := rfl
@[simp] theorem State.mapRegs_scanning (f : Priv → Priv) : (s.mapRegs f).scanning = s.scanning := rfl
@[simp] theorem State.mapRegs_digests (f : Priv → Priv) : (s.mapRegs f).digests = s.digests := rfl
@[simp] theorem State.mapRegs_trellis (f : Priv → Priv) : (s.mapRegs f).trellis = s.trellis := rfl
@[simp] theorem State.mapRegs_map (f : Priv → Priv) : (s.mapRegs f).map = s.map := rfl
@[simp] theorem State.mapRegs_flits (f : Priv → Priv) : (s.mapRegs f).flits = s.flits := rfl
@[simp] theorem State.mapRegs_mring (f : Priv → Priv) : (s.mapRegs f).mring = s.mring := rfl
@[simp] theorem State.mapRegs_refClk (f : Priv → Priv) : (s.mapRegs f).refClk = s.refClk := rfl
@[simp] theorem State.mapRegs_clkAcc (f : Priv → Priv) : (s.mapRegs f).clkAcc = s.clkAcc := rfl
@[simp] theorem State.mapRegs_mhz (f : Priv → Priv) : (s.mapRegs f).mhz = s.mhz := rfl
@[simp] theorem State.mapRegs_ths (f : Priv → Priv) : (s.mapRegs f).ths = s.ths := rfl
@[simp] theorem State.mapRegs_throttled (f : Priv → Priv) : (s.mapRegs f).throttled = s.throttled := rfl
@[simp] theorem State.mapRegs_convDone (f : Priv → Priv) : (s.mapRegs f).convDone = s.convDone := rfl
@[simp] theorem State.mapRegs_stepDone (f : Priv → Priv) : (s.mapRegs f).stepDone = s.stepDone := rfl
@[simp] theorem State.mapRegs_pageDone (f : Priv → Priv) : (s.mapRegs f).pageDone = s.pageDone := rfl
@[simp] theorem State.mapRegs_tripped (f : Priv → Priv) : (s.mapRegs f).tripped = s.tripped := rfl
@[simp] theorem State.mapRegs_boot (f : Priv → Priv) : (s.mapRegs f).boot = s.boot := rfl
@[simp] theorem State.mapRegs_chain (f : Priv → Priv) : (s.mapRegs f).chain = s.chain := rfl
@[simp] theorem State.mapRegs_powerTarget (f : Priv → Priv) : (s.mapRegs f).powerTarget = s.powerTarget := rfl
@[simp] theorem State.mapRegs_rows (f : Priv → Priv) : (s.mapRegs f).rows = s.rows := rfl
@[simp] theorem State.mapRegs_repairs (f : Priv → Priv) : (s.mapRegs f).repairs = s.repairs := rfl
@[simp] theorem State.mapRegs_repairQ (f : Priv → Priv) : (s.mapRegs f).repairQ = s.repairQ := rfl
@[simp] theorem State.mapRegs_hardDone (f : Priv → Priv) : (s.mapRegs f).hardDone = s.hardDone := rfl
@[simp] theorem State.mapRegs_softDone (f : Priv → Priv) : (s.mapRegs f).softDone = s.softDone := rfl
@[simp] theorem State.mapRegs_quiesces (f : Priv → Priv) : (s.mapRegs f).quiesces = s.quiesces := rfl
@[simp] theorem State.mapRegs_stalled (f : Priv → Priv) : (s.mapRegs f).stalled = s.stalled := rfl
@[simp] theorem State.mapRegs_nextOutside (f : Priv → Priv) : (s.mapRegs f).nextOutside = s.nextOutside := rfl
@[simp] theorem State.mapRegs_dumps (f : Priv → Priv) : (s.mapRegs f).dumps = s.dumps := rfl
@[simp] theorem State.mapRegs_dumpArea (f : Priv → Priv) : (s.mapRegs f).dumpArea = s.dumpArea := rfl
@[simp] theorem State.mapRegs_ports (f : Priv → Priv) : (s.mapRegs f).ports = s.ports := rfl
@[simp] theorem State.mapRegs_linkWaits (f : Priv → Priv) : (s.mapRegs f).linkWaits = s.linkWaits := rfl
@[simp] theorem State.mapRegs_rdma (f : Priv → Priv) : (s.mapRegs f).rdma = s.rdma := rfl
@[simp] theorem State.mapRegs_qps (f : Priv → Priv) : (s.mapRegs f).qps = s.qps := rfl
@[simp] theorem State.mapRegs_out (f : Priv → Priv) : (s.mapRegs f).out = s.out := rfl

/-! ## A context of a core changes -/

@[simp] theorem Core.setCtx_sh (n : BitVec 2) (x : Ctx) : (c.setCtx n x).sh = c.sh := by
  unfold Core.setCtx; split <;> [rfl; split <;> rfl]
@[simp] theorem Core.mapCtx_sh (n : BitVec 2) (f : Ctx → Ctx) : (c.mapCtx n f).sh = c.sh := Core.setCtx_sh c n _
@[simp] theorem Core.setCtx_dupSh (n : BitVec 2) (x : Ctx) : (c.setCtx n x).dupSh = c.dupSh := by
  unfold Core.setCtx; split <;> [rfl; split <;> rfl]
@[simp] theorem Core.mapCtx_dupSh (n : BitVec 2) (f : Ctx → Ctx) : (c.mapCtx n f).dupSh = c.dupSh := Core.setCtx_dupSh c n _
@[simp] theorem Core.setCtx_tailMarks (n : BitVec 2) (x : Ctx) : (c.setCtx n x).tailMarks = c.tailMarks := by
  unfold Core.setCtx; split <;> [rfl; split <;> rfl]
@[simp] theorem Core.mapCtx_tailMarks (n : BitVec 2) (f : Ctx → Ctx) : (c.mapCtx n f).tailMarks = c.tailMarks := Core.setCtx_tailMarks c n _
@[simp] theorem Core.setCtx_tailMs (n : BitVec 2) (x : Ctx) : (c.setCtx n x).tailMs = c.tailMs := by
  unfold Core.setCtx; split <;> [rfl; split <;> rfl]
@[simp] theorem Core.mapCtx_tailMs (n : BitVec 2) (f : Ctx → Ctx) : (c.mapCtx n f).tailMs = c.tailMs := Core.setCtx_tailMs c n _
@[simp] theorem Core.setCtx_tailD (n : BitVec 2) (x : Ctx) : (c.setCtx n x).tailD = c.tailD := by
  unfold Core.setCtx; split <;> [rfl; split <;> rfl]
@[simp] theorem Core.mapCtx_tailD (n : BitVec 2) (f : Ctx → Ctx) : (c.mapCtx n f).tailD = c.tailD := Core.setCtx_tailD c n _
@[simp] theorem Core.setCtx_mcast (n : BitVec 2) (x : Ctx) : (c.setCtx n x).mcast = c.mcast := by
  unfold Core.setCtx; split <;> [rfl; split <;> rfl]
@[simp] theorem Core.mapCtx_mcast (n : BitVec 2) (f : Ctx → Ctx) : (c.mapCtx n f).mcast = c.mcast := Core.setCtx_mcast c n _
@[simp] theorem Core.setCtx_acc (n : BitVec 2) (x : Ctx) : (c.setCtx n x).acc = c.acc := by
  unfold Core.setCtx; split <;> [rfl; split <;> rfl]
@[simp] theorem Core.mapCtx_acc (n : BitVec 2) (f : Ctx → Ctx) : (c.mapCtx n f).acc = c.acc := Core.setCtx_acc c n _
@[simp] theorem Core.setCtx_fa (n : BitVec 2) (x : Ctx) : (c.setCtx n x).fa = c.fa := by
  unfold Core.setCtx; split <;> [rfl; split <;> rfl]
@[simp] theorem Core.mapCtx_fa (n : BitVec 2) (f : Ctx → Ctx) : (c.mapCtx n f).fa = c.fa := Core.setCtx_fa c n _
@[simp] theorem Core.setCtx_fb (n : BitVec 2) (x : Ctx) : (c.setCtx n x).fb = c.fb := by
  unfold Core.setCtx; split <;> [rfl; split <;> rfl]
@[simp] theorem Core.mapCtx_fb (n : BitVec 2) (f : Ctx → Ctx) : (c.mapCtx n f).fb = c.fb := Core.setCtx_fb c n _
@[simp] theorem Core.setCtx_spad (n : BitVec 2) (x : Ctx) : (c.setCtx n x).spad = c.spad := by
  unfold Core.setCtx; split <;> [rfl; split <;> rfl]
@[simp] theorem Core.mapCtx_spad (n : BitVec 2) (f : Ctx → Ctx) : (c.mapCtx n f).spad = c.spad := Core.setCtx_spad c n _
@[simp] theorem Core.setCtx_spadPoison (n : BitVec 2) (x : Ctx) : (c.setCtx n x).spadPoison = c.spadPoison := by
  unfold Core.setCtx; split <;> [rfl; split <;> rfl]
@[simp] theorem Core.mapCtx_spadPoison (n : BitVec 2) (f : Ctx → Ctx) : (c.mapCtx n f).spadPoison = c.spadPoison := Core.setCtx_spadPoison c n _
@[simp] theorem Core.setCtx_linePoison (n : BitVec 2) (x : Ctx) : (c.setCtx n x).linePoison = c.linePoison := by
  unfold Core.setCtx; split <;> [rfl; split <;> rfl]
@[simp] theorem Core.mapCtx_linePoison (n : BitVec 2) (f : Ctx → Ctx) : (c.mapCtx n f).linePoison = c.linePoison := Core.setCtx_linePoison c n _
@[simp] theorem Core.setCtx_dupPoison (n : BitVec 2) (x : Ctx) : (c.setCtx n x).dupPoison = c.dupPoison := by
  unfold Core.setCtx; split <;> [rfl; split <;> rfl]
@[simp] theorem Core.mapCtx_dupPoison (n : BitVec 2) (f : Ctx → Ctx) : (c.mapCtx n f).dupPoison = c.dupPoison := Core.setCtx_dupPoison c n _
@[simp] theorem Core.setCtx_bornSuspect (n : BitVec 2) (x : Ctx) : (c.setCtx n x).bornSuspect = c.bornSuspect := by
  unfold Core.setCtx; split <;> [rfl; split <;> rfl]
@[simp] theorem Core.mapCtx_bornSuspect (n : BitVec 2) (f : Ctx → Ctx) : (c.mapCtx n f).bornSuspect = c.bornSuspect := Core.setCtx_bornSuspect c n _
@[simp] theorem Core.setCtx_sched (n : BitVec 2) (x : Ctx) : (c.setCtx n x).sched = c.sched := by
  unfold Core.setCtx; split <;> [rfl; split <;> rfl]
@[simp] theorem Core.mapCtx_sched (n : BitVec 2) (f : Ctx → Ctx) : (c.mapCtx n f).sched = c.sched := Core.setCtx_sched c n _
@[simp] theorem Core.setCtx_cyc (n : BitVec 2) (x : Ctx) : (c.setCtx n x).cyc = c.cyc := by
  unfold Core.setCtx; split <;> [rfl; split <;> rfl]
@[simp] theorem Core.mapCtx_cyc (n : BitVec 2) (f : Ctx → Ctx) : (c.mapCtx n f).cyc = c.cyc := Core.setCtx_cyc c n _
@[simp] theorem Core.setCtx_rank (n : BitVec 2) (x : Ctx) : (c.setCtx n x).rank = c.rank := by
  unfold Core.setCtx; split <;> [rfl; split <;> rfl]
@[simp] theorem Core.mapCtx_rank (n : BitVec 2) (f : Ctx → Ctx) : (c.mapCtx n f).rank = c.rank := Core.setCtx_rank c n _
@[simp] theorem Core.setCtx_team (n : BitVec 2) (x : Ctx) : (c.setCtx n x).team = c.team := by
  unfold Core.setCtx; split <;> [rfl; split <;> rfl]
@[simp] theorem Core.mapCtx_team (n : BitVec 2) (f : Ctx → Ctx) : (c.mapCtx n f).team = c.team := Core.setCtx_team c n _
@[simp] theorem Core.setCtx_asid (n : BitVec 2) (x : Ctx) : (c.setCtx n x).asid = c.asid := by
  unfold Core.setCtx; split <;> [rfl; split <;> rfl]
@[simp] theorem Core.mapCtx_asid (n : BitVec 2) (f : Ctx → Ctx) : (c.mapCtx n f).asid = c.asid := Core.setCtx_asid c n _
@[simp] theorem Core.setCtx_ckey (n : BitVec 2) (x : Ctx) : (c.setCtx n x).ckey = c.ckey := by
  unfold Core.setCtx; split <;> [rfl; split <;> rfl]
@[simp] theorem Core.mapCtx_ckey (n : BitVec 2) (f : Ctx → Ctx) : (c.mapCtx n f).ckey = c.ckey := Core.setCtx_ckey c n _
@[simp] theorem Core.setCtx_frame0 (n : BitVec 2) (x : Ctx) : (c.setCtx n x).frame0 = c.frame0 := by
  unfold Core.setCtx; split <;> [rfl; split <;> rfl]
@[simp] theorem Core.mapCtx_frame0 (n : BitVec 2) (f : Ctx → Ctx) : (c.mapCtx n f).frame0 = c.frame0 := Core.setCtx_frame0 c n _
@[simp] theorem Core.setCtx_frame1 (n : BitVec 2) (x : Ctx) : (c.setCtx n x).frame1 = c.frame1 := by
  unfold Core.setCtx; split <;> [rfl; split <;> rfl]
@[simp] theorem Core.mapCtx_frame1 (n : BitVec 2) (f : Ctx → Ctx) : (c.mapCtx n f).frame1 = c.frame1 := Core.setCtx_frame1 c n _
@[simp] theorem Core.setCtx_latest (n : BitVec 2) (x : Ctx) : (c.setCtx n x).latest = c.latest := by
  unfold Core.setCtx; split <;> [rfl; split <;> rfl]
@[simp] theorem Core.mapCtx_latest (n : BitVec 2) (f : Ctx → Ctx) : (c.mapCtx n f).latest = c.latest := Core.setCtx_latest c n _
@[simp] theorem Core.setCtx_inline (n : BitVec 2) (x : Ctx) : (c.setCtx n x).inline = c.inline := by
  unfold Core.setCtx; split <;> [rfl; split <;> rfl]
@[simp] theorem Core.mapCtx_inline (n : BitVec 2) (f : Ctx → Ctx) : (c.mapCtx n f).inline = c.inline := Core.setCtx_inline c n _
@[simp] theorem Core.setCtx_inlineBit (n : BitVec 2) (x : Ctx) : (c.setCtx n x).inlineBit = c.inlineBit := by
  unfold Core.setCtx; split <;> [rfl; split <;> rfl]
@[simp] theorem Core.mapCtx_inlineBit (n : BitVec 2) (f : Ctx → Ctx) : (c.mapCtx n f).inlineBit = c.inlineBit := Core.setCtx_inlineBit c n _
@[simp] theorem Core.setCtx_dupCall (n : BitVec 2) (x : Ctx) : (c.setCtx n x).dupCall = c.dupCall := by
  unfold Core.setCtx; split <;> [rfl; split <;> rfl]
@[simp] theorem Core.mapCtx_dupCall (n : BitVec 2) (f : Ctx → Ctx) : (c.mapCtx n f).dupCall = c.dupCall := Core.setCtx_dupCall c n _
@[simp] theorem Core.setCtx_mq (n : BitVec 2) (x : Ctx) : (c.setCtx n x).mq = c.mq := by
  unfold Core.setCtx; split <;> [rfl; split <;> rfl]
@[simp] theorem Core.mapCtx_mq (n : BitVec 2) (f : Ctx → Ctx) : (c.mapCtx n f).mq = c.mq := Core.setCtx_mq c n _
@[simp] theorem Core.setCtx_apend (n : BitVec 2) (x : Ctx) : (c.setCtx n x).apend = c.apend := by
  unfold Core.setCtx; split <;> [rfl; split <;> rfl]
@[simp] theorem Core.mapCtx_apend (n : BitVec 2) (f : Ctx → Ctx) : (c.mapCtx n f).apend = c.apend := Core.setCtx_apend c n _
@[simp] theorem Core.setCtx_mEnd (n : BitVec 2) (x : Ctx) : (c.setCtx n x).mEnd = c.mEnd := by
  unfold Core.setCtx; split <;> [rfl; split <;> rfl]
@[simp] theorem Core.mapCtx_mEnd (n : BitVec 2) (f : Ctx → Ctx) : (c.mapCtx n f).mEnd = c.mEnd := Core.setCtx_mEnd c n _
@[simp] theorem Core.setCtx_mOff (n : BitVec 2) (x : Ctx) : (c.setCtx n x).mOff = c.mOff := by
  unfold Core.setCtx; split <;> [rfl; split <;> rfl]
@[simp] theorem Core.mapCtx_mOff (n : BitVec 2) (f : Ctx → Ctx) : (c.mapCtx n f).mOff = c.mOff := Core.setCtx_mOff c n _
@[simp] theorem Core.setCtx_q0 (n : BitVec 2) (x : Ctx) : (c.setCtx n x).q0 = c.q0 := by
  unfold Core.setCtx; split <;> [rfl; split <;> rfl]
@[simp] theorem Core.mapCtx_q0 (n : BitVec 2) (f : Ctx → Ctx) : (c.mapCtx n f).q0 = c.q0 := Core.setCtx_q0 c n _
@[simp] theorem Core.setCtx_q1 (n : BitVec 2) (x : Ctx) : (c.setCtx n x).q1 = c.q1 := by
  unfold Core.setCtx; split <;> [rfl; split <;> rfl]
@[simp] theorem Core.mapCtx_q1 (n : BitVec 2) (f : Ctx → Ctx) : (c.mapCtx n f).q1 = c.q1 := Core.setCtx_q1 c n _
@[simp] theorem Core.setCtx_reqs (n : BitVec 2) (x : Ctx) : (c.setCtx n x).reqs = c.reqs := by
  unfold Core.setCtx; split <;> [rfl; split <;> rfl]
@[simp] theorem Core.mapCtx_reqs (n : BitVec 2) (f : Ctx → Ctx) : (c.mapCtx n f).reqs = c.reqs := Core.setCtx_reqs c n _
@[simp] theorem Core.setCtx_nextId (n : BitVec 2) (x : Ctx) : (c.setCtx n x).nextId = c.nextId := by
  unfold Core.setCtx; split <;> [rfl; split <;> rfl]
@[simp] theorem Core.mapCtx_nextId (n : BitVec 2) (f : Ctx → Ctx) : (c.mapCtx n f).nextId = c.nextId := Core.setCtx_nextId c n _
@[simp] theorem Core.setCtx_busy (n : BitVec 2) (x : Ctx) : (c.setCtx n x).busy = c.busy := by
  unfold Core.setCtx; split <;> [rfl; split <;> rfl]
@[simp] theorem Core.mapCtx_busy (n : BitVec 2) (f : Ctx → Ctx) : (c.mapCtx n f).busy = c.busy := Core.setCtx_busy c n _
@[simp] theorem Core.setCtx_divFree (n : BitVec 2) (x : Ctx) : (c.setCtx n x).divFree = c.divFree := by
  unfold Core.setCtx; split <;> [rfl; split <;> rfl]
@[simp] theorem Core.mapCtx_divFree (n : BitVec 2) (f : Ctx → Ctx) : (c.mapCtx n f).divFree = c.divFree := Core.setCtx_divFree c n _
@[simp] theorem Core.setCtx_once (n : BitVec 2) (x : Ctx) : (c.setCtx n x).once = c.once := by
  unfold Core.setCtx; split <;> [rfl; split <;> rfl]
@[simp] theorem Core.mapCtx_once (n : BitVec 2) (f : Ctx → Ctx) : (c.mapCtx n f).once = c.once := Core.setCtx_once c n _
@[simp] theorem Core.setCtx_ro (n : BitVec 2) (x : Ctx) : (c.setCtx n x).ro = c.ro := by
  unfold Core.setCtx; split <;> [rfl; split <;> rfl]
@[simp] theorem Core.mapCtx_ro (n : BitVec 2) (f : Ctx → Ctx) : (c.mapCtx n f).ro = c.ro := Core.setCtx_ro c n _
@[simp] theorem Core.setCtx_bmc (n : BitVec 2) (x : Ctx) : (c.setCtx n x).bmc = c.bmc := by
  unfold Core.setCtx; split <;> [rfl; split <;> rfl]
@[simp] theorem Core.mapCtx_bmc (n : BitVec 2) (f : Ctx → Ctx) : (c.mapCtx n f).bmc = c.bmc := Core.setCtx_bmc c n _
@[simp] theorem Core.setCtx_utlb (n : BitVec 2) (x : Ctx) : (c.setCtx n x).utlb = c.utlb := by
  unfold Core.setCtx; split <;> [rfl; split <;> rfl]
@[simp] theorem Core.mapCtx_utlb (n : BitVec 2) (f : Ctx → Ctx) : (c.mapCtx n f).utlb = c.utlb := Core.setCtx_utlb c n _
@[simp] theorem Core.setCtx_ctlb (n : BitVec 2) (x : Ctx) : (c.setCtx n x).ctlb = c.ctlb := by
  unfold Core.setCtx; split <;> [rfl; split <;> rfl]
@[simp] theorem Core.mapCtx_ctlb (n : BitVec 2) (f : Ctx → Ctx) : (c.mapCtx n f).ctlb = c.ctlb := Core.setCtx_ctlb c n _
@[simp] theorem Core.setCtx_overlay (n : BitVec 2) (x : Ctx) : (c.setCtx n x).overlay = c.overlay := by
  unfold Core.setCtx; split <;> [rfl; split <;> rfl]
@[simp] theorem Core.mapCtx_overlay (n : BitVec 2) (f : Ctx → Ctx) : (c.mapCtx n f).overlay = c.overlay := Core.setCtx_overlay c n _
@[simp] theorem Core.setCtx_cur (n : BitVec 2) (x : Ctx) : (c.setCtx n x).cur = c.cur := by
  unfold Core.setCtx; split <;> [rfl; split <;> rfl]
@[simp] theorem Core.mapCtx_cur (n : BitVec 2) (f : Ctx → Ctx) : (c.mapCtx n f).cur = c.cur := Core.setCtx_cur c n _
@[simp] theorem Core.setCtx_frozen (n : BitVec 2) (x : Ctx) : (c.setCtx n x).frozen = c.frozen := by
  unfold Core.setCtx; split <;> [rfl; split <;> rfl]
@[simp] theorem Core.mapCtx_frozen (n : BitVec 2) (f : Ctx → Ctx) : (c.mapCtx n f).frozen = c.frozen := Core.setCtx_frozen c n _
@[simp] theorem Core.setCtx_save (n : BitVec 2) (x : Ctx) : (c.setCtx n x).save = c.save := by
  unfold Core.setCtx; split <;> [rfl; split <;> rfl]
@[simp] theorem Core.mapCtx_save (n : BitVec 2) (f : Ctx → Ctx) : (c.mapCtx n f).save = c.save := Core.setCtx_save c n _
@[simp] theorem Core.setCtx_ending (n : BitVec 2) (x : Ctx) : (c.setCtx n x).ending = c.ending := by
  unfold Core.setCtx; split <;> [rfl; split <;> rfl]
@[simp] theorem Core.mapCtx_ending (n : BitVec 2) (f : Ctx → Ctx) : (c.mapCtx n f).ending = c.ending := Core.setCtx_ending c n _
@[simp] theorem Core.setCtx_deadline (n : BitVec 2) (x : Ctx) : (c.setCtx n x).deadline = c.deadline := by
  unfold Core.setCtx; split <;> [rfl; split <;> rfl]
@[simp] theorem Core.mapCtx_deadline (n : BitVec 2) (f : Ctx → Ctx) : (c.mapCtx n f).deadline = c.deadline := Core.setCtx_deadline c n _
@[simp] theorem Core.setCtx_latePosted (n : BitVec 2) (x : Ctx) : (c.setCtx n x).latePosted = c.latePosted := by
  unfold Core.setCtx; split <;> [rfl; split <;> rfl]
@[simp] theorem Core.mapCtx_latePosted (n : BitVec 2) (f : Ctx → Ctx) : (c.mapCtx n f).latePosted = c.latePosted := Core.setCtx_latePosted c n _
@[simp] theorem Core.setCtx_overPosted (n : BitVec 2) (x : Ctx) : (c.setCtx n x).overPosted = c.overPosted := by
  unfold Core.setCtx; split <;> [rfl; split <;> rfl]
@[simp] theorem Core.mapCtx_overPosted (n : BitVec 2) (f : Ctx → Ctx) : (c.mapCtx n f).overPosted = c.overPosted := Core.setCtx_overPosted c n _
@[simp] theorem Core.setCtx_triggered (n : BitVec 2) (x : Ctx) : (c.setCtx n x).triggered = c.triggered := by
  unfold Core.setCtx; split <;> [rfl; split <;> rfl]
@[simp] theorem Core.mapCtx_triggered (n : BitVec 2) (f : Ctx → Ctx) : (c.mapCtx n f).triggered = c.triggered := Core.setCtx_triggered c n _
@[simp] theorem Core.setCtx_bound (n : BitVec 2) (x : Ctx) : (c.setCtx n x).bound = c.bound := by
  unfold Core.setCtx; split <;> [rfl; split <;> rfl]
@[simp] theorem Core.mapCtx_bound (n : BitVec 2) (f : Ctx → Ctx) : (c.mapCtx n f).bound = c.bound := Core.setCtx_bound c n _

/-- The context that was set reads as it was set. -/
@[simp] theorem Core.setCtx_same (n : BitVec 2) (x : Ctx) : (c.setCtx n x).ctx n = x := by
  unfold Core.setCtx Core.ctx
  split <;> [rfl; split <;> rfl]

@[simp] theorem Core.mapCtx_same (n : BitVec 2) (f : Ctx → Ctx) : (c.mapCtx n f).ctx n = f (c.ctx n) := by
  simp [Core.mapCtx]

/-- Setting a context to what it is changes nothing. -/
@[simp] theorem Core.setCtx_self (n : BitVec 2) : c.setCtx n (c.ctx n) = c := by
  unfold Core.setCtx Core.ctx
  split <;> [rfl; split <;> rfl]

@[simp] theorem Core.mapCtx_id (n : BitVec 2) : c.mapCtx n (fun x => x) = c := by simp [Core.mapCtx]

/-! ## The issuing context after an update -/

@[simp] theorem State.mapCtx_ctx (f : Ctx → Ctx) : (s.mapCtx f).ctx = f s.ctx := by
  simp [State.ctx]

@[simp] theorem State.mapRegs_ctx (f : Priv → Priv) : (s.mapRegs f).ctx = { s.ctx with regs := f s.ctx.regs } := by
  simp [State.ctx]

@[simp] theorem State.mapSh_ctx (f : Shared → Shared) : (s.mapSh f).ctx = s.ctx := rfl

@[simp] theorem State.mapRegs_id : s.mapRegs (fun r => r) = s := by
  unfold State.mapRegs State.mapCtx State.mapCore
  simp

@[simp] theorem Core.setCtx_setCtx (n : BitVec 2) (x y : Ctx) : (c.setCtx n x).setCtx n y = c.setCtx n y := by
  unfold Core.setCtx
  split <;> [rfl; split <;> rfl]

@[simp] theorem Core.mapCtx_mapCtx (n : BitVec 2) (f g : Ctx → Ctx) :
    (c.mapCtx n f).mapCtx n g = c.mapCtx n (fun x => g (f x)) := by
  rw [Core.mapCtx, Core.mapCtx_same, Core.mapCtx, Core.setCtx_setCtx]
  rfl

@[simp] theorem State.mapCore_mapCore (f g : Core → Core) : (s.mapCore f).mapCore g = s.mapCore (fun c => g (f c)) := rfl

@[simp] theorem State.mapCtx_mapCtx (f g : Ctx → Ctx) : (s.mapCtx f).mapCtx g = s.mapCtx (fun x => g (f x)) := by
  simp [State.mapCtx]

@[simp] theorem State.mapRegs_mapRegs (f g : Priv → Priv) : (s.mapRegs f).mapRegs g = s.mapRegs (fun r => g (f r)) := by
  simp [State.mapRegs]

@[simp] theorem State.mapSh_mapSh (f g : Shared → Shared) : (s.mapSh f).mapSh g = s.mapSh (fun r => g (f r)) := rfl

end Sys2Proof.Machine
end

