-- ==== Sys2Proof/Laws/Memory.lean ====
section
/-!
SUPPORT. The laws of memory: a write keeps the canonical form, and a read after a write gives what was written there and what stood
elsewhere.
-/
namespace Sys2Proof.Machine

/-! ## The canonical form -/

/-- Every listed address is at least `a`. -/
def Memory.above (a : Nat) : List Host.Cell → Bool
  | [] => true
  | c :: _ => decide (a ≤ c.1)

theorem Memory.wf_cons (c : Host.Cell) (m : List Host.Cell) :
    Memory.wf (c :: m) = (c.2 != unlisted && Memory.above (c.1 + 1) m && Memory.wf m) := by
  cases m with
  | nil => simp [Memory.wf, Memory.above]
  | cons d m => simp [Memory.wf, Memory.above]

@[simp] theorem Memory.wf_nil : Memory.wf [] = true := rfl

theorem Memory.above_mono {a b : Nat} (h : b ≤ a) {m : List Host.Cell} (hm : Memory.above a m = true) :
    Memory.above b m = true := by
  cases m with
  | nil => rfl
  | cons c m => simp only [Memory.above, decide_eq_true_eq] at *; omega

theorem Memory.cell_wf {a : Nat} {b : Byte} {m : List Host.Cell} (ha : Memory.above (a + 1) m = true)
    (hm : Memory.wf m = true) : Memory.wf (Memory.cell a b m) = true := by
  unfold Memory.cell
  split
  · exact hm
  · next hb => rw [Memory.wf_cons]; simp [ha, hm, hb]

theorem Memory.cell_above {a k : Nat} {b : Byte} {m : List Host.Cell} (hk : k ≤ a) (hm : Memory.above k m = true) :
    Memory.above k (Memory.cell a b m) = true := by
  unfold Memory.cell
  split
  · exact hm
  · simpa [Memory.above] using hk

theorem Memory.write_above {a k : Nat} {b : Byte} {m : List Host.Cell} (hk : k ≤ a) (hm : Memory.above k m = true)
    (hw : Memory.wf m = true) : Memory.above k (Memory.write m a b) = true := by
  cases m with
  | nil => exact Memory.cell_above hk rfl
  | cons c m =>
    rw [Memory.wf_cons] at hw
    simp only [Bool.and_eq_true] at hw
    simp only [Memory.above, decide_eq_true_eq] at hm
    unfold Memory.write
    split
    · simpa [Memory.above] using hm
    · split
      · exact Memory.cell_above hk (Memory.above_mono (by omega) hw.1.2)
      · exact Memory.cell_above hk (by simpa [Memory.above] using hm)

/-- A write keeps the canonical form. -/
theorem Memory.write_wf (a : Nat) (b : Byte) {m : List Host.Cell} (hm : Memory.wf m = true) :
    Memory.wf (Memory.write m a b) = true := by
  induction m with
  | nil => exact Memory.cell_wf rfl rfl
  | cons c m ih =>
    have hw := hm
    rw [Memory.wf_cons] at hw
    simp only [Bool.and_eq_true] at hw
    unfold Memory.write
    split
    · next h =>
      rw [Memory.wf_cons]
      simp only [Bool.and_eq_true]
      exact ⟨⟨hw.1.1, Memory.write_above (by omega) hw.1.2 hw.2⟩, ih hw.2⟩
    · split
      · next h => exact Memory.cell_wf (by rw [← h]; exact hw.1.2) hw.2
      · exact Memory.cell_wf (by simp only [Memory.above, decide_eq_true_eq]; omega) hm

/-- Any list of writes keeps the canonical form. -/
theorem Memory.foldl_write_wf (ws : List (Nat × Byte)) {m : List Host.Cell} (hm : Memory.wf m = true) :
    Memory.wf (ws.foldl (fun (m : List Host.Cell) w => Memory.write m w.1 w.2) m) = true := by
  induction ws generalizing m with
  | nil => exact hm
  | cons w ws ih => exact ih (Memory.write_wf _ _ hm)

theorem Memory.writeList_wf (bs : List Byte) (a : Nat) {m : List Host.Cell} (hm : Memory.wf m = true) :
    Memory.wf (Memory.writeList m a bs) = true := by
  induction bs generalizing m a with
  | nil => exact hm
  | cons b bs ih => exact ih _ (Memory.write_wf _ _ hm)

/-! ## Reads after writes -/

/-- Below every listed address a memory reads as unlisted. -/
theorem Memory.read_below {a : Nat} {m : List Host.Cell} (h : Memory.above (a + 1) m = true) :
    Memory.read m a = unlisted := by
  cases m with
  | nil => rfl
  | cons c m =>
    simp only [Memory.above, decide_eq_true_eq] at h
    unfold Memory.read
    rw [if_neg (by omega), if_pos (by omega)]

theorem Memory.read_cell {a x : Nat} {b : Byte} {m : List Host.Cell} (h : Memory.above (a + 1) m = true) :
    Memory.read (Memory.cell a b m) x = if x = a then b else Memory.read m x := by
  unfold Memory.cell
  split
  · next hb =>
    split
    · next hx => rw [hx, hb]; exact Memory.read_below h
    · rfl
  · by_cases hx : x = a
    · simp [Memory.read, hx]
    · by_cases hl : x < a
      · rw [if_neg hx, Memory.read_below (Memory.above_mono (by omega) h)]
        simp [Memory.read, hl, Ne.symm hx]
      · simp [Memory.read, hx, hl, Ne.symm hx]

/-- A read after a write. -/
theorem Memory.read_write {m : List Host.Cell} (hm : Memory.wf m = true) (a : Nat) (b : Byte) (x : Nat) :
    Memory.read (Memory.write m a b) x = if x = a then b else Memory.read m x := by
  induction m with
  | nil => exact Memory.read_cell rfl
  | cons c m ih =>
    rw [Memory.wf_cons] at hm
    simp only [Bool.and_eq_true] at hm
    unfold Memory.write
    split
    · next h =>
      have := ih hm.2
      by_cases hc : c.1 = x
      · simp only [Memory.read, hc, if_true]; rw [if_neg (by omega)]
      · by_cases hl : x < c.1
        · simp only [Memory.read, hc, hl, if_false, if_true]; rw [if_neg (by omega)]
        · simp only [Memory.read, hc, hl, if_false, this]
    · split
      · next h =>
        rw [Memory.read_cell (by rw [← h]; exact hm.1.2)]
        split
        · rfl
        · next hx =>
          have hcx : ¬ c.1 = x := by omega
          by_cases hl : x < c.1
          · simp only [Memory.read, hcx, hl, if_false, if_true]
            exact Memory.read_below (Memory.above_mono (by omega) hm.1.2)
          · simp only [Memory.read, hcx, hl, if_false]
      · rw [Memory.read_cell (by simp only [Memory.above, decide_eq_true_eq]; omega)]

/-- Where a list of writes names no byte at `x`, the byte at `x` stays. -/
theorem Memory.foldl_write_other {ws : List (Nat × Byte)} {x : Nat} (hx : ∀ w ∈ ws, w.1 ≠ x) {m : List Host.Cell}
    (hm : Memory.wf m = true) :
    Memory.read (ws.foldl (fun (m : List Host.Cell) w => Memory.write m w.1 w.2) m) x = Memory.read m x := by
  induction ws generalizing m with
  | nil => rfl
  | cons w ws ih =>
    rw [List.foldl_cons, ih (fun v hv => hx v (List.mem_cons_of_mem _ hv)) (Memory.write_wf _ _ hm),
      Memory.read_write hm, if_neg (Ne.symm (hx w List.mem_cons_self))]

/-! ## The operations that write device memory and scratchpads -/

theorem State.reset_mem_wf : Memory.wf State.reset.mem = true := rfl

theorem State.homeCells_wf {s : State} (ws : List (Nat × Byte)) (h : Memory.wf s.mem = true) :
    Memory.wf (s.homeCells ws).mem = true := Memory.foldl_write_wf ws h

theorem State.homeStep_wf {s : State} (pa : Nat) (bs : List Byte) (h : Memory.wf s.mem = true) :
    Memory.wf (s.homeStep pa bs).mem = true := State.homeCells_wf _ h

/-- An access that joins a quiesced channel changes only what the quiesced channels hold. -/
theorem State.joinHeld_frame (s : State) (key : HeldAcc) (pa : Nat) :
    s.joinHeld key pa = { s with quiesces := (s.joinHeld key pa).quiesces } := by
  unfold State.joinHeld
  split <;> rfl

theorem State.requeued_mem (s : State) (pa n : Nat) : (s.requeued pa n).mem = s.mem := by
  unfold State.requeued
  rfl

theorem State.writeStep_wf {s : State} (ctl : Option (BitVec 3)) (pa : Nat) (bs : List Byte) (h : Memory.wf s.mem = true) :
    Memory.wf (s.writeStep ctl pa bs).mem = true := by
  unfold State.writeStep
  refine State.homeStep_wf _ _ ?_
  split
  · rw [State.requeued_mem]; exact h
  · exact h

theorem State.homeWriteBy_wf {s : State} (ctl : Option (BitVec 3)) (pa : Nat) (bs : List Byte) (h : Memory.wf s.mem = true) :
    Memory.wf (s.homeWriteBy ctl pa bs).mem = true := by
  unfold State.homeWriteBy
  dsimp only
  split
  · rw [State.joinHeld_frame]; exact h
  · split
    · exact h
    · exact State.writeStep_wf _ _ _ h

theorem State.homeWrite_wf {s : State} (pa : Nat) (bs : List Byte) (h : Memory.wf s.mem = true) :
    Memory.wf (s.homeWrite pa bs).mem = true := State.homeWriteBy_wf none pa bs h

theorem State.homeWriteLE_wf {s : State} (pa n x : Nat) (h : Memory.wf s.mem = true) :
    Memory.wf (s.homeWriteLE pa n x).mem = true := State.homeWrite_wf _ _ h

theorem State.ringPut_wf {s : State} (d : BitVec 2) (r : BitVec 512) (h : Memory.wf s.mem = true) :
    Memory.wf (s.ringPut d r).mem = true := State.homeWrite_wf _ _ h

theorem State.postRecord_wf {s : State} (d : BitVec 2) (t : Option (BitVec 7 × BitVec 2)) (r : BitVec 512) (h : Memory.wf s.mem = true) :
    Memory.wf (s.postRecord d t r).mem = true := by
  unfold State.postRecord
  split
  · exact h
  · exact State.ringPut_wf _ _ h

theorem Core.spadPut_wf {c : Core} (e : Bool) (ws : List (Nat × Byte)) (h : Memory.wf c.spad = true) :
    Memory.wf (c.spadPut e ws).spad = true := Memory.foldl_write_wf ws h

/-- What a store of bytes leaves elsewhere in the scratchpad. -/
theorem Core.spadPut_other {c : Core} (e : Bool) {ws : List (Nat × Byte)} {x : Nat} (hx : ∀ w ∈ ws, w.1 ≠ x)
    (h : Memory.wf c.spad = true) : Memory.read (c.spadPut e ws).spad x = Memory.read c.spad x :=
  Memory.foldl_write_other hx h

end Sys2Proof.Machine
end

