-- ==== Sys2Proof/Laws/Homes.lean ====
section
/-!
SUPPORT. What a home step, a write at home, a posted fault record and a scratchpad write do, said once.
-/
namespace Sys2Proof.Machine

/-- Consecutive bytes written one by one. -/
theorem Memory.read_writeBytes (bs : List Byte) : ∀ (k pa : Nat) {m : List Host.Cell}, Memory.wf m = true → ∀ x,
    Memory.read (((bs.zipIdx k).map fun b => (pa + b.2, b.1)).foldl (fun (m : List Host.Cell) w => Memory.write m w.1 w.2) m) x =
      if pa + k ≤ x ∧ x < pa + k + bs.length then bs.getD (x - (pa + k)) 0 else Memory.read m x := by
  induction bs with
  | nil =>
    intro k pa m _ x
    simp
  | cons b bs ih =>
    intro k pa m hm x
    simp only [List.zipIdx_cons, List.map_cons, List.foldl_cons, List.length_cons]
    rw [ih (k + 1) pa (Memory.write_wf _ _ hm) x, Memory.read_write hm]
    by_cases h : x = pa + k
    · subst h
      rw [if_neg (by omega), if_pos rfl, if_pos (by omega), Nat.sub_self, List.getD_cons_zero]
    · by_cases h1 : pa + (k + 1) ≤ x ∧ x < pa + (k + 1) + bs.length
      · rw [if_pos h1, if_pos (by omega), show x - (pa + k) = (x - (pa + (k + 1))) + 1 by omega, List.getD_cons_succ]
      · rw [if_neg h1, if_neg h, if_neg (by omega)]

/-- A home step puts its bytes in place and no other. -/
theorem State.homeStep_read {s : State} (pa : Nat) (bs : List Byte) (h : Memory.wf s.mem = true) (x : Nat) :
    Memory.read (s.homeStep pa bs).mem x = if pa ≤ x ∧ x < pa + bs.length then bs.getD (x - pa) 0 else Memory.read s.mem x :=
  Memory.read_writeBytes bs 0 pa h x

/-- A write at home whose channel is not quiesced, and that nothing else holds, puts its bytes in place and no other. -/
theorem State.homeWrite_read {s : State} (pa : Nat) (bs : List Byte) (h : Memory.wf s.mem = true) (hq : s.quiesced pa = false)
    (hs : s.stalls pa = false) (x : Nat) :
    Memory.read (s.homeWrite pa bs).mem x = if pa ≤ x ∧ x < pa + bs.length then bs.getD (x - pa) 0 else Memory.read s.mem x := by
  simp only [State.homeWrite, State.homeWriteBy, hq, hs, Bool.false_eq_true, if_false, State.writeStep, Option.isSome_none]
  exact State.homeStep_read pa bs h x

/-- A write at home whose channel is quiesced changes no byte (R405). -/
theorem State.homeWrite_held {s : State} (pa : Nat) (bs : List Byte) (hq : s.quiesced pa = true) : (s.homeWrite pa bs).mem = s.mem := by
  simp only [State.homeWrite, State.homeWriteBy, hq, if_true]
  rw [State.joinHeld_frame]

/-- A write at home changes device memory, poison, digest entries and what home holds only. -/
theorem State.homeWrite_frame (s : State) (pa : Nat) (bs : List Byte) :
    s.homeWrite pa bs = { s with
      mem := (s.homeWrite pa bs).mem, poison := (s.homeWrite pa bs).poison, digests := (s.homeWrite pa bs).digests,
      quiesces := (s.homeWrite pa bs).quiesces, stalled := (s.homeWrite pa bs).stalled } := by
  unfold State.homeWrite State.homeWriteBy
  dsimp only
  split
  · rw [State.joinHeld_frame]
  · split <;> rfl

/-- A record posted to a ring with room: the ring's producer counts it and its interrupt is raised; besides the ring, a write at home changes what it may. -/
theorem State.postRecord_room {s : State} (d : BitVec 2) (t : Option (BitVec 7 × BitVec 2)) (r : BitVec 512) (h : s.ringFull d = false)
    (hw : ∀ w ∈ s.recWait, w.die ≠ d) :
    s.postRecord d t r = s.ringPut d r := by
  have : (s.recWait.any fun w => decide (w.die = d)) = false := by
    rw [List.any_eq_false]
    intro w hw'
    simpa using hw w hw'
  simp [State.postRecord, State.postWaits, h, this]

theorem State.ringPut_rings (s : State) (d : BitVec 2) (r : BitVec 512) :
    (s.ringPut d r).rings = s.rings.write d { s.rings.read d with prod := (s.rings.read d).prod + 1, irq := true } := by
  unfold State.ringPut
  dsimp only
  rw [State.homeWrite_frame]

/-- A record that finds no room waits behind the others (R386). -/
theorem State.postRecord_full {s : State} (d : BitVec 2) (t : Option (BitVec 7 × BitVec 2)) (r : BitVec 512) (h : s.ringFull d = true) :
    s.postRecord d t r = { s with recWait := s.recWait ++ [⟨d, t, r⟩] } := by
  simp [State.postRecord, State.postWaits, h]

end Sys2Proof.Machine
end

