-- ==== Sys2Proof/Laws/PerInstr.lean ====
section
/-!
SUPPORT. Statements made for every instruction: which instructions have an encoding.
-/
namespace Sys2Proof.Laws

/-- An instruction has an encoding exactly when it stands in a slot; an event has none. -/
def Encoded.Statement (i : Instr) : Prop := (encode i).isSome = i.homeSlot.isSome

theorem Encoded.nopb : ∀ x0 x1, Encoded.Statement (.nopb x0 x1) := fun _ _ => rfl
theorem Encoded.callr : ∀ x0 x1 x2, Encoded.Statement (.callr x0 x1 x2) := fun _ _ _ => rfl
theorem Encoded.ret : ∀ x0 x1 x2, Encoded.Statement (.ret x0 x1 x2) := fun _ _ _ => rfl
theorem Encoded.relc : ∀ x0 x1 x2 x3, Encoded.Statement (.relc x0 x1 x2 x3) := fun _ _ _ _ => rfl
theorem Encoded.fjoin : ∀ x0 x1 x2 x3, Encoded.Statement (.fjoin x0 x1 x2 x3) := fun _ _ _ _ => rfl
theorem Encoded.tend : ∀ x0 x1, Encoded.Statement (.tend x0 x1) := fun _ _ => rfl
theorem Encoded.endMember : ∀ x0 x1, Encoded.Statement (.endMember x0 x1) := fun _ _ => rfl
theorem Encoded.loop : ∀ x0 x1 x2 x3, Encoded.Statement (.loop x0 x1 x2 x3) := fun _ _ _ _ => rfl
theorem Encoded.loopx : ∀ x0 x1 x2 x3, Encoded.Statement (.loopx x0 x1 x2 x3) := fun _ _ _ _ => rfl
theorem Encoded.bsel : ∀ x0 x1 x2 x3, Encoded.Statement (.bsel x0 x1 x2 x3) := fun _ _ _ _ => rfl
theorem Encoded.chkpt : ∀ x0 x1, Encoded.Statement (.chkpt x0 x1) := fun _ _ => rfl
theorem Encoded.yield : ∀ x0 x1 x2, Encoded.Statement (.yield x0 x1 x2) := fun _ _ _ => rfl
theorem Encoded.trap : ∀ x0 x1 x2, Encoded.Statement (.trap x0 x1 x2) := fun _ _ _ => rfl
theorem Encoded.brk : ∀ x0 x1 x2, Encoded.Statement (.brk x0 x1 x2) := fun _ _ _ => rfl
theorem Encoded.br : ∀ x0 x1 x2, Encoded.Statement (.br x0 x1 x2) := fun _ _ _ => rfl
theorem Encoded.call : ∀ x0 x1 x2, Encoded.Statement (.call x0 x1 x2) := fun _ _ _ => rfl
theorem Encoded.tree : ∀ x0 x1 x2 x3 x4, Encoded.Statement (.tree x0 x1 x2 x3 x4) := fun _ _ _ _ _ => rfl
theorem Encoded.nopS : Encoded.Statement .nopS := rfl
theorem Encoded.add : ∀ x0 x1 x2 x3, Encoded.Statement (.add x0 x1 x2 x3) := fun _ _ _ _ => rfl
theorem Encoded.sub : ∀ x0 x1 x2 x3, Encoded.Statement (.sub x0 x1 x2 x3) := fun _ _ _ _ => rfl
theorem Encoded.mul : ∀ x0 x1 x2 x3, Encoded.Statement (.mul x0 x1 x2 x3) := fun _ _ _ _ => rfl
theorem Encoded.mulh : ∀ x0 x1 x2 x3, Encoded.Statement (.mulh x0 x1 x2 x3) := fun _ _ _ _ => rfl
theorem Encoded.mulhz : ∀ x0 x1 x2 x3, Encoded.Statement (.mulhz x0 x1 x2 x3) := fun _ _ _ _ => rfl
theorem Encoded.div : ∀ x0 x1 x2 x3, Encoded.Statement (.div x0 x1 x2 x3) := fun _ _ _ _ => rfl
theorem Encoded.divz : ∀ x0 x1 x2 x3, Encoded.Statement (.divz x0 x1 x2 x3) := fun _ _ _ _ => rfl
theorem Encoded.rem : ∀ x0 x1 x2 x3, Encoded.Statement (.rem x0 x1 x2 x3) := fun _ _ _ _ => rfl
theorem Encoded.remz : ∀ x0 x1 x2 x3, Encoded.Statement (.remz x0 x1 x2 x3) := fun _ _ _ _ => rfl
theorem Encoded.and : ∀ x0 x1 x2 x3, Encoded.Statement (.and x0 x1 x2 x3) := fun _ _ _ _ => rfl
theorem Encoded.andn : ∀ x0 x1 x2 x3, Encoded.Statement (.andn x0 x1 x2 x3) := fun _ _ _ _ => rfl
theorem Encoded.or : ∀ x0 x1 x2 x3, Encoded.Statement (.or x0 x1 x2 x3) := fun _ _ _ _ => rfl
theorem Encoded.xor : ∀ x0 x1 x2 x3, Encoded.Statement (.xor x0 x1 x2 x3) := fun _ _ _ _ => rfl
theorem Encoded.shl : ∀ x0 x1 x2 x3, Encoded.Statement (.shl x0 x1 x2 x3) := fun _ _ _ _ => rfl
theorem Encoded.shli : ∀ x0 x1 x2 x3, Encoded.Statement (.shli x0 x1 x2 x3) := fun _ _ _ _ => rfl
theorem Encoded.shr : ∀ x0 x1 x2 x3, Encoded.Statement (.shr x0 x1 x2 x3) := fun _ _ _ _ => rfl
theorem Encoded.shri : ∀ x0 x1 x2 x3, Encoded.Statement (.shri x0 x1 x2 x3) := fun _ _ _ _ => rfl
theorem Encoded.sar : ∀ x0 x1 x2 x3, Encoded.Statement (.sar x0 x1 x2 x3) := fun _ _ _ _ => rfl
theorem Encoded.sari : ∀ x0 x1 x2 x3, Encoded.Statement (.sari x0 x1 x2 x3) := fun _ _ _ _ => rfl
theorem Encoded.rotr : ∀ x0 x1 x2 x3, Encoded.Statement (.rotr x0 x1 x2 x3) := fun _ _ _ _ => rfl
theorem Encoded.rotrImm : ∀ x0 x1 x2 x3, Encoded.Statement (.rotrImm x0 x1 x2 x3) := fun _ _ _ _ => rfl
theorem Encoded.min : ∀ x0 x1 x2 x3, Encoded.Statement (.min x0 x1 x2 x3) := fun _ _ _ _ => rfl
theorem Encoded.minz : ∀ x0 x1 x2 x3, Encoded.Statement (.minz x0 x1 x2 x3) := fun _ _ _ _ => rfl
theorem Encoded.max : ∀ x0 x1 x2 x3, Encoded.Statement (.max x0 x1 x2 x3) := fun _ _ _ _ => rfl
theorem Encoded.maxz : ∀ x0 x1 x2 x3, Encoded.Statement (.maxz x0 x1 x2 x3) := fun _ _ _ _ => rfl
theorem Encoded.clz : ∀ x0 x1 x2, Encoded.Statement (.clz x0 x1 x2) := fun _ _ _ => rfl
theorem Encoded.ctz : ∀ x0 x1 x2, Encoded.Statement (.ctz x0 x1 x2) := fun _ _ _ => rfl
theorem Encoded.popc : ∀ x0 x1 x2, Encoded.Statement (.popc x0 x1 x2) := fun _ _ _ => rfl
theorem Encoded.bfx : ∀ x0 x1 x2 x3, Encoded.Statement (.bfx x0 x1 x2 x3) := fun _ _ _ _ => rfl
theorem Encoded.bfxz : ∀ x0 x1 x2 x3, Encoded.Statement (.bfxz x0 x1 x2 x3) := fun _ _ _ _ => rfl
theorem Encoded.bfi : ∀ x0 x1 x2 x3, Encoded.Statement (.bfi x0 x1 x2 x3) := fun _ _ _ _ => rfl
theorem Encoded.sel : ∀ x0 x1 x2 x3, Encoded.Statement (.sel x0 x1 x2 x3) := fun _ _ _ _ => rfl
theorem Encoded.addi : ∀ x0 x1 x2 x3, Encoded.Statement (.addi x0 x1 x2 x3) := fun _ _ _ _ => rfl
theorem Encoded.andi : ∀ x0 x1 x2 x3, Encoded.Statement (.andi x0 x1 x2 x3) := fun _ _ _ _ => rfl
theorem Encoded.ori : ∀ x0 x1 x2 x3, Encoded.Statement (.ori x0 x1 x2 x3) := fun _ _ _ _ => rfl
theorem Encoded.xori : ∀ x0 x1 x2 x3, Encoded.Statement (.xori x0 x1 x2 x3) := fun _ _ _ _ => rfl
theorem Encoded.lea : ∀ x0 x1 x2 x3, Encoded.Statement (.lea x0 x1 x2 x3) := fun _ _ _ _ => rfl
theorem Encoded.movi : ∀ x0 x1 x2, Encoded.Statement (.movi x0 x1 x2) := fun _ _ _ => rfl
theorem Encoded.movhi : ∀ x0 x1 x2, Encoded.Statement (.movhi x0 x1 x2) := fun _ _ _ => rfl
theorem Encoded.cmpEq : ∀ x0 x1 x2 x3 x4, Encoded.Statement (.cmpEq x0 x1 x2 x3 x4) := fun _ _ _ _ _ => rfl
theorem Encoded.cmpiEq : ∀ x0 x1 x2 x3 x4, Encoded.Statement (.cmpiEq x0 x1 x2 x3 x4) := fun _ _ _ _ _ => rfl
theorem Encoded.cmpNe : ∀ x0 x1 x2 x3 x4, Encoded.Statement (.cmpNe x0 x1 x2 x3 x4) := fun _ _ _ _ _ => rfl
theorem Encoded.cmpiNe : ∀ x0 x1 x2 x3 x4, Encoded.Statement (.cmpiNe x0 x1 x2 x3 x4) := fun _ _ _ _ _ => rfl
theorem Encoded.cmpLt : ∀ x0 x1 x2 x3 x4, Encoded.Statement (.cmpLt x0 x1 x2 x3 x4) := fun _ _ _ _ _ => rfl
theorem Encoded.cmpiLt : ∀ x0 x1 x2 x3 x4, Encoded.Statement (.cmpiLt x0 x1 x2 x3 x4) := fun _ _ _ _ _ => rfl
theorem Encoded.cmpLe : ∀ x0 x1 x2 x3 x4, Encoded.Statement (.cmpLe x0 x1 x2 x3 x4) := fun _ _ _ _ _ => rfl
theorem Encoded.cmpiLe : ∀ x0 x1 x2 x3 x4, Encoded.Statement (.cmpiLe x0 x1 x2 x3 x4) := fun _ _ _ _ _ => rfl
theorem Encoded.cmpGt : ∀ x0 x1 x2 x3 x4, Encoded.Statement (.cmpGt x0 x1 x2 x3 x4) := fun _ _ _ _ _ => rfl
theorem Encoded.cmpiGt : ∀ x0 x1 x2 x3 x4, Encoded.Statement (.cmpiGt x0 x1 x2 x3 x4) := fun _ _ _ _ _ => rfl
theorem Encoded.cmpGe : ∀ x0 x1 x2 x3 x4, Encoded.Statement (.cmpGe x0 x1 x2 x3 x4) := fun _ _ _ _ _ => rfl
theorem Encoded.cmpiGe : ∀ x0 x1 x2 x3 x4, Encoded.Statement (.cmpiGe x0 x1 x2 x3 x4) := fun _ _ _ _ _ => rfl
theorem Encoded.cmpLo : ∀ x0 x1 x2 x3 x4, Encoded.Statement (.cmpLo x0 x1 x2 x3 x4) := fun _ _ _ _ _ => rfl
theorem Encoded.cmpiLo : ∀ x0 x1 x2 x3 x4, Encoded.Statement (.cmpiLo x0 x1 x2 x3 x4) := fun _ _ _ _ _ => rfl
theorem Encoded.cmpLs : ∀ x0 x1 x2 x3 x4, Encoded.Statement (.cmpLs x0 x1 x2 x3 x4) := fun _ _ _ _ _ => rfl
theorem Encoded.cmpiLs : ∀ x0 x1 x2 x3 x4, Encoded.Statement (.cmpiLs x0 x1 x2 x3 x4) := fun _ _ _ _ _ => rfl
theorem Encoded.cmpHi : ∀ x0 x1 x2 x3 x4, Encoded.Statement (.cmpHi x0 x1 x2 x3 x4) := fun _ _ _ _ _ => rfl
theorem Encoded.cmpiHi : ∀ x0 x1 x2 x3 x4, Encoded.Statement (.cmpiHi x0 x1 x2 x3 x4) := fun _ _ _ _ _ => rfl
theorem Encoded.cmpHs : ∀ x0 x1 x2 x3 x4, Encoded.Statement (.cmpHs x0 x1 x2 x3 x4) := fun _ _ _ _ _ => rfl
theorem Encoded.cmpiHs : ∀ x0 x1 x2 x3 x4, Encoded.Statement (.cmpiHs x0 x1 x2 x3 x4) := fun _ _ _ _ _ => rfl
theorem Encoded.pand : ∀ x0 x1 x2 x3, Encoded.Statement (.pand x0 x1 x2 x3) := fun _ _ _ _ => rfl
theorem Encoded.pandn : ∀ x0 x1 x2 x3, Encoded.Statement (.pandn x0 x1 x2 x3) := fun _ _ _ _ => rfl
theorem Encoded.por : ∀ x0 x1 x2 x3, Encoded.Statement (.por x0 x1 x2 x3) := fun _ _ _ _ => rfl
theorem Encoded.pxor : ∀ x0 x1 x2 x3, Encoded.Statement (.pxor x0 x1 x2 x3) := fun _ _ _ _ => rfl
theorem Encoded.setb : ∀ x0 x1 x2, Encoded.Statement (.setb x0 x1 x2) := fun _ _ _ => rfl
theorem Encoded.ximm : ∀ x0 x1, Encoded.Statement (.ximm x0 x1) := fun _ _ => rfl
theorem Encoded.setefImm : ∀ x0 x1, Encoded.Statement (.setefImm x0 x1) := fun _ _ => rfl
theorem Encoded.setefReg : ∀ x0 x1, Encoded.Statement (.setefReg x0 x1) := fun _ _ => rfl
theorem Encoded.mfs : ∀ x0 x1 x2, Encoded.Statement (.mfs x0 x1 x2) := fun _ _ _ => rfl
theorem Encoded.mts : ∀ x0 x1 x2, Encoded.Statement (.mts x0 x1 x2) := fun _ _ _ => rfl
theorem Encoded.schk : ∀ x0 x1 x2, Encoded.Statement (.schk x0 x1 x2) := fun _ _ _ => rfl
theorem Encoded.schkPred : ∀ x0 x1 x2, Encoded.Statement (.schkPred x0 x1 x2) := fun _ _ _ => rfl
theorem Encoded.lds : ∀ x0 x1 x2 x3 x4 x5, Encoded.Statement (.lds x0 x1 x2 x3 x4 x5) := fun _ _ _ _ _ _ => rfl
theorem Encoded.sts : ∀ x0 x1 x2 x3 x4, Encoded.Statement (.sts x0 x1 x2 x3 x4) := fun _ _ _ _ _ => rfl
theorem Encoded.ldg : ∀ x0 x1 x2 x3 x4 x5, Encoded.Statement (.ldg x0 x1 x2 x3 x4 x5) := fun _ _ _ _ _ _ => rfl
theorem Encoded.stg : ∀ x0 x1 x2 x3 x4, Encoded.Statement (.stg x0 x1 x2 x3 x4) := fun _ _ _ _ _ => rfl
theorem Encoded.faddH : ∀ x0 x1 x2 x3, Encoded.Statement (.faddH x0 x1 x2 x3) := fun _ _ _ _ => rfl
theorem Encoded.fsubH : ∀ x0 x1 x2 x3, Encoded.Statement (.fsubH x0 x1 x2 x3) := fun _ _ _ _ => rfl
theorem Encoded.faddF : ∀ x0 x1 x2 x3, Encoded.Statement (.faddF x0 x1 x2 x3) := fun _ _ _ _ => rfl
theorem Encoded.fsubF : ∀ x0 x1 x2 x3, Encoded.Statement (.fsubF x0 x1 x2 x3) := fun _ _ _ _ => rfl
theorem Encoded.faddD : ∀ x0 x1 x2 x3, Encoded.Statement (.faddD x0 x1 x2 x3) := fun _ _ _ _ => rfl
theorem Encoded.fsubD : ∀ x0 x1 x2 x3, Encoded.Statement (.fsubD x0 x1 x2 x3) := fun _ _ _ _ => rfl
theorem Encoded.fmulH : ∀ x0 x1 x2 x3, Encoded.Statement (.fmulH x0 x1 x2 x3) := fun _ _ _ _ => rfl
theorem Encoded.ffmaH : ∀ x0 x1 x2 x3, Encoded.Statement (.ffmaH x0 x1 x2 x3) := fun _ _ _ _ => rfl
theorem Encoded.fmulF : ∀ x0 x1 x2 x3, Encoded.Statement (.fmulF x0 x1 x2 x3) := fun _ _ _ _ => rfl
theorem Encoded.ffmaF : ∀ x0 x1 x2 x3, Encoded.Statement (.ffmaF x0 x1 x2 x3) := fun _ _ _ _ => rfl
theorem Encoded.fmulD : ∀ x0 x1 x2 x3, Encoded.Statement (.fmulD x0 x1 x2 x3) := fun _ _ _ _ => rfl
theorem Encoded.ffmaD : ∀ x0 x1 x2 x3, Encoded.Statement (.ffmaD x0 x1 x2 x3) := fun _ _ _ _ => rfl
theorem Encoded.fminH : ∀ x0 x1 x2 x3, Encoded.Statement (.fminH x0 x1 x2 x3) := fun _ _ _ _ => rfl
theorem Encoded.fmaxH : ∀ x0 x1 x2 x3, Encoded.Statement (.fmaxH x0 x1 x2 x3) := fun _ _ _ _ => rfl
theorem Encoded.fminF : ∀ x0 x1 x2 x3, Encoded.Statement (.fminF x0 x1 x2 x3) := fun _ _ _ _ => rfl
theorem Encoded.fmaxF : ∀ x0 x1 x2 x3, Encoded.Statement (.fmaxF x0 x1 x2 x3) := fun _ _ _ _ => rfl
theorem Encoded.fminD : ∀ x0 x1 x2 x3, Encoded.Statement (.fminD x0 x1 x2 x3) := fun _ _ _ _ => rfl
theorem Encoded.fmaxD : ∀ x0 x1 x2 x3, Encoded.Statement (.fmaxD x0 x1 x2 x3) := fun _ _ _ _ => rfl
theorem Encoded.fcmpH : ∀ x0 x1 x2 x3 x4 x5, Encoded.Statement (.fcmpH x0 x1 x2 x3 x4 x5) := fun _ _ _ _ _ _ => rfl
theorem Encoded.fcmpF : ∀ x0 x1 x2 x3 x4 x5, Encoded.Statement (.fcmpF x0 x1 x2 x3 x4 x5) := fun _ _ _ _ _ _ => rfl
theorem Encoded.fcmpD : ∀ x0 x1 x2 x3 x4 x5, Encoded.Statement (.fcmpD x0 x1 x2 x3 x4 x5) := fun _ _ _ _ _ _ => rfl
theorem Encoded.fcvt : ∀ x0 x1 x2 x3 x4, Encoded.Statement (.fcvt x0 x1 x2 x3 x4) := fun _ _ _ _ _ => rfl
theorem Encoded.nopD : Encoded.Statement .nopD := rfl
theorem Encoded.waitdc : ∀ x0 x1 x2, Encoded.Statement (.waitdc x0 x1 x2) := fun _ _ _ => rfl
theorem Encoded.waitm : ∀ x0 x1, Encoded.Statement (.waitm x0 x1) := fun _ _ => rfl
theorem Encoded.waitany : ∀ x0 x1, Encoded.Statement (.waitany x0 x1) := fun _ _ => rfl
theorem Encoded.ffrm : ∀ x0 x1 x2, Encoded.Statement (.ffrm x0 x1 x2) := fun _ _ _ => rfl
theorem Encoded.mclr : ∀ x0 x1, Encoded.Statement (.mclr x0 x1) := fun _ _ => rfl
theorem Encoded.mclrSet : ∀ x0 x1, Encoded.Statement (.mclrSet x0 x1) := fun _ _ => rfl
theorem Encoded.cfence : ∀ x0 x1 x2, Encoded.Statement (.cfence x0 x1 x2) := fun _ _ _ => rfl
theorem Encoded.atomAdd : ∀ x0 x1 x2 x3 x4, Encoded.Statement (.atomAdd x0 x1 x2 x3 x4) := fun _ _ _ _ _ => rfl
theorem Encoded.atomMin : ∀ x0 x1 x2 x3 x4, Encoded.Statement (.atomMin x0 x1 x2 x3 x4) := fun _ _ _ _ _ => rfl
theorem Encoded.atomMax : ∀ x0 x1 x2 x3 x4, Encoded.Statement (.atomMax x0 x1 x2 x3 x4) := fun _ _ _ _ _ => rfl
theorem Encoded.atomMinz : ∀ x0 x1 x2 x3 x4, Encoded.Statement (.atomMinz x0 x1 x2 x3 x4) := fun _ _ _ _ _ => rfl
theorem Encoded.atomMaxz : ∀ x0 x1 x2 x3 x4, Encoded.Statement (.atomMaxz x0 x1 x2 x3 x4) := fun _ _ _ _ _ => rfl
theorem Encoded.atomAnd : ∀ x0 x1 x2 x3 x4, Encoded.Statement (.atomAnd x0 x1 x2 x3 x4) := fun _ _ _ _ _ => rfl
theorem Encoded.atomOr : ∀ x0 x1 x2 x3 x4, Encoded.Statement (.atomOr x0 x1 x2 x3 x4) := fun _ _ _ _ _ => rfl
theorem Encoded.atomXor : ∀ x0 x1 x2 x3 x4, Encoded.Statement (.atomXor x0 x1 x2 x3 x4) := fun _ _ _ _ _ => rfl
theorem Encoded.atomXchg : ∀ x0 x1 x2 x3 x4, Encoded.Statement (.atomXchg x0 x1 x2 x3 x4) := fun _ _ _ _ _ => rfl
theorem Encoded.atomCas : ∀ x0 x1 x2 x3 x4, Encoded.Statement (.atomCas x0 x1 x2 x3 x4) := fun _ _ _ _ _ => rfl
theorem Encoded.propose : ∀ x0 x1 x2 x3 x4, Encoded.Statement (.propose x0 x1 x2 x3 x4) := fun _ _ _ _ _ => rfl
theorem Encoded.ocread : ∀ x0 x1 x2 x3 x4, Encoded.Statement (.ocread x0 x1 x2 x3 x4) := fun _ _ _ _ _ => rfl
theorem Encoded.ocrecycle : ∀ x0 x1 x2 x3 x4, Encoded.Statement (.ocrecycle x0 x1 x2 x3 x4) := fun _ _ _ _ _ => rfl
theorem Encoded.bara : ∀ x0 x1 x2, Encoded.Statement (.bara x0 x1 x2) := fun _ _ _ => rfl
theorem Encoded.barw : ∀ x0 x1 x2 x3, Encoded.Statement (.barw x0 x1 x2 x3) := fun _ _ _ _ => rfl
theorem Encoded.bar : ∀ x0 x1 x2 x3, Encoded.Statement (.bar x0 x1 x2 x3) := fun _ _ _ _ => rfl
theorem Encoded.popw : ∀ x0 x1 x2, Encoded.Statement (.popw x0 x1 x2) := fun _ _ _ => rfl
theorem Encoded.popwB : ∀ x0 x1 x2, Encoded.Statement (.popwB x0 x1 x2) := fun _ _ _ => rfl
theorem Encoded.pushw : ∀ x0 x1 x2, Encoded.Statement (.pushw x0 x1 x2) := fun _ _ _ => rfl
theorem Encoded.pushwC : ∀ x0 x1 x2, Encoded.Statement (.pushwC x0 x1 x2) := fun _ _ _ => rfl
theorem Encoded.qpush : ∀ x0 x1 x2 x3, Encoded.Statement (.qpush x0 x1 x2 x3) := fun _ _ _ _ => rfl
theorem Encoded.trigger : ∀ x0, Encoded.Statement (.trigger x0) := fun _ => rfl
theorem Encoded.wstat : ∀ x0 x1 x2, Encoded.Statement (.wstat x0 x1 x2) := fun _ _ _ => rfl
theorem Encoded.digq : ∀ x0 x1 x2 x3, Encoded.Statement (.digq x0 x1 x2 x3) := fun _ _ _ _ => rfl
theorem Encoded.digb : ∀ x0 x1 x2 x3, Encoded.Statement (.digb x0 x1 x2 x3) := fun _ _ _ _ => rfl
theorem Encoded.digrs : ∀ x0 x1 x2 x3, Encoded.Statement (.digrs x0 x1 x2 x3) := fun _ _ _ _ => rfl
theorem Encoded.kvapp : ∀ x0 x1 x2 x3, Encoded.Statement (.kvapp x0 x1 x2 x3) := fun _ _ _ _ => rfl
theorem Encoded.nopV : Encoded.Statement .nopV := rfl
theorem Encoded.vadd : ∀ x0 x1 x2 x3 x4, Encoded.Statement (.vadd x0 x1 x2 x3 x4) := fun _ _ _ _ _ => rfl
theorem Encoded.vaddS : ∀ x0 x1 x2 x3 x4, Encoded.Statement (.vaddS x0 x1 x2 x3 x4) := fun _ _ _ _ _ => rfl
theorem Encoded.vsub : ∀ x0 x1 x2 x3 x4, Encoded.Statement (.vsub x0 x1 x2 x3 x4) := fun _ _ _ _ _ => rfl
theorem Encoded.vsubS : ∀ x0 x1 x2 x3 x4, Encoded.Statement (.vsubS x0 x1 x2 x3 x4) := fun _ _ _ _ _ => rfl
theorem Encoded.vmul : ∀ x0 x1 x2 x3 x4, Encoded.Statement (.vmul x0 x1 x2 x3 x4) := fun _ _ _ _ _ => rfl
theorem Encoded.vmulS : ∀ x0 x1 x2 x3 x4, Encoded.Statement (.vmulS x0 x1 x2 x3 x4) := fun _ _ _ _ _ => rfl
theorem Encoded.vfma : ∀ x0 x1 x2 x3 x4, Encoded.Statement (.vfma x0 x1 x2 x3 x4) := fun _ _ _ _ _ => rfl
theorem Encoded.vfms : ∀ x0 x1 x2 x3 x4, Encoded.Statement (.vfms x0 x1 x2 x3 x4) := fun _ _ _ _ _ => rfl
theorem Encoded.vmin : ∀ x0 x1 x2 x3 x4, Encoded.Statement (.vmin x0 x1 x2 x3 x4) := fun _ _ _ _ _ => rfl
theorem Encoded.vmax : ∀ x0 x1 x2 x3 x4, Encoded.Statement (.vmax x0 x1 x2 x3 x4) := fun _ _ _ _ _ => rfl
theorem Encoded.vabs : ∀ x0 x1 x2 x3 x4, Encoded.Statement (.vabs x0 x1 x2 x3 x4) := fun _ _ _ _ _ => rfl
theorem Encoded.vneg : ∀ x0 x1 x2 x3 x4, Encoded.Statement (.vneg x0 x1 x2 x3 x4) := fun _ _ _ _ _ => rfl
theorem Encoded.vrcp : ∀ x0 x1 x2 x3, Encoded.Statement (.vrcp x0 x1 x2 x3) := fun _ _ _ _ => rfl
theorem Encoded.vrsq : ∀ x0 x1 x2 x3, Encoded.Statement (.vrsq x0 x1 x2 x3) := fun _ _ _ _ => rfl
theorem Encoded.vexp2 : ∀ x0 x1 x2 x3, Encoded.Statement (.vexp2 x0 x1 x2 x3) := fun _ _ _ _ => rfl
theorem Encoded.vlog2 : ∀ x0 x1 x2 x3, Encoded.Statement (.vlog2 x0 x1 x2 x3) := fun _ _ _ _ => rfl
theorem Encoded.vand : ∀ x0 x1 x2 x3 x4, Encoded.Statement (.vand x0 x1 x2 x3 x4) := fun _ _ _ _ _ => rfl
theorem Encoded.vor : ∀ x0 x1 x2 x3 x4, Encoded.Statement (.vor x0 x1 x2 x3 x4) := fun _ _ _ _ _ => rfl
theorem Encoded.vxor : ∀ x0 x1 x2 x3 x4, Encoded.Statement (.vxor x0 x1 x2 x3 x4) := fun _ _ _ _ _ => rfl
theorem Encoded.vshl : ∀ x0 x1 x2 x3 x4, Encoded.Statement (.vshl x0 x1 x2 x3 x4) := fun _ _ _ _ _ => rfl
theorem Encoded.vshr : ∀ x0 x1 x2 x3 x4, Encoded.Statement (.vshr x0 x1 x2 x3 x4) := fun _ _ _ _ _ => rfl
theorem Encoded.vsar : ∀ x0 x1 x2 x3 x4, Encoded.Statement (.vsar x0 x1 x2 x3 x4) := fun _ _ _ _ _ => rfl
theorem Encoded.vcmp : ∀ x0 x1 x2 x3 x4 x5, Encoded.Statement (.vcmp x0 x1 x2 x3 x4 x5) := fun _ _ _ _ _ _ => rfl
theorem Encoded.vsel : ∀ x0 x1 x2 x3 x4, Encoded.Statement (.vsel x0 x1 x2 x3 x4) := fun _ _ _ _ _ => rfl
theorem Encoded.vcvt : ∀ x0 x1 x2 x3 x4, Encoded.Statement (.vcvt x0 x1 x2 x3 x4) := fun _ _ _ _ _ => rfl
theorem Encoded.vcvtBits : ∀ x0 x1 x2 x3, Encoded.Statement (.vcvtBits x0 x1 x2 x3) := fun _ _ _ _ => rfl
theorem Encoded.vqntT8 : ∀ x0 x1 x2 x3 x4, Encoded.Statement (.vqntT8 x0 x1 x2 x3 x4) := fun _ _ _ _ _ => rfl
theorem Encoded.vqntT6 : ∀ x0 x1 x2 x3 x4, Encoded.Statement (.vqntT6 x0 x1 x2 x3 x4) := fun _ _ _ _ _ => rfl
theorem Encoded.vsclT8 : ∀ x0 x1 x2, Encoded.Statement (.vsclT8 x0 x1 x2) := fun _ _ _ => rfl
theorem Encoded.vsclT6 : ∀ x0 x1 x2, Encoded.Statement (.vsclT6 x0 x1 x2) := fun _ _ _ => rfl
theorem Encoded.vredadd : ∀ x0 x1 x2 x3, Encoded.Statement (.vredadd x0 x1 x2 x3) := fun _ _ _ _ => rfl
theorem Encoded.vredaddS : ∀ x0 x1 x2 x3, Encoded.Statement (.vredaddS x0 x1 x2 x3) := fun _ _ _ _ => rfl
theorem Encoded.vredmax : ∀ x0 x1 x2 x3, Encoded.Statement (.vredmax x0 x1 x2 x3) := fun _ _ _ _ => rfl
theorem Encoded.vredmin : ∀ x0 x1 x2 x3, Encoded.Statement (.vredmin x0 x1 x2 x3) := fun _ _ _ _ => rfl
theorem Encoded.vscan : ∀ x0 x1 x2 x3, Encoded.Statement (.vscan x0 x1 x2 x3) := fun _ _ _ _ => rfl
theorem Encoded.vscanX : ∀ x0 x1 x2 x3, Encoded.Statement (.vscanX x0 x1 x2 x3) := fun _ _ _ _ => rfl
theorem Encoded.vbcast : ∀ x0 x1 x2 x3 x4, Encoded.Statement (.vbcast x0 x1 x2 x3 x4) := fun _ _ _ _ _ => rfl
theorem Encoded.vext : ∀ x0 x1 x2 x3, Encoded.Statement (.vext x0 x1 x2 x3) := fun _ _ _ _ => rfl
theorem Encoded.vins : ∀ x0 x1 x2 x3, Encoded.Statement (.vins x0 x1 x2 x3) := fun _ _ _ _ => rfl
theorem Encoded.vperm : ∀ x0 x1 x2 x3 x4, Encoded.Statement (.vperm x0 x1 x2 x3 x4) := fun _ _ _ _ _ => rfl
theorem Encoded.vslide : ∀ x0 x1 x2 x3 x4, Encoded.Statement (.vslide x0 x1 x2 x3 x4) := fun _ _ _ _ _ => rfl
theorem Encoded.vhash : ∀ x0 x1 x2 x3 x4, Encoded.Statement (.vhash x0 x1 x2 x3 x4) := fun _ _ _ _ _ => rfl
theorem Encoded.viota : ∀ x0 x1 x2 x3 x4, Encoded.Statement (.viota x0 x1 x2 x3 x4) := fun _ _ _ _ _ => rfl
theorem Encoded.lmand : ∀ x0 x1 x2 x3, Encoded.Statement (.lmand x0 x1 x2 x3) := fun _ _ _ _ => rfl
theorem Encoded.lmandn : ∀ x0 x1 x2 x3, Encoded.Statement (.lmandn x0 x1 x2 x3) := fun _ _ _ _ => rfl
theorem Encoded.lmor : ∀ x0 x1 x2 x3, Encoded.Statement (.lmor x0 x1 x2 x3) := fun _ _ _ _ => rfl
theorem Encoded.lmxor : ∀ x0 x1 x2 x3, Encoded.Statement (.lmxor x0 x1 x2 x3) := fun _ _ _ _ => rfl
theorem Encoded.lmnot : ∀ x0 x1 x2, Encoded.Statement (.lmnot x0 x1 x2) := fun _ _ _ => rfl
theorem Encoded.lmcnt : ∀ x0 x1 x2 x3, Encoded.Statement (.lmcnt x0 x1 x2 x3) := fun _ _ _ _ => rfl
theorem Encoded.lmff : ∀ x0 x1 x2 x3, Encoded.Statement (.lmff x0 x1 x2 x3) := fun _ _ _ _ => rfl
theorem Encoded.twr : ∀ x0 x1 x2 x3, Encoded.Statement (.twr x0 x1 x2 x3) := fun _ _ _ _ => rfl
theorem Encoded.trdc : ∀ x0 x1 x2 x3 x4, Encoded.Statement (.trdc x0 x1 x2 x3 x4) := fun _ _ _ _ _ => rfl
theorem Encoded.trdr : ∀ x0 x1 x2 x3 x4, Encoded.Statement (.trdr x0 x1 x2 x3 x4) := fun _ _ _ _ _ => rfl
theorem Encoded.tzero : ∀ x0 x1 x2, Encoded.Statement (.tzero x0 x1 x2) := fun _ _ _ => rfl
theorem Encoded.vchk : ∀ x0 x1 x2 x3, Encoded.Statement (.vchk x0 x1 x2 x3) := fun _ _ _ _ => rfl
theorem Encoded.vchkLm : ∀ x0 x1 x2, Encoded.Statement (.vchkLm x0 x1 x2) := fun _ _ _ => rfl
theorem Encoded.vskb : ∀ x0 x1 x2 x3, Encoded.Statement (.vskb x0 x1 x2 x3) := fun _ _ _ _ => rfl
theorem Encoded.vld : ∀ x0 x1 x2 x3 x4 x5, Encoded.Statement (.vld x0 x1 x2 x3 x4 x5) := fun _ _ _ _ _ _ => rfl
theorem Encoded.vst : ∀ x0 x1 x2 x3 x4 x5, Encoded.Statement (.vst x0 x1 x2 x3 x4 x5) := fun _ _ _ _ _ _ => rfl
theorem Encoded.vldg : ∀ x0 x1 x2 x3 x4, Encoded.Statement (.vldg x0 x1 x2 x3 x4) := fun _ _ _ _ _ => rfl
theorem Encoded.vstg : ∀ x0 x1 x2 x3 x4, Encoded.Statement (.vstg x0 x1 x2 x3 x4) := fun _ _ _ _ _ => rfl
theorem Encoded.vgath : ∀ x0 x1 x2 x3 x4, Encoded.Statement (.vgath x0 x1 x2 x3 x4) := fun _ _ _ _ _ => rfl
theorem Encoded.vgathG : ∀ x0 x1 x2 x3 x4, Encoded.Statement (.vgathG x0 x1 x2 x3 x4) := fun _ _ _ _ _ => rfl
theorem Encoded.vscat : ∀ x0 x1 x2 x3 x4, Encoded.Statement (.vscat x0 x1 x2 x3 x4) := fun _ _ _ _ _ => rfl
theorem Encoded.vscatG : ∀ x0 x1 x2 x3 x4, Encoded.Statement (.vscatG x0 x1 x2 x3 x4) := fun _ _ _ _ _ => rfl
theorem Encoded.vatom : ∀ x0 x1 x2 x3 x4, Encoded.Statement (.vatom x0 x1 x2 x3 x4) := fun _ _ _ _ _ => rfl
theorem Encoded.nopM : Encoded.Statement .nopM := rfl
theorem Encoded.mma : ∀ x0 x1 x2 x3 x4, Encoded.Statement (.mma x0 x1 x2 x3 x4) := fun _ _ _ _ _ => rfl
theorem Encoded.mmaZ : ∀ x0 x1 x2 x3 x4, Encoded.Statement (.mmaZ x0 x1 x2 x3 x4) := fun _ _ _ _ _ => rfl
theorem Encoded.mmas : ∀ x0 x1 x2 x3 x4, Encoded.Statement (.mmas x0 x1 x2 x3 x4) := fun _ _ _ _ _ => rfl
theorem Encoded.mmasZ : ∀ x0 x1 x2 x3 x4, Encoded.Statement (.mmasZ x0 x1 x2 x3 x4) := fun _ _ _ _ _ => rfl
theorem Encoded.mzero : ∀ x0 x1 x2, Encoded.Statement (.mzero x0 x1 x2) := fun _ _ _ => rfl
theorem Encoded.mpop : ∀ x0 x1 x2 x3 x4 x5, Encoded.Statement (.mpop x0 x1 x2 x3 x4 x5) := fun _ _ _ _ _ _ => rfl
theorem Encoded.mpush : ∀ x0 x1 x2 x3 x4, Encoded.Statement (.mpush x0 x1 x2 x3 x4) := fun _ _ _ _ _ => rfl
theorem Encoded.mret : ∀ x0 x1, Encoded.Statement (.mret x0 x1) := fun _ _ => rfl
theorem Encoded.mfmt : ∀ x0 x1 x2, Encoded.Statement (.mfmt x0 x1 x2) := fun _ _ _ => rfl
theorem Encoded.mflush : ∀ x0 x1 x2, Encoded.Statement (.mflush x0 x1 x2) := fun _ _ _ => rfl
theorem Encoded.mflushPc : ∀ x0 x1 x2 x3, Encoded.Statement (.mflushPc x0 x1 x2 x3) := fun _ _ _ _ => rfl
theorem Encoded.mstat : ∀ x0 x1, Encoded.Statement (.mstat x0 x1) := fun _ _ => rfl
theorem Encoded.mstatC : ∀ x0 x1, Encoded.Statement (.mstatC x0 x1) := fun _ _ => rfl
theorem Encoded.nopC : Encoded.Statement .nopC := rfl
theorem Encoded.dld : ∀ x0 x1 x2, Encoded.Statement (.dld x0 x1 x2) := fun _ _ _ => rfl
theorem Encoded.dset : ∀ x0 x1 x2 x3, Encoded.Statement (.dset x0 x1 x2 x3) := fun _ _ _ _ => rfl
theorem Encoded.dsetAdd : ∀ x0 x1 x2 x3, Encoded.Statement (.dsetAdd x0 x1 x2 x3) := fun _ _ _ _ => rfl
theorem Encoded.msetw : ∀ x0 x1 x2, Encoded.Statement (.msetw x0 x1 x2) := fun _ _ _ => rfl
theorem Encoded.cpy : ∀ x0 x1 x2 x3 x4 x5 x6, Encoded.Statement (.cpy x0 x1 x2 x3 x4 x5 x6) := fun _ _ _ _ _ _ _ => rfl
theorem Encoded.cpym : ∀ x0 x1 x2 x3 x4, Encoded.Statement (.cpym x0 x1 x2 x3 x4) := fun _ _ _ _ _ => rfl
theorem Encoded.cpyq : ∀ x0 x1 x2 x3 x4 x5 x6, Encoded.Statement (.cpyq x0 x1 x2 x3 x4 x5 x6) := fun _ _ _ _ _ _ _ => rfl
theorem Encoded.cpyx : ∀ x0 x1 x2 x3 x4 x5, Encoded.Statement (.cpyx x0 x1 x2 x3 x4 x5) := fun _ _ _ _ _ _ => rfl
theorem Encoded.gath : ∀ x0 x1 x2 x3 x4 x5, Encoded.Statement (.gath x0 x1 x2 x3 x4 x5) := fun _ _ _ _ _ _ => rfl
theorem Encoded.feed : ∀ x0 x1 x2 x3 x4 x5 x6, Encoded.Statement (.feed x0 x1 x2 x3 x4 x5 x6) := fun _ _ _ _ _ _ _ => rfl
theorem Encoded.drain : ∀ x0 x1 x2 x3 x4 x5, Encoded.Statement (.drain x0 x1 x2 x3 x4 x5) := fun _ _ _ _ _ _ => rfl
theorem Encoded.lsend : ∀ x0 x1 x2 x3, Encoded.Statement (.lsend x0 x1 x2 x3) := fun _ _ _ _ => rfl
theorem Encoded.lrecv : ∀ x0 x1 x2 x3, Encoded.Statement (.lrecv x0 x1 x2 x3) := fun _ _ _ _ => rfl
theorem Encoded.lrxadd : ∀ x0 x1 x2 x3 x4, Encoded.Statement (.lrxadd x0 x1 x2 x3 x4) := fun _ _ _ _ _ => rfl
theorem Encoded.pickContext : Encoded.Statement .pickContext := rfl
theorem Encoded.engineCommandStart : Encoded.Statement .engineCommandStart := rfl
theorem Encoded.engineCommandComplete : Encoded.Statement .engineCommandComplete := rfl
theorem Encoded.deviceReplyArrival : Encoded.Statement .deviceReplyArrival := rfl
theorem Encoded.multicastArrival : Encoded.Statement .multicastArrival := rfl
theorem Encoded.feedLineWrite : Encoded.Statement .feedLineWrite := rfl
theorem Encoded.matrixKStep : Encoded.Statement .matrixKStep := rfl
theorem Encoded.accumulatorCommit : Encoded.Statement .accumulatorCommit := rfl
theorem Encoded.mAccCommit : Encoded.Statement .mAccCommit := rfl
theorem Encoded.mflushEffect : Encoded.Statement .mflushEffect := rfl
theorem Encoded.checkpoint : Encoded.Statement .checkpoint := rfl
theorem Encoded.holdingEntryPerform : Encoded.Statement .holdingEntryPerform := rfl
theorem Encoded.rollbackEvent : Encoded.Statement .rollbackEvent := rfl
theorem Encoded.rollbackRestore : Encoded.Statement .rollbackRestore := rfl
theorem Encoded.translationWalk : Encoded.Statement .translationWalk := rfl
theorem Encoded.xresolve : Encoded.Statement .xresolve := rfl
theorem Encoded.frcons : Encoded.Statement .frcons := rfl
theorem Encoded.xinv : Encoded.Statement .xinv := rfl
theorem Encoded.xinvComplete : Encoded.Statement .xinvComplete := rfl
theorem Encoded.offer : Encoded.Statement .offer := rfl
theorem Encoded.fitoffer : Encoded.Statement .fitoffer := rfl
theorem Encoded.returnHead : Encoded.Statement .returnHead := rfl
theorem Encoded.skiphead : Encoded.Statement .skiphead := rfl
theorem Encoded.ganggo : Encoded.Statement .ganggo := rfl
theorem Encoded.memberCreation : Encoded.Statement .memberCreation := rfl
theorem Encoded.contextRestore : Encoded.Statement .contextRestore := rfl
theorem Encoded.killMember : Encoded.Statement .killMember := rfl
theorem Encoded.bindRecordWrite : Encoded.Statement .bindRecordWrite := rfl
theorem Encoded.isflush : Encoded.Statement .isflush := rfl
theorem Encoded.kvreclaim : Encoded.Statement .kvreclaim := rfl
theorem Encoded.kvtscfg : Encoded.Statement .kvtscfg := rfl
theorem Encoded.kvtscfgComplete : Encoded.Statement .kvtscfgComplete := rfl
theorem Encoded.registerWrite : Encoded.Statement .registerWrite := rfl
theorem Encoded.headPresent : Encoded.Statement .headPresent := rfl
theorem Encoded.headEligible : Encoded.Statement .headEligible := rfl
theorem Encoded.absentHeadTimeout : Encoded.Statement .absentHeadTimeout := rfl
theorem Encoded.qpushHomeStep : Encoded.Statement .qpushHomeStep := rfl
theorem Encoded.teamCompletion : Encoded.Statement .teamCompletion := rfl
theorem Encoded.coreFree : Encoded.Statement .coreFree := rfl
theorem Encoded.phaseOverrun : Encoded.Statement .phaseOverrun := rfl
theorem Encoded.yieldDeadline : Encoded.Statement .yieldDeadline := rfl
theorem Encoded.waitPreemption : Encoded.Statement .waitPreemption := rfl
theorem Encoded.contextSave : Encoded.Statement .contextSave := rfl
theorem Encoded.saveComplete : Encoded.Statement .saveComplete := rfl
theorem Encoded.kvappExecute : Encoded.Statement .kvappExecute := rfl
theorem Encoded.atomHomeStep : Encoded.Statement .atomHomeStep := rfl
theorem Encoded.onceCellHomeStep : Encoded.Statement .onceCellHomeStep := rfl
theorem Encoded.workQueueHomeStep : Encoded.Statement .workQueueHomeStep := rfl
theorem Encoded.barrierPhaseComplete : Encoded.Statement .barrierPhaseComplete := rfl
theorem Encoded.windowAccessArrival : Encoded.Statement .windowAccessArrival := rfl
theorem Encoded.homeWriteStep : Encoded.Statement .homeWriteStep := rfl
theorem Encoded.linkPair : Encoded.Statement .linkPair := rfl
theorem Encoded.linkPortDown : Encoded.Statement .linkPortDown := rfl
theorem Encoded.flitRetransmit : Encoded.Statement .flitRetransmit := rfl
theorem Encoded.linkRetrain : Encoded.Statement .linkRetrain := rfl
theorem Encoded.rdmaWrite : Encoded.Statement .rdmaWrite := rfl
theorem Encoded.rdmaRead : Encoded.Statement .rdmaRead := rfl
theorem Encoded.rdmaFetchAdd : Encoded.Statement .rdmaFetchAdd := rfl
theorem Encoded.regionActivate : Encoded.Statement .regionActivate := rfl
theorem Encoded.sieveBlockScan : Encoded.Statement .sieveBlockScan := rfl
theorem Encoded.regionDestroy : Encoded.Statement .regionDestroy := rfl
theorem Encoded.digestEntryEccError : Encoded.Statement .digestEntryEccError := rfl
theorem Encoded.heartbeatSend : Encoded.Statement .heartbeatSend := rfl
theorem Encoded.heartbeatReceive : Encoded.Statement .heartbeatReceive := rfl
theorem Encoded.periodEnd : Encoded.Statement .periodEnd := rfl
theorem Encoded.babbleClear : Encoded.Statement .babbleClear := rfl
theorem Encoded.accusationReceive : Encoded.Statement .accusationReceive := rfl
theorem Encoded.accusationRenew : Encoded.Statement .accusationRenew := rfl
theorem Encoded.accusationExpiry : Encoded.Statement .accusationExpiry := rfl
theorem Encoded.withdrawalReceive : Encoded.Statement .withdrawalReceive := rfl
theorem Encoded.quorumCheck : Encoded.Statement .quorumCheck := rfl
theorem Encoded.fenceNoticeReceive : Encoded.Statement .fenceNoticeReceive := rfl
theorem Encoded.watchMapUpdate : Encoded.Statement .watchMapUpdate := rfl
theorem Encoded.strikeLapse : Encoded.Statement .strikeLapse := rfl
theorem Encoded.selfTestComplete : Encoded.Statement .selfTestComplete := rfl
theorem Encoded.admissionReceive : Encoded.Statement .admissionReceive := rfl
theorem Encoded.readmissionNoticeReceive : Encoded.Statement .readmissionNoticeReceive := rfl
theorem Encoded.probationTimeout : Encoded.Statement .probationTimeout := rfl
theorem Encoded.correctedError : Encoded.Statement .correctedError := rfl
theorem Encoded.quiesceEnd : Encoded.Statement .quiesceEnd := rfl
theorem Encoded.thsConversion : Encoded.Statement .thsConversion := rfl
theorem Encoded.throttleStep : Encoded.Statement .throttleStep := rfl
theorem Encoded.powerPageUpdate : Encoded.Statement .powerPageUpdate := rfl
theorem Encoded.packageReset : Encoded.Statement .packageReset := rfl
theorem Encoded.attestationRequest : Encoded.Statement .attestationRequest := rfl
theorem Encoded.postFatalDump : Encoded.Statement .postFatalDump := rfl
theorem Encoded.linkPortUp : Encoded.Statement .linkPortUp := rfl
theorem Encoded.uncorrectableError : Encoded.Statement .uncorrectableError := rfl

end Sys2Proof.Laws
end

