-- ==== Sys2Proof/Laws/Registers.lean ====
section
/-!
SUPPORT. Register reads after register writes, with the registers that discard writes (R23, R27).
-/
namespace Sys2Proof

/-- A bank after one of its registers is written. -/
theorem Bank.read_write {k : Nat} {α : Type} (b : Bank k α) (i j : BitVec k) (x : α) :
    (b.write i x).read j = if j = i then x else b.read j := by
  unfold Bank.read Bank.write
  simp [Vector.getElem_set, BitVec.toNat_inj, eq_comm]

/-- A bank filled with one value. -/
theorem Bank.read_fill {k : Nat} {α : Type} (x : α) (i : BitVec k) : (Bank.fill k x).read i = x := by
  simp [Bank.read, Bank.fill]

namespace Machine

/-- A scalar register after a write: `s0` stays zero, and no other register changes. -/
theorem Priv.sreg_setS (r : Priv) (d j : BitVec 6) (x : Word) :
    (r.setS d x).sreg j = if j = d then (if d = 0 then 0 else x) else r.sreg j := by
  unfold Priv.setS Priv.sreg
  by_cases hd : d = 0
  · rw [if_pos hd, hd, if_pos rfl]
    split <;> rfl
  · rw [if_neg hd, if_neg hd]
    dsimp only
    rw [Bank.read_write]
    by_cases hj : j = d
    · rw [if_pos hj, if_pos hj, if_neg (hj ▸ hd)]
    · rw [if_neg hj, if_neg hj]

theorem Priv.setS_p (r : Priv) (d : BitVec 6) (x : Word) : (r.setS d x).p = r.p := by
  unfold Priv.setS; split <;> rfl

theorem Priv.setS_b (r : Priv) (d : BitVec 6) (x : Word) : (r.setS d x).b = r.b := by
  unfold Priv.setS; split <;> rfl

theorem Priv.setS_dc (r : Priv) (d : BitVec 6) (x : Word) : (r.setS d x).dc = r.dc := by
  unfold Priv.setS; split <;> rfl

/-- One bit of a field replacement of one bit. -/
theorem getLsbD_setField_one {w : Nat} (x : BitVec w) (lo j : Nat) (v : Bool) (hj : j < w) :
    (setField x lo 1 (if v then 1 else 0)).getLsbD j = if j = lo then v else x.getLsbD j := by
  unfold setField
  by_cases h : j = lo
  · subst h
    cases v <;> simp [hj]
  · by_cases hl : j < lo
    · cases v <;> simp [hj, hl, h]
    · have : j - lo ≠ 0 := by omega
      cases v <;> simp [hj, hl, h, this]

/-- A predicate after a write: `p0` stays true, and no other predicate changes. -/
theorem Priv.preg_setP (r : Priv) (d j : BitVec 6) (x : Bool) (hd : d.toNat < 48) :
    (r.setP d x).preg j = if j = d then (x || decide (d = 0)) else r.preg j := by
  unfold Priv.setP Priv.preg
  by_cases h0 : d = 0
  · subst h0
    by_cases hj : j = 0 <;> simp [hj]
  · rw [if_neg (by simp only [decide_eq_true_eq, Bool.or_eq_true, h0, false_or]; omega)]
    by_cases hj : j = d
    · subst hj
      rw [if_pos rfl, getLsbD_setField_one _ _ _ _ hd]
      rw [if_pos rfl]
      exact Bool.or_comm _ _
    · rw [if_neg hj]
      dsimp only
      by_cases hj8 : j.toNat < 48
      · rw [getLsbD_setField_one _ _ _ _ hj8, if_neg (fun h => hj (BitVec.eq_of_toNat_eq h))]
      · rw [BitVec.getLsbD_of_ge _ _ (by omega), BitVec.getLsbD_of_ge _ _ (by omega)]

theorem Priv.setP_s (r : Priv) (d : BitVec 6) (x : Bool) : (r.setP d x).s = r.s := by
  unfold Priv.setP; split <;> rfl

theorem Priv.setP_b (r : Priv) (d : BitVec 6) (x : Bool) : (r.setP d x).b = r.b := by
  unfold Priv.setP; split <;> rfl

theorem Priv.setP_dc (r : Priv) (d : BitVec 6) (x : Bool) : (r.setP d x).dc = r.dc := by
  unfold Priv.setP; split <;> rfl

/-- A lane mask after a write: `lm0` stays all ones. -/
theorem Shared.lmask_setLm (r : Shared) (d j : BitVec 3) (x : BitVec 256) :
    (r.setLm d x).lmask j = if j = d then (if d = 0 then BitVec.allOnes 256 else x) else r.lmask j := by
  unfold Shared.setLm Shared.lmask
  by_cases hd : d = 0
  · rw [if_pos hd, hd, if_pos rfl]
    split <;> rfl
  · rw [if_neg hd, if_neg hd]
    dsimp only
    rw [Bank.read_write]
    by_cases hj : j = d
    · rw [if_pos hj, if_pos hj, if_neg (hj ▸ hd)]
    · rw [if_neg hj, if_neg hj]

/-! ## What the shared operations answer -/

/-- Under a true guard a guarded meaning does what it says, and under a false one nothing (R69). -/
theorem State.guarded_true {s : State} {g : Guard} (h : s.guard g = true) (k : State → State) :
    s.guarded g k = .next (k s) := by rw [State.guarded, if_pos h]

theorem State.guarded_false {s : State} {g : Guard} (h : s.guard g = false) (k : State → State) :
    s.guarded g k = .next s := by rw [State.guarded, h]; rfl

/-- A trap is noted in the bundle in issue, whatever its class (R92). -/
theorem State.mapCur_ctx (s : State) (f : Issue → Issue) (h : (f s.core.cur).ctx = s.core.cur.ctx) :
    (s.mapCur f).ctx = s.ctx := by
  unfold State.ctx State.mapCur State.mapCore
  dsimp only
  rw [h]
  rfl

end Machine
end Sys2Proof
end

