-- ==== Sys2Proof/Laws/Replies.lean ====
section
/-!
SUPPORT. What an answered request, a pending SETEF value, a rolled-back FIFO and a fence of scope `core` do, said once.
-/
namespace Sys2Proof.Machine

/-- A request that has been dropped is gone. -/
@[simp] theorem Core.req_dropReq (c : Core) (id : Nat) : (c.dropReq id).req id = none := by
  simp [Core.req, Core.dropReq]

/-- An answered request is gone. -/
theorem State.answer_gone (s : State) (r : Req) (f : State → State) : (s.answer r f).core.req r.id = none :=
  Core.req_dropReq _ _

/-- At a checkpoint the last pending SETEF value is in force, none is pending, and no other shared register changes (R35). -/
theorem Shared.applyEfmt_eq (r : Shared) :
    r.applyEfmt = { r with efmt := match r.efmtPend.getLast? with | some p => 0#24 ++ p.2 | none => r.efmt, efmtPend := [] } := by
  rcases List.eq_nil_or_concat r.efmtPend with h | ⟨l, p, h⟩
  · simp [Shared.applyEfmt, h]
  · have e : ∀ x : BitVec 8, x.setWidth 32 = 0#24 ++ x := by decide
    simp [Shared.applyEfmt, h, e]

/-- After a rollback no line is retained (R31). -/
@[simp] theorem Fifo.rollback_retained (f : Fifo) (ph : Nat) : (f.rollback ph).retained = [] := rfl

/-- After a rollback the lines held are the retained ones and those held, but for the phase's own (R31). -/
@[simp] theorem Fifo.rollback_held (f : Fifo) (ph : Nat) : (f.rollback ph).held = (f.retained ++ f.held).filter fun l => l.phase ≠ ph + 1 := rfl

/-- A step of a gather takes an element at least (R356). -/
theorem Req.cellRun_pos (r : Req) : 1 ≤ r.cellRun := by
  unfold Req.cellRun
  dsimp only
  rcases h : List.find? _ _ with _ | k
  · rfl
  · obtain ⟨n, _, rfl⟩ := List.mem_map.mp (List.mem_of_find?_eq_some h)
    exact Nat.le_add_left 1 n

/-- A device access behind a fence of scope `core` does not perform (R200, R255). -/
theorem Core.mayPerform_behind {c : Core} {r : Req} (h : c.behindFence r.id = true) (d : r.isDevice = true) : c.mayPerform r = false := by
  simp [Core.mayPerform, h, d]

end Sys2Proof.Machine
end

