-- ==== Sys2Proof/Tests/Slice0.lean ====
section
/-!
SUPPORT. Tests: the smoke of well-formedness, decoding of words taken from the spec, single instructions, and a witness for the hypotheses of
each statement.
-/
namespace Sys2Proof.Tests

open Sys2Proof.Machine Sys2Proof.Claims

set_option maxRecDepth 20000
set_option exponentiation.threshold 2000000

/-! ## Well-formedness: an ill-formed term for each check, and its well-formed neighbour -/

/-- A guard index that names no predicate, and one that does (R69). -/
def gBad : Guard := ⟨53, false⟩
def gTop : Guard := ⟨52, true⟩

theorem smoke_guard_index : (Instr.add gBad 1 2 3).wf = false ∧ (Instr.add gTop 1 2 3).wf = true := by decide
theorem smoke_guard_every_slot :
    [Instr.br false gBad 0, .addi gBad 1 1 1, .waitm gBad 1, .vadd gBad 1 1 1 1, .mret gBad 0, .dld gBad 1 1].all (fun i => !i.wf) = true := by decide
theorem smoke_predicate_index :
    [Instr.pand .always 48 1 1, .pand .always 1 48 1, .pand .always 1 1 48, .schkPred .always 48 1, .relc false .always 48 0,
      .barw .always 48 1 3, .kvapp .always 1 1 48].all (fun i => !i.wf) = true ∧ (Instr.pand .always 47 47 47).wf = true := by decide
theorem smoke_predicate_pair : (Instr.cmpEq .always 24 0 1 1).wf = false ∧ (Instr.cmpEq .always 23 0 1 1).wf = true ∧
    (Instr.fcmpD .always 24 0 0 1 1).wf = false ∧ (Instr.digb .always 1 1 24).wf = false := by decide
theorem smoke_tree_test : (Instr.tree false 0 0 0 0x60).wf = false ∧ (Instr.tree false 0x5F 0 0 0).wf = true := by decide
theorem smoke_release_offset : (Instr.relc false .always 1 4).wf = false ∧ (Instr.relc false .always 1 8).wf = true := by decide
theorem smoke_target_register : (Instr.setb .always 4 0).wf = false ∧ (Instr.setb .always 3 0).wf = true := by decide
theorem smoke_ximm_class : (Instr.ximm 1 0).wf = false ∧ (Instr.ximm 2 0).wf = true := by decide
theorem smoke_engine_format : (Instr.setefImm .always 3).wf = false ∧ (Instr.setefImm .always 0x30).wf = false ∧
    (Instr.setefImm .always 0x29).wf = true ∧ (Instr.setefReg .always 0).wf = false := by decide
theorem smoke_special_number : (Instr.mfs .always 1 0x03).wf = false ∧ (Instr.mfs .always 1 0x17).wf = false ∧
    (Instr.mfs .always 1 0x16).wf = true := by decide
theorem smoke_extend_doubleword : (Instr.lds .always 1 1 0 3 1).wf = false ∧ (Instr.ldg .always 1 1 0 3 1).wf = false ∧
    (Instr.lds .always 1 1 0 3 0).wf = true := by decide
theorem smoke_scope : (Instr.cfence .always 1 0).wf = false ∧ (Instr.cfence .always 0 1).wf = false ∧ (Instr.atomAdd .always 1 1 0 6).wf = false ∧
    (Instr.bara .always 1 1).wf = false ∧ (Instr.bara .always 1 2).wf = true := by decide
theorem smoke_reply_register : (Instr.atomAdd .always 63 1 0 3).wf = false ∧ (Instr.propose .always 21 1 0 3).wf = false ∧
    (Instr.propose .always 0 1 0 3).wf = false ∧ (Instr.propose .always 62 1 0 5).wf = true ∧ (Instr.popw .always 63 1).wf = false ∧
    (Instr.pushw .always 63 1).wf = false ∧ (Instr.wstat .always 0 1).wf = false := by decide
theorem smoke_barrier_predicate : (Instr.barw .always 0 1 3).wf = false ∧ (Instr.bar .always 0 1 3).wf = false := by decide
theorem smoke_tag_code : (Instr.vbcast .always 1 12 0 0).wf = false ∧ (Instr.vcvt .always 1 1 0 1).wf = false ∧ (Instr.vcvtBits .always 1 1 12).wf = false ∧
    (Instr.tzero .always 1 12).wf = false ∧ (Instr.viota .always 1 1 0 1).wf = false ∧ (Instr.viota .always 1 11 0 1).wf = true := by decide
theorem smoke_condition_and_layout : (Instr.vcmp .always 7 1 1 1 1).wf = false ∧ (Instr.vld .always 1 1 1 0 5).wf = false ∧
    (Instr.vst .always 1 1 0 0 5).wf = false ∧ (Instr.vld .always 1 1 1 0 4).wf = true := by decide
theorem smoke_matrix_formats : (Instr.mma .always 0 0 2 0).wf = false ∧ (Instr.mmas .always 0 3 3 3).wf = false ∧ (Instr.mmas .always 0 4 0 0).wf = false ∧
    (Instr.mmas .always 0 31 2 2).wf = true := by decide
theorem smoke_segment : (Instr.mpop .always 0 0 0 2 1).wf = false ∧ (Instr.mpop .always 0 0 0 1 3).wf = false ∧ (Instr.mpop .always 0 0 0 3 0).wf = true := by decide
theorem smoke_flush_selection : (Instr.mflush .always 0 0).wf = false ∧ (Instr.mflush .always 1 0).wf = true := by decide
theorem smoke_descriptor_field : (Instr.dset .always 1 1 22).wf = false ∧ (Instr.dsetAdd .always 1 1 3).wf = false ∧ (Instr.dset .always 1 1 21).wf = true := by decide
theorem smoke_command_options : (Instr.cpy .always 1 1 0 1 0 1).wf = false ∧ (Instr.cpyq .always 3 1 0 0 0 0).wf = false ∧
    (Instr.gath .always 2 1 0 7 0).wf = false ∧ (Instr.feed .always 1 1 0 0 5 0).wf = false ∧ (Instr.drain .always 1 1 0 0 4).wf = false ∧
    (Instr.lrxadd .always 1 1 0 4).wf = false := by decide

/-! ## Decoding: words from the field tables of the spec, one for each instruction, and its worked encodings -/

/-- Whether each word decodes in its slot to the instruction beside it, which encodes to that word. -/
def decodes (l : List (BitVec 3 × BitVec 32 × Instr)) : Bool :=
  l.all fun p => (match decodeSlot p.1 p.2.1 with | .ok i => decide (i = p.2.2) | .error _ => false) && encode p.2.2 == some p.2.1

theorem test_decode_slot_0_1 : decodes
    [(0, 0x01C00000, .nopb false ⟨7, false⟩), (0, 0x82208C00, .callr true ⟨8, true⟩ 6), (0, 0x02410E00, .ret false ⟨9, false⟩ 7),
      (0, 0x82819048, .relc true ⟨10, false⟩ 8 72), (0, 0x02E2120B, .fjoin false ⟨11, true⟩ 9 11), (0, 0x83028000, .tend true ⟨12, false⟩),
      (0, 0x03430000, .endMember false ⟨13, false⟩), (0, 0x83A3980E, .loop true ⟨14, true⟩ 12 14),
      (0, 0x03C41A0F, .loopx false ⟨15, false⟩ 13 15), (0, 0x84049C10, .bsel true ⟨16, false⟩ 14 16), (0, 0x04650000, .chkpt false ⟨17, true⟩),
      (0, 0x84858010, .yield true ⟨18, false⟩ 16), (0, 0x04C60011, .trap false ⟨19, false⟩ 17), (0, 0x85268012, .brk true ⟨20, true⟩ 18),
      (0, 0x15400013, .br false ⟨21, false⟩ 19), (0, 0xA5800014, .call true ⟨22, false⟩ 20), (0, 0x72A5CC9B, .tree false 21 23 25 27)] = true := by decide
theorem test_decode_scalar_1 : decodes
    [(1, 0x00000000, .nopS), (1, 0x640AECB6, .add ⟨25, false⟩ 23 25 27), (1, 0x6A0B0D39, .sub ⟨26, true⟩ 24 26 28),
      (1, 0x6C132DBA, .mul ⟨27, false⟩ 25 27 29), (1, 0x701B4E3C, .mulh ⟨28, false⟩ 26 28 30), (1, 0x761B6EBF, .mulhz ⟨29, true⟩ 27 29 31),
      (1, 0x78238F40, .div ⟨30, false⟩ 28 30 32), (1, 0x7C23AFC3, .divz ⟨31, false⟩ 29 31 33), (1, 0x822BD044, .rem ⟨32, true⟩ 30 32 34),
      (1, 0x842BF0C7, .remz ⟨33, false⟩ 31 33 35), (1, 0x88341148, .and ⟨34, false⟩ 32 34 36), (1, 0x8E3431CB, .andn ⟨35, true⟩ 33 35 37),
      (1, 0x903C524C, .or ⟨36, false⟩ 34 36 38), (1, 0x944472CE, .xor ⟨37, false⟩ 35 37 39), (1, 0x9A4C9350, .shl ⟨38, true⟩ 36 38 40),
      (1, 0x9C4CB3D3, .shli ⟨39, false⟩ 37 39 41), (1, 0xA054D454, .shr ⟨40, false⟩ 38 40 42)] = true := by decide
theorem test_decode_scalar_2 : decodes
    [(1, 0xA654F4D7, .shri ⟨41, true⟩ 39 41 43), (1, 0xA85D1558, .sar ⟨42, false⟩ 40 42 44), (1, 0xAC5D35DB, .sari ⟨43, false⟩ 41 43 45),
      (1, 0xB265565C, .rotr ⟨44, true⟩ 42 44 46), (1, 0xB46576DF, .rotrImm ⟨45, false⟩ 43 45 47), (1, 0xB86D9760, .min ⟨46, false⟩ 44 46 48),
      (1, 0x1E6DB7E3, .minz ⟨7, true⟩ 45 47 49), (1, 0x2075D864, .max ⟨8, false⟩ 46 48 50), (1, 0x2475F8E7, .maxz ⟨9, false⟩ 47 49 51),
      (1, 0x2A7E1900, .clz ⟨10, true⟩ 48 50), (1, 0x2C7E3981, .ctz ⟨11, false⟩ 49 51), (1, 0x30865A00, .popc ⟨12, false⟩ 50 52),
      (1, 0x368E7AEE, .bfx ⟨13, true⟩ 51 53 55), (1, 0x388E9B71, .bfxz ⟨14, false⟩ 52 54 56), (1, 0x3C96BBF2, .bfi ⟨15, false⟩ 53 55 57),
      (1, 0x429EDC74, .sel ⟨16, true⟩ 54 56 58), (1, 0x44A6FCBB, .addi ⟨17, false⟩ 55 57 59)] = true := by decide
theorem test_decode_scalar_3 : decodes
    [(1, 0x48AF1D3C, .andi ⟨18, false⟩ 56 58 60), (1, 0x4EB73DBD, .ori ⟨19, true⟩ 57 59 61), (1, 0x50BF5E3E, .xori ⟨20, false⟩ 58 60 62),
      (1, 0x54C77EBF, .lea ⟨21, false⟩ 59 61 63), (1, 0x5ACF803E, .movi ⟨22, true⟩ 60 62), (1, 0x5CD7A03F, .movhi ⟨23, false⟩ 61 63),
      (1, 0x60D96108, .cmpEq ⟨24, false⟩ 5 1 2 4), (1, 0x66D9418B, .cmpiEq ⟨25, true⟩ 5 0 3 5), (1, 0x68E1620C, .cmpNe ⟨26, false⟩ 5 1 4 6),
      (1, 0x6CE1428F, .cmpiNe ⟨27, false⟩ 5 0 5 7), (1, 0x72E96310, .cmpLt ⟨28, true⟩ 5 1 6 8), (1, 0x74E94393, .cmpiLt ⟨29, false⟩ 5 0 7 9),
      (1, 0x78F16414, .cmpLe ⟨30, false⟩ 5 1 8 10), (1, 0x7EF14497, .cmpiLe ⟨31, true⟩ 5 0 9 11), (1, 0x80F96518, .cmpGt ⟨32, false⟩ 5 1 10 12),
      (1, 0x84F9459B, .cmpiGt ⟨33, false⟩ 5 0 11 13), (1, 0x8B01661C, .cmpGe ⟨34, true⟩ 5 1 12 14)] = true := by decide
theorem test_decode_scalar_4 : decodes
    [(1, 0x8D01469F, .cmpiGe ⟨35, false⟩ 5 0 13 15), (1, 0x91096720, .cmpLo ⟨36, false⟩ 5 1 14 16), (1, 0x970947A3, .cmpiLo ⟨37, true⟩ 5 0 15 17),
      (1, 0x99116824, .cmpLs ⟨38, false⟩ 5 1 16 18), (1, 0x9D1148A7, .cmpiLs ⟨39, false⟩ 5 0 17 19), (1, 0xA3196928, .cmpHi ⟨40, true⟩ 5 1 18 20),
      (1, 0xA51949AB, .cmpiHi ⟨41, false⟩ 5 0 19 21), (1, 0xA9216A2C, .cmpHs ⟨42, false⟩ 5 1 20 22),
      (1, 0xAF214AAF, .cmpiHs ⟨43, true⟩ 5 0 21 23), (1, 0xB12A4A2C, .pand ⟨44, false⟩ 18 20 22), (1, 0xB52A6AAF, .pandn ⟨45, false⟩ 19 21 23),
      (1, 0xBB328B30, .por ⟨46, true⟩ 20 22 24), (1, 0x1D3AABB2, .pxor ⟨7, false⟩ 21 23 25), (1, 0x21404058, .setb ⟨8, false⟩ 2 88),
      (1, 0x61480059, .ximm 3 89), (1, 0x29500019, .setefImm ⟨10, false⟩ 25), (1, 0x2D532000, .setefReg ⟨11, false⟩ 25)] = true := by decide
theorem test_decode_scalar_5 : decodes
    [(1, 0x335B4013, .mfs ⟨12, true⟩ 26 19), (1, 0x355B7013, .mts ⟨13, false⟩ 27 19), (1, 0x39600E3C, .schk ⟨14, false⟩ 28 30),
      (1, 0x3F600EBF, .schkPred ⟨15, true⟩ 29 31), (1, 0x416BD002, .lds ⟨16, false⟩ 30 32 0 1 0), (1, 0x4573F0C4, .sts ⟨17, false⟩ 31 33 1 2),
      (1, 0x4B7C1126, .ldg ⟨18, true⟩ 32 34 4 3 0), (1, 0x4D8431A8, .stg ⟨19, false⟩ 33 35 5 0), (1, 0x518C524C, .faddH ⟨20, false⟩ 34 36 38),
      (1, 0x578C72CF, .fsubH ⟨21, true⟩ 35 37 39), (1, 0x59949350, .faddF ⟨22, false⟩ 36 38 40), (1, 0x5D94B3D3, .fsubF ⟨23, false⟩ 37 39 41),
      (1, 0x639CD454, .faddD ⟨24, true⟩ 38 40 42), (1, 0x659CF4D7, .fsubD ⟨25, false⟩ 39 41 43), (1, 0x69A51558, .fmulH ⟨26, false⟩ 40 42 44),
      (1, 0x6FA535DB, .ffmaH ⟨27, true⟩ 41 43 45), (1, 0x71AD565C, .fmulF ⟨28, false⟩ 42 44 46)] = true := by decide
theorem test_decode_scalar_6 : decodes
    [(1, 0x75AD76DF, .ffmaF ⟨29, false⟩ 43 45 47), (1, 0x7BB59760, .fmulD ⟨30, true⟩ 44 46 48), (1, 0x7DB5B7E3, .ffmaD ⟨31, false⟩ 45 47 49),
      (1, 0x81BDD864, .fminH ⟨32, false⟩ 46 48 50), (1, 0x87BDF8E7, .fmaxH ⟨33, true⟩ 47 49 51), (1, 0x89C61968, .fminF ⟨34, false⟩ 48 50 52),
      (1, 0x8DC639EB, .fmaxF ⟨35, false⟩ 49 51 53), (1, 0x93CE5A6C, .fminD ⟨36, true⟩ 50 52 54), (1, 0x95CE7AEF, .fmaxD ⟨37, false⟩ 51 53 55),
      (1, 0x99D16B5C, .fcmpH ⟨38, false⟩ 5 1 2 26 28), (1, 0x9FD15F7D, .fcmpF ⟨39, true⟩ 5 0 3 27 29),
      (1, 0xA1D9639E, .fcmpD ⟨40, false⟩ 5 1 0 28 30), (1, 0xA5E6FCDC, .fcvt ⟨41, false⟩ 55 57 5 6)] = true := by decide
theorem test_decode_d_slot_1 : decodes
    [(2, 0x00000000, .nopD), (2, 0xAC0A83D8, .waitdc ⟨43, false⟩ 5 123), (2, 0xB01001D0, .waitm ⟨44, false⟩ 58),
      (2, 0xB6180058, .waitany ⟨45, true⟩ 11), (2, 0xB8278070, .ffrm ⟨46, false⟩ 60 14), (2, 0x1C2801E8, .mclr ⟨7, false⟩ 61),
      (2, 0x222C0070, .mclrSet ⟨8, true⟩ 14), (2, 0x243003FB, .cfence ⟨9, false⟩ 127 3), (2, 0x283A8123, .atomAdd ⟨10, false⟩ 20 2 4 3),
      (2, 0x2E4281AB, .atomMin ⟨11, true⟩ 20 3 5 3), (2, 0x304A8233, .atomMax ⟨12, false⟩ 20 4 6 3),
      (2, 0x345282BB, .atomMinz ⟨13, false⟩ 20 5 7 3), (2, 0x3A5A8343, .atomMaxz ⟨14, true⟩ 20 6 8 3),
      (2, 0x3C6283CB, .atomAnd ⟨15, false⟩ 20 7 9 3), (2, 0x406A8453, .atomOr ⟨16, false⟩ 20 8 10 3),
      (2, 0x467284DB, .atomXor ⟨17, true⟩ 20 9 11 3), (2, 0x487A8563, .atomXchg ⟨18, false⟩ 20 10 12 3)] = true := by decide
theorem test_decode_d_slot_2 : decodes
    [(2, 0x4C8285EB, .atomCas ⟨19, false⟩ 20 11 13 3), (2, 0x528A8673, .propose ⟨20, true⟩ 20 12 14 3),
      (2, 0x549286FB, .ocread ⟨21, false⟩ 20 13 15 3), (2, 0x589A8703, .ocrecycle ⟨22, false⟩ 20 14 0 3), (2, 0x5EA0006B, .bara ⟨23, true⟩ 13 3),
      (2, 0x60A80703, .barw ⟨24, false⟩ 14 0 3), (2, 0x64B0078B, .bar ⟨25, false⟩ 15 1 3), (2, 0x6ABA0900, .popw ⟨26, true⟩ 16 18),
      (2, 0x6CBA2981, .popwB ⟨27, false⟩ 17 19), (2, 0x70C24A00, .pushw ⟨28, false⟩ 18 20), (2, 0x76C26A81, .pushwC ⟨29, true⟩ 19 21),
      (2, 0x78CA8B18, .qpush ⟨30, false⟩ 20 22 24), (2, 0x7CD00000, .trigger ⟨31, false⟩), (2, 0x82DACC00, .wstat ⟨32, true⟩ 22 24),
      (2, 0x84E2EC9B, .digq ⟨33, false⟩ 23 25 27), (2, 0x88EB0D05, .digb ⟨34, false⟩ 24 26 5), (2, 0x8EF32D9D, .digrs ⟨35, true⟩ 25 27 29)] = true := by decide
theorem test_decode_d_slot_3 : decodes
    [(2, 0x90FB4E1E, .kvapp ⟨36, false⟩ 26 28 30)] = true := by decide
theorem test_decode_vector_1 : decodes
    [(3, 0x00000000, .nopV), (3, 0x9A0F3C06, .vadd ⟨38, true⟩ 28 30 0 3), (3, 0x9C0F7E19, .vaddS ⟨39, false⟩ 29 31 1 4),
      (3, 0xA017802A, .vsub ⟨40, false⟩ 30 0 2 5), (3, 0xA617C23D, .vsubS ⟨41, true⟩ 31 1 3 6), (3, 0xA818044E, .vmul ⟨42, false⟩ 0 2 4 7),
      (3, 0xAC184651, .vmulS ⟨43, false⟩ 1 3 5 0), (3, 0xB2208862, .vfma ⟨44, true⟩ 2 4 6 1), (3, 0xB428CA74, .vfms ⟨45, false⟩ 3 5 7 2),
      (3, 0xB8310C86, .vmin ⟨46, false⟩ 4 6 8 3), (3, 0x1E394E98, .vmax ⟨7, true⟩ 5 7 9 4), (3, 0x20419009, .vabs ⟨8, false⟩ 6 8 4 1),
      (3, 0x2449D20A, .vneg ⟨9, false⟩ 7 9 5 0), (3, 0x2A52140C, .vrcp ⟨10, true⟩ 8 10 6), (3, 0x2C5A560E, .vrsq ⟨11, false⟩ 9 11 7),
      (3, 0x30629800, .vexp2 ⟨12, false⟩ 10 12 0), (3, 0x366ADA02, .vlog2 ⟨13, true⟩ 11 13 1)] = true := by decide
theorem test_decode_vector_2 : decodes
    [(3, 0x38731D06, .vand ⟨14, false⟩ 12 14 16 3), (3, 0x3C7B5F18, .vor ⟨15, false⟩ 13 15 17 4), (3, 0x4283A12A, .vxor ⟨16, true⟩ 14 16 18 5),
      (3, 0x448BE33C, .vshl ⟨17, false⟩ 15 17 19 6), (3, 0x4894254E, .vshr ⟨18, false⟩ 16 18 20 7), (3, 0x4E9C6750, .vsar ⟨19, true⟩ 17 19 21 0),
      (3, 0x50A5ED85, .vcmp ⟨20, false⟩ 5 7 22 24 2), (3, 0x54ACEB74, .vsel ⟨21, false⟩ 19 21 23 2), (3, 0x5AB52C86, .vcvt ⟨22, true⟩ 20 22 8 3),
      (3, 0x5CB56E91, .vcvtBits ⟨23, false⟩ 21 23 9), (3, 0x60BDB1AA, .vqntT8 ⟨24, false⟩ 22 24 26 5),
      (3, 0x66BDF3BD, .vqntT6 ⟨25, true⟩ 23 25 27 6), (3, 0x68C63400, .vsclT8 ⟨26, false⟩ 24 26), (3, 0x6CC67601, .vsclT6 ⟨27, false⟩ 25 27),
      (3, 0x72CEB800, .vredadd ⟨28, true⟩ 26 28 0), (3, 0x74CEFA03, .vredaddS ⟨29, false⟩ 27 29 1), (3, 0x78D73C04, .vredmax ⟨30, false⟩ 28 30 2)] = true := by decide
theorem test_decode_vector_3 : decodes
    [(3, 0x7EDF7E06, .vredmin ⟨31, true⟩ 29 31 3), (3, 0x80E78008, .vscan ⟨32, false⟩ 30 0 4), (3, 0x84E7C20B, .vscanX ⟨33, false⟩ 31 1 5),
      (3, 0x8AE80427, .vbcast ⟨34, true⟩ 0 2 4 7), (3, 0x8CF60629, .vext ⟨35, false⟩ 193 3 5), (3, 0x90F8B034, .vins ⟨36, false⟩ 2 196 6),
      (3, 0x9700CA74, .vperm ⟨37, true⟩ 3 5 7 2), (3, 0x99090C43, .vslide ⟨38, false⟩ 4 6 8 3), (3, 0x9D114E98, .vhash ⟨39, false⟩ 5 7 9 4),
      (3, 0xA3199055, .viota ⟨40, true⟩ 6 8 10 5), (3, 0xA520C850, .lmand ⟨41, false⟩ 3 4 5), (3, 0xA9210A61, .lmandn ⟨42, false⟩ 4 5 6),
      (3, 0xAF294C70, .lmor ⟨43, true⟩ 5 6 7), (3, 0xB1318E00, .lmxor ⟨44, false⟩ 6 7 0), (3, 0xB539C000, .lmnot ⟨45, false⟩ 7 0),
      (3, 0xBB400280, .lmcnt ⟨46, true⟩ 0 1 16), (3, 0x1D484488, .lmff ⟨7, false⟩ 1 2 17)] = true := by decide
theorem test_decode_vector_4 : decodes
    [(3, 0x2153B480, .twr ⟨8, false⟩ 14 3 18), (3, 0x275BC4D4, .trdc ⟨9, true⟩ 15 0 19 5), (3, 0x29641518, .trdr ⟨10, false⟩ 16 1 20 6),
      (3, 0x2D68100C, .tzero ⟨11, false⟩ 1 3), (3, 0x33702540, .vchk ⟨12, true⟩ 18 20 0), (3, 0x35700E01, .vchkLm ⟨13, false⟩ 7 0),
      (3, 0x397D2D80, .vskb ⟨14, false⟩ 20 22 24), (3, 0x3F855793, .vld ⟨15, true⟩ 21 23 9 0 3), (3, 0x418D988B, .vst ⟨16, false⟩ 22 24 4 1 3),
      (3, 0x4595D9BD, .vldg ⟨17, false⟩ 23 25 11 13), (3, 0x4B9E1ACE, .vstg ⟨18, true⟩ 24 26 6 14),
      (3, 0x4DA676E8, .vgath ⟨19, false⟩ 25 27 29 0), (3, 0x51A6B8F5, .vgathG ⟨20, false⟩ 26 28 30 1),
      (3, 0x57AEFAFA, .vscat ⟨21, true⟩ 27 29 31 2), (3, 0x59AF3D07, .vscatG ⟨22, false⟩ 28 30 32 3),
      (3, 0x5DB77F0C, .vatom ⟨23, false⟩ 29 31 33 4)] = true := by decide
theorem test_decode_matrix_1 : decodes
    [(5, 0x00000000, .nopM), (5, 0x640EE120, .mma ⟨25, false⟩ 3 225 1 0), (5, 0x6808E222, .mmaZ ⟨26, false⟩ 0 226 1 0),
      (5, 0x6E120F20, .mmas ⟨27, true⟩ 1 15 1 0), (5, 0x70140F22, .mmasZ ⟨28, false⟩ 2 15 1 0), (5, 0x741E0000, .mzero ⟨29, false⟩ 3 0),
      (5, 0x7A203685, .mpop ⟨30, true⟩ 0 6 104 1 1), (5, 0x7C2A3E90, .mpush ⟨31, false⟩ 1 7 105 0), (5, 0x80340000, .mret ⟨32, false⟩ 2),
      (5, 0x863E0000, .mfmt ⟨33, true⟩ 3 0), (5, 0x88400003, .mflush ⟨34, false⟩ 1 1), (5, 0x8C414805, .mflushPc ⟨35, false⟩ 41 0 1),
      (5, 0x92495000, .mstat ⟨36, true⟩ 42), (5, 0x94495801, .mstatC ⟨37, false⟩ 43)] = true := by decide
theorem test_decode_command_1 : decodes
    [(6, 0x00000000, .nopC), (6, 0x9E0EDE00, .dld ⟨39, true⟩ 13 47), (6, 0xA0176011, .dset ⟨40, false⟩ 14 48 17),
      (6, 0xA417E231, .dsetAdd ⟨41, false⟩ 15 49 17), (6, 0xAA186400, .msetw ⟨42, true⟩ 0 50), (6, 0xAC20E6A8, .cpy ⟨43, false⟩ 1 51 5 0 1 0),
      (6, 0xB02968D0, .cpym ⟨44, false⟩ 2 52 6 1), (6, 0xB6336AE8, .cpyq ⟨45, true⟩ 6 53 7 0 1 0), (6, 0xB83A6D10, .cpyx ⟨46, false⟩ 4 54 8 1 0),
      (6, 0x1C436F31, .gath ⟨7, false⟩ 6 55 9 4 1), (6, 0x224B7157, .feed ⟨8, true⟩ 6 56 10 1 3 1),
      (6, 0x2453F373, .drain ⟨9, false⟩ 7 57 11 2 3), (6, 0x285F1D60, .lsend ⟨10, false⟩ 56 58 12), (6, 0x2E673DE8, .lrecv ⟨11, true⟩ 57 59 13),
      (6, 0x306F5E71, .lrxadd ⟨12, false⟩ 58 60 14 1)] = true := by decide

/-- The worked encodings of the spec that are not among `workedWords`. -/
theorem test_worked_encodings : decodes
    [(6, 0x00208810, .cpy .always 1 4 0 1 0 0), (2, 0x00F9458C, .kvapp .always 10 11 12), (3, 0x0008C010, .vadd .always 3 0 1 0),
      (3, 0x01700430, .vchk .always 2 3 0), (2, 0x00D8C380, .wstat .always 6 7), (0, 0x00048E10, .bsel false .always 7 16),
      (1, 0x00D122B3, .movhi .always 9 0x2B3), (1, 0x00D1389A, .movhi .always 9 0x189A), (0, 0x80000000, .nopb true .always),
      (2, 0x008A8B05, .propose .always 20 22 0 5), (2, 0x00928B0C, .ocread .always 20 22 1 4), (2, 0x009A8B02, .ocrecycle .always 20 22 0 2)] = true := by decide

/-- Words that no slot reads: a reserved opcode, a reserved guard index, an undefined field value. -/
theorem test_reserved_words : ([(1, 0x01F80000), (1, 0xD4080000), (3, 0x01F80000), (0, 0x50000000), (6, 0x01F80000)] : List (BitVec 3 × BitVec 32)).all
    (fun p => match decodeSlot p.1 p.2 with | .ok _ => false | .error _ => true) = true := by decide

/-! ## Small states for the tests of single instructions -/

/-- The reset state with its core changed and every link port up. -/
def onCore (f : Core → Core) : State :=
  let s := State.reset
  { s with core := f s.core, ports := (List.range 12).foldl (fun b i => b.write (BitVec.ofNat 4 i) ⟨2, 8, 0, []⟩) s.ports }

/-- An overlay of `n` bundles of NOPs, as the fetch helper places it. -/
def overlayOf (n : Nat) : Option Overlay := (State.reset.withFetchWord 32 0).core.overlay.map fun (o : Overlay) => { o with bundles := List.replicate n 0 }

/-- The main context about to run a slot of bundle `ix` with the scalar registers of the list. -/
def withS (ix : BitVec 13) (l : List (BitVec 6 × Word)) (c : Core) : Core :=
  let r : Priv := { c.main.regs with s := l.foldl (fun b p => b.write p.1 p.2) c.main.regs.s }
  { c with bound := true, overlay := overlayOf 8, main := { c.main with regs := r, run := .running, ix := ix }, cur := { c.cur with ctx := 0, ix := ix, pre := r } }

def small (l : List (BitVec 6 × Word)) : State := onCore (withS 2 l)

/-- The same with the state changed afterwards. -/
def inTail (s : State) : State := s.mapCore fun c => { c with cur := { c.cur with ctx := 1 }, tail0 := { c.tail0 with run := .running } }

/-- What one instruction leaves in a scalar register, when it goes on without a trap. -/
def result (s : State) (i : Instr) (d : BitVec 6) : Option Word :=
  match exec i s with
  | .next t => if t.core.cur.trap.isNone then some (t.ctx.regs.sreg d) else none
  | _ => none

/-- The trap that one instruction takes. -/
def trapOf (s : State) (i : Instr) : Option Cause :=
  match exec i s with
  | .next t => t.core.cur.trap.map (·.cause)
  | _ => none

/-- A guard that is false. -/
def never : Guard := ⟨0, true⟩

/-! ## Scalar instructions -/

def s1 : State := small [(1, 0x8000000000000000), (2, 5), (3, 0xFFFFFFFFFFFFFFFF), (4, 0x3FF0000000000000), (5, 0x7FF0000000000001), (6, 0x0403)]

theorem witness_integer_result :
    ([.add .always 7 1 2, .sub .always 7 1 2, .mul .always 7 1 2, .mulh .always 7 1 3, .mulhz .always 7 1 3, .and .always 7 1 3, .andn .always 7 1 3,
      .or .always 7 1 2, .xor .always 7 1 2, .shl .always 7 1 3, .shli .always 7 1 63, .shr .always 7 1 3, .shri .always 7 1 63, .sar .always 7 1 3,
      .sari .always 7 1 63, .rotr .always 7 1 2, .rotrImm .always 7 1 63, .min .always 7 1 2, .minz .always 7 1 2, .max .always 7 1 2,
      .maxz .always 7 1 2, .clz .always 7 0, .ctz .always 7 0, .popc .always 0 3] : List Instr).all
      (fun i => match intResult s1 i with | some (g, _, _) => s1.guard g | none => false) = true := by decide

/-- R107, by hand: the signed and the unsigned high product of -2^63 and -1, and a shift by the low six bits of its count. -/
theorem test_integer_values : result s1 (.mulh .always 7 1 3) 7 = some 0 ∧ result s1 (.mulhz .always 7 1 3) 7 = some 0x7FFFFFFFFFFFFFFF ∧
    result s1 (.sar .always 7 1 3) 7 = some 0xFFFFFFFFFFFFFFFF ∧ result s1 (.clz .always 7 0) 7 = some 64 ∧ result s1 (.add .always 0 1 2) 0 = some 0 := by
  decide

theorem witness_division_result :
    ([.div .always 7 1 3, .div .always 7 1 0, .divz .always 7 1 0, .rem .always 7 1 3, .rem .always 7 1 0, .remz .always 7 1 0] : List Instr).all
      (fun i => match divResult s1 i with | some (g, _, _) => s1.guard g | none => false) = true := by decide

/-- The table of R108. -/
theorem test_division_borders : result s1 (.div .always 7 1 0) 7 = some 0xFFFFFFFFFFFFFFFF ∧ result s1 (.rem .always 7 1 0) 7 = some 0x8000000000000000 ∧
    result s1 (.div .always 7 1 3) 7 = some 0x8000000000000000 ∧ result s1 (.rem .always 7 1 3) 7 = some 0 ∧
    result s1 (.divz .always 7 2 0) 7 = some 0xFFFFFFFFFFFFFFFF ∧ result s1 (.remz .always 7 2 0) 7 = some 5 := by decide

theorem witness_bit_field_result :
    ([.bfx .always 7 1 6, .bfxz .always 7 1 6, .bfi .always 7 3 6] : List Instr).all
      (fun i => match fieldDest i with | some (g, _) => s1.guard g | none => false) = true ∧ fieldPos (s1.sreg 6) = 3 ∧ fieldWid (s1.sreg 6) = 4 := by decide

/-- R109, by hand: a field of four bits at bit 3. -/
theorem test_bit_field_values : result s1 (.bfx .always 7 3 6) 7 = some 0xFFFFFFFFFFFFFFFF ∧ result s1 (.bfxz .always 7 3 6) 7 = some 15 ∧
    result s1 (.bfi .always 2 3 6) 2 = some 0x7D := by decide

theorem witness_immediate_result :
    ([.addi .always 7 1 0x40, .andi .always 7 1 0x40, .ori .always 7 1 0x3F, .xori .always 7 1 0x7F, .lea .always 7 1 0x7F, .movi .always 7 0x1000,
      .movhi .always 2 0x1FFF] : List Instr).all (fun i => match immResult s1 i with | some (g, _, _) => s1.guard g | none => false) = true := by decide

/-- The second of the three steps of R112, and LEA one register down. -/
theorem test_immediate_values : result (small [(9, 0x48D)]) (.movhi .always 9 0x2B3) 9 = some 0x91A2B3 ∧
    result s1 (.lea .always 7 2 0x7F) 7 = some 0xFFFFFFFFFFFFFF05 := by decide

/-- R110: both sides of SEL. -/
theorem test_select : result s1 (.sel .always 7 1 2) 7 = some 0x8000000000000000 ∧ result s1 (.sel never 7 1 2) 7 = some 5 := by decide

theorem witness_compare_result :
    ([.cmpEq .always 0 0 1 2, .cmpNe .always 0 0 1 2, .cmpLt .always 0 0 1 2, .cmpLe .always 0 0 1 2, .cmpGt .always 0 0 1 2, .cmpGe .always 0 0 1 2,
      .cmpLo .always 23 1 1 2, .cmpLs .always 23 1 1 2, .cmpHi .always 23 1 1 2, .cmpHs .always 23 1 1 2, .cmpiEq .always 1 0 1 32, .cmpiNe .always 1 0 1 32,
      .cmpiLt .always 1 0 1 32, .cmpiLe .always 1 0 1 32, .cmpiGt .always 1 0 1 32, .cmpiGe .always 1 0 1 32, .cmpiLo .always 1 0 1 32,
      .cmpiLs .always 1 0 1 32, .cmpiHi .always 1 0 1 32, .cmpiHs .always 1 0 1 31] : List Instr).all
      (fun i => match compareOf s1 i with | some (g, k, _, _) => s1.guard g && decide (k.toNat < 24) | none => false) = true ∧
    (compareOf s1 (.cmpEq never 23 1 1 2)).isSome = true ∧ (compareOf s1 (.cmpEq never 23 0 1 2)).isSome = true ∧ s1.guard never = false := by decide

/-- R113: -2^63 is lower signed and higher unsigned than 5; `p0` stays true. -/
theorem test_compare_values :
    (match exec (.cmpLt .always 1 0 1 2) s1 with | .next t => (t.ctx.regs.preg 2, t.ctx.regs.preg 3) | _ => (false, false)) = (true, false) ∧
    (match exec (.cmpLo .always 0 0 1 2) s1 with | .next t => (t.ctx.regs.preg 0, t.ctx.regs.preg 1) | _ => (false, false)) = (true, true) := by decide

theorem witness_predicate_logic :
    ([.pand .always 47 0 1, .pandn .always 0 0 1, .por .always 1 0 47, .pxor .always 1 0 1] : List Instr).all
      (fun i => match logicOf s1 i with | some (g, d, _) => s1.guard g && decide (d.toNat < 48) | none => false) = true := by decide

theorem witness_special_read :
    ([0, 1, 2, 4, 5, 6, 8, 9, 10, 11, 12, 15, 16, 17, 18, 19, 20, 21, 22] : List (BitVec 8)).all (fun n => (specialRead s1 n).isSome) = true ∧
    (specialRead s1 13).isSome = true ∧ (specialRead s1 14).isSome = true ∧ s1.guard .always = true := by decide

theorem witness_special_write : (s1.guard .always = true ∧ s1.core.cur.ctx = 0) ∧ ((inTail s1).guard .always = true ∧ 3 ≤ (3 : BitVec 8).toNat) ∧
    ((inTail s1).core.cur.ctx ≠ 0 ∧ (2 : BitVec 8).toNat < 3) := by decide

/-- R37: RM of 7 keeps the mode; R62: a seed of zero becomes one; R118: a tail does not write FRM. -/
theorem test_special_writes :
    (match exec (.mts .always 3 0) s1 with | .next t => t.core.sh.frm | _ => 0) = 0x7F0 ∧
    (match exec (.mts .always 0 1) s1 with | .next t => t.core.sh.seed | _ => 0) = 1 ∧ trapOf (inTail s1) (.mts never 3 0) = some .illegalSlot := by decide

theorem witness_set_engine_format : (s1.core.cur.ctx = 0 ∧ s1.guard .always = true ∧ efmtOk ((s1.sreg 2).extractLsb' 0 8) = true) ∧
    efmtOk ((s1.sreg 3).extractLsb' 0 8) = false ∧ (inTail s1).core.cur.ctx ≠ 0 := by decide

theorem witness_engine_format_timing : (onCore fun c => { c with sh := { c.sh with efmtPend := [(0, 0x19)] } }).core.sh.efmtPend = [(0, 0x19)] := by decide

theorem witness_scalar_float_arithmetic :
    ([.faddH .always 7 1 2, .faddF .always 7 1 2, .faddD .always 7 4 4, .fsubH .always 7 1 2, .fsubF .always 7 1 2, .fsubD .always 7 4 4, .fmulH .always 7 1 2,
      .fmulF .always 7 1 2, .fmulD .always 7 4 5, .ffmaH .always 7 1 2, .ffmaF .always 7 1 2, .ffmaD .always 0 4 4] : List Instr).all
      (fun i => match fpExact s1 .rne i with | some (g, _, _, _, _) => s1.guard g | none => false) = true ∧
    (roundingOf s1.core.cur.preSh.frm s1.core.sh.seed).1 = .rne := by decide

/-- 1 + 1 in FP64, and a signalling NaN that sets NVF (R50, R51). -/
theorem test_float_values : result s1 (.faddD .always 7 4 4) 7 = some 0x4000000000000000 ∧ result s1 (.fminD .always 7 4 5) 7 = some 0x3FF0000000000000 ∧
    (match exec (.fminD .always 7 4 5) s1 with | .next t => t.core.sh.frm | _ => 0) = 0x100 := by decide

theorem witness_scalar_float_min_max :
    ([.fminH .always 7 1 2, .fminF .always 7 1 2, .fminD .always 7 4 5, .fmaxH .always 7 1 2, .fmaxF .always 7 1 2, .fmaxD .always 0 5 5] : List Instr).all
      (fun i => match fpPick i with | some (g, _) => s1.guard g | none => false) = true := by decide

theorem witness_scalar_float_compare :
    ([.fcmpH .always 0 0 0 1 2, .fcmpF .always 23 1 1 1 2, .fcmpD .always 1 0 3 4 5] : List Instr).all
      (fun i => match fpCompare s1 i with | some (g, k, _) => s1.guard g && decide (k.toNat < 24) | none => false) = true ∧
    (fpCompare s1 (.fcmpD never 23 1 2 4 5)).isSome = true ∧ (fpCompare s1 (.fcmpD never 23 0 2 4 5)).isSome = true ∧ s1.guard never = false := by decide

/-- FP64 1.0 to FP16, and I64 5 to FP32 (R117). -/
theorem test_convert_values : result s1 (.fcvt .always 7 4 3 0) 7 = some 0x3C00 ∧ result s1 (.fcvt .always 7 2 5 2) 7 = some 0x40A00000 := by decide

theorem witness_tapered_round_trip : (0x7F : BitVec 8) ≠ 0x80 := by decide

theorem witness_idle_forms : ([.nopb true never, .nopS, .nopD, .nopV, .nopM, .nopC, .ximm 3 5] : List Instr).all idleForm = true := by decide

theorem witness_software_check : s1.guard .always = true ∧ trapOf s1 (.schk .always 1 2) = some .checkMismatch ∧ trapOf s1 (.schk .always 1 1) = none ∧
    trapOf s1 (.schkPred .always 0 1) = some .checkMismatch := by decide

theorem witness_software_traps : trapOf s1 (.trap false .always 511) = some .swTrap ∧ trapOf s1 (.trap false never 1) = none ∧
    trapOf s1 (.brk false .always 0) = some .brk := by decide

/-! ## The B slot -/

/-- A member whose `b0` to `b3` are 1, 3, 5 and 6. -/
def sB : State := (small [(7, 37), (8, 5), (9, 200)]).mapCore fun c =>
  let b := ((c.main.regs.b.write 0 1).write 1 3 |>.write 2 5).write 3 6
  { c with main := { c.main with regs := { c.main.regs with b := b } }, cur := { c.cur with pre := { c.cur.pre with b := b } } }

theorem witness_transfers :
    ([.br false .always 5, .br false .always 6, .call false .always 0x1FFFFE, .callr false .always 8, .ret false .always 8, .tree false 0 0 0 0,
      .tree false 1 1 1 0, .tree false 1 1 1 1] : List Instr).all transferForm = true ∧
    transferOf sB (.br false .always 5) = some (7, false, false) ∧ inImage sB 7 = true ∧ inImage sB 8 = false ∧
    transferOf sB (.tree false 1 1 1 0) = some (8, false, false) ∧ transferOf sB (.tree false 1 1 1 1) = none := by decide

/-- R121, R124: a branch beyond the image traps, and CALL links. -/
theorem test_transfers : trapOf sB (.br false .always 6) = some .illegalEnc ∧ result sB (.call false .always 1) 61 = some 3 := by decide

theorem witness_main_context_only :
    ([.loop false never 1 1, .loopx false never 1 1, .bsel false never 1 1, .yield false never 1, .endMember false never, .relc false never 1 0,
      .fjoin false never 1 0] : List Instr).all (fun i => mainForm i && (trapOf (inTail sB) i == some .illegalSlot)) = true ∧
    tailColumn (inTail sB) = true := by decide

theorem witness_bucket_select : tailColumn sB = false ∧ imm9Of sB 16 ≠ 0 ∧ sB.guard .always = true ∧ (sB.sreg 7).toNat ≤ imm9Of sB 16 * 2 ^ (2 : BitVec 2).toNat ∧
    (∀ j : BitVec 2, j.toNat < (2 : BitVec 2).toNat → imm9Of sB 16 * 2 ^ j.toNat < (sB.sreg 7).toNat) ∧ inImage sB (2 + (sB.breg 2).toInt) = true ∧
    imm9Of sB 16 * 8 < (sB.sreg 9).toNat := by decide

/-- The example of R125: base 16 and a length of 37 take `b2` and leave 27 positions; a length of 0 takes `b0` with 16. -/
theorem test_bucket_select : result sB (.bsel false .always 7 16) 7 = some 27 ∧
    (match exec (.bsel false .always 7 16) sB with | .next t => t.core.cur.target | _ => none) = some 7 ∧ result sB (.bsel false .always 0 16) 0 = some 0 ∧
    result sB (.bsel false .always 10 16) 10 = some 16 := by decide

/-- A member in a loop body of bundles 0 to 4, with descriptor 1 counting six iterations and descriptor 2 counting 2^32. -/
def sL : State := sB.mapCore fun c =>
  let counts := fun (l : List Nat) => l.zipIdx.foldl (fun (d : BitVec 512) x => d ||| BitVec.ofNat 512 x.1 <<< (44 + 56 * x.2)) 0
  let sh := { c.sh with loops := [⟨3, 0, 4⟩], d := (c.sh.d.write 1 (counts [6, 1, 1, 1, 1, 1])).write 2 (counts [2048, 2048, 1024, 1, 1, 1]) }
  { c with sh := sh, cur := { c.cur with preSh := sh } }

theorem witness_loop_opens : tailColumn sL = false ∧ (loopForm sL (.loop false .always 1 0)).isSome = true ∧ (loopForm sL (.loopx false never 8 1)).isSome = true ∧
    2 ^ 32 ≤ nestCount (sL.dreg 2) ∧ loopBad sL 5 5 = true ∧ loopBad sL 8 0 = true ∧ loopBad sL 4 0 = false ∧ loopBad sL 4 5 = false ∧
    loopForm sL (.loopx false .always 8 2) = some (.always, 2, 5) ∧ loopForm sL (.loopx false .always 0 2) = some (.always, 2, 0) := by decide

theorem test_loop_opens : trapOf sL (.loopx false .always 8 3) = some .illegalEnc ∧
    (match exec (.loopx false .always 8 2) sL with | .next t => t.core.sh.loops | _ => []) = [⟨5, 3, 4⟩, ⟨3, 0, 4⟩] := by decide

/-- Two bodies end at bundle 2: the inner one has its last iteration, the outer one more. -/
def sE : State := sB.mapCore fun c => { c with sh := { c.sh with loops := [⟨1, 1, 2⟩, ⟨2, 0, 2⟩] } }

theorem witness_loop_ends : sE.core.cur.ctx = 0 ∧ sE.core.cur.target = none ∧ sE.core.cur.skip = none ∧ sE.following = (0, [⟨1, 0, 2⟩], true) := by decide

theorem witness_transfers_and_loops :
    let s := sE.mapCur fun c => { c with target := some 3 }
    s.core.cur.ctx = 0 ∧ s.core.cur.target = some 3 ∧ s.core.sh.loops = ⟨1, 1, 2⟩ :: [⟨2, 0, 2⟩] ∧ s.following.2.1 = [⟨2, 0, 2⟩] := by decide

theorem witness_checkpoint_forms : sB.guard .always = true ∧ tailColumn sB = false ∧ imm9Of sB 1 ≠ 0 ∧ imm9Of sB 511 ≠ 0 := by decide

/-- A member that may release its caller: `s61` names bundle 5, and its frame lies at 0x1F0000. -/
def sR : State := small [(61, 5), (62, 0x1F0000)]

theorem witness_release_to_tail : tailColumn sR = false ∧ sR.guard .always = true ∧ imm9Of sR 0 % 8 = 0 ∧ (47 : BitVec 6).toNat < 48 ∧
    (∀ j : BitVec 3, sR.core.cur.pre.dc.read j = 0) ∧ (sR.sreg 62 + BitVec.ofNat 64 (imm9Of sR 504)).toNat + 184 ≤ 0x200000 ∧
    inImage sR (sR.sreg 61).toNat = true ∧ (tailOf sR.core false).run = .free ∧
    (let s := sR.mapCore fun c => { c with tail0 := { c.tail0 with run := .running } }
     (tailOf s.core true).run = .free ∧ s.core.tail0.run ≠ .free) := by decide

theorem witness_release_inline :
    let s := sR.mapCore fun c => { c with tail0 := { c.tail0 with run := .running }, tail1 := { c.tail1 with run := .ended } }
    tailColumn s = false ∧ s.guard .always = true ∧ (∀ j : BitVec 3, s.core.cur.pre.dc.read j = 0) ∧ inImage s (s.core.cur.ix.toNat + 1) = true ∧
      (s.sreg 62 + BitVec.ofNat 64 (imm9Of s 8)).toNat + 184 ≤ 0x200000 ∧ s.core.tail0.run ≠ .free ∧ s.core.tail1.run ≠ .free := by decide

def sJ (r : CtxRun) : State := sR.mapCore fun c => { c with tail1 := { c.tail1 with run := r }, latest := some (some true, 0x1F00B8), frame1 := some ⟨0x1F0000, 0x1F00B8⟩ }

theorem witness_join_tail : tailColumn (sJ .ended) = false ∧ (sJ .ended).guard .always = true ∧ imm9Of (sJ .ended) 2 = 2 ∧ imm9Of (sJ .ended) 1 = 1 ∧
    imm9Of (sJ .ended) 0 = 0 ∧ (tailOf (sJ .ended).core true).run = .ended ∧ (sJ .ended).core.ctxQuiet (tailNumber true) = true ∧
    (tailOf (sJ .running).core true).run = .running ∧ (tailOf (sJ .free).core true).run = .free ∧ (sJ .ended).core.latest = some (some true, 0x1F00B8) ∧
    sR.core.latest = none := by decide

theorem test_join_tail : result (sJ .ended) (.fjoin false .always 7 2) 7 = some 0x1F00B8 ∧ result sR (.fjoin false .always 7 2) 7 = some 0x1F0000 ∧
    trapOf sR (.fjoin false .always 7 3) = some .illegalEnc := by decide

theorem witness_tail_ends : (inTail sB).core.cur.ctx ≠ 0 ∧ (inTail sB).guard .always = true ∧ sB.core.cur.ctx = 0 ∧ sB.core.inline = none := by decide

theorem witness_inline_ends :
    let r : Inline := ⟨0x1F0000, 7, 47, [1, 2, 3, 4, 5, 6, 7, 8], 0xA⟩
    let s := sR.mapCore fun c => { c with inline := some r }
    s.core.cur.ctx = 0 ∧ s.core.inline = some r ∧ s.guard .always = true ∧ r.s18.length = 8 ∧ r.pm.toNat < 48 ∧ inImage s r.ret.toNat = true := by decide

/-! ## Memory instructions -/

/-- The member with all 64 KiB pages of address 0x10000 on mapped by one cached leaf with the attributes in the low bits of `a`, as bits 61 to 57. -/
def mapped (a : BitVec 5) (s : State) : State := s.mapCore fun c =>
  { c with utlb := [⟨0, 0x10000, 3, 3#2 ++ a ++ 0#12 ++ 0x200#37 ++ 0#8⟩] }

/-- Registers: `s1` 0x1F_FFF8, `s2` 0x10000 (device), `s3` a window address, `s4` an odd address, `s5` beyond the local range, `s6` an aligned vector row. -/
def sM : State := small [(1, 0x1FFFF8), (2, 0x10000), (3, 0xE00000), (4, 0x1FFFF9), (5, 0x200000), (6, 0x1FFF00), (7, 0x0123456789ABCDEF), (8, 1), (9, 0x100003F)]

theorem local_ok (va : Word) (n : Nat) (h : va.toNat % n = 0) (h2 : va.toNat + n ≤ 0x200000) : LocalOk sM va n n 0 false := ⟨h, h2, nofun⟩

theorem witness_scratchpad_load : sM.guard .always = true ∧ LocalOk sM (sM.sreg 1) 8 8 0 false ∧ sM.core.spadPoisoned (sM.sreg 1).toNat 8 = false ∧
    LocalOk sM (sM.sreg 0) 1 1 0 true := ⟨by decide, local_ok _ _ (by decide) (by decide), by decide, ⟨by decide, by decide, fun _ => by decide⟩⟩

theorem witness_scratchpad_store : sM.guard .always = true ∧ LocalOk sM (sM.sreg 1) 8 8 0 false ∧ Memory.wf sM.core.spad = true :=
  ⟨by decide, local_ok _ _ (by decide) (by decide), by decide⟩

/-- A store at the top of the scratchpad, little-endian, and a sign-extending load of its top byte (R190). -/
theorem test_store_then_load :
    (match exec (.sts .always 7 1 0 3) sM with
      | .next t => (Memory.read t.core.spad 0x1FFFF8, Memory.read t.core.spad 0x1FFFFF, result t (.lds .always 10 1 0 0 1) 10)
      | _ => (0, 0, none)) = (0xEF, 0x01, some 0xFFFFFFFFFFFFFFEF) := by decide

theorem witness_vector_scratchpad_load : tailColumn sM = false ∧ LocalOk sM (sM.sreg 6) 256 64 4 false ∧
    sM.core.spadPoisoned ((sM.sreg 6).toNat - (sM.sreg 6).toNat % 256) ((sM.sreg 6).toNat % 256 + 256) = false :=
  ⟨by decide, ⟨by decide, by decide, nofun⟩, by decide⟩

theorem witness_vector_scratchpad_store : tailColumn sM = false ∧ (4 : BitVec 3).toNat < 5 ∧ LocalOk sM (sM.sreg 6) 256 64 4 false ∧
    Memory.wf sM.core.spad = true ∧ (sM.lmask 1).getLsbD 255 = true := ⟨by decide, by decide, ⟨by decide, by decide, nofun⟩, by decide, by decide⟩

/-- A team of the four members of quad 0. -/
def sW : State := { sM with binds := (((sM.binds.write 0 2).write 1 2).write 16 2).write 17 3 }

theorem witness_window_accesses : WindowOk sW 0x9FFFF8 8 8 0 false 0 0x1FFFF8 ∧ WindowOk sW 0xE00000 256 64 4 true 3 0 ∧ tailColumn sW = false ∧
    sW.guard .always = true :=
  ⟨⟨by decide, by decide, by decide, by decide, nofun⟩, ⟨by decide, by decide, by decide, by decide, fun _ => by decide⟩, by decide, by decide⟩

/-- Indices 0 and 63 of 32-bit elements from 0x1F_FF00: the last one ends at the top of the scratchpad. -/
def sG : State := sM.mapCore fun c =>
  let v := (c.sh.v.write 1 ⟨0, 8⟩).write 2 ⟨BitVec.ofNat 2048 (63 * 2 ^ 32), 8⟩
  let lm := c.sh.lm.write 1 0xFF
  let sh := { c.sh with v := v, lm := lm }
  { c with sh := sh, cur := { c.cur with preSh := sh } }

theorem witness_local_gather_scatter : tailColumn sG = false ∧ sG.guard .always = true ∧ indexTags (sG.vreg 1).tag (sG.vreg 2).tag = true ∧
    elementsOf sG 6 (sG.vreg 2) 4 (sG.lmask 1) = [(0, 0x1FFF00), (1, 0x1FFFFC)] ∧ sG.core.spadPoisoned 0x1FFF00 4 = false ∧
    sG.core.spadPoisoned 0x1FFFFC 4 = false ∧ Memory.wf sG.core.spad = true := by decide

theorem witness_scratchpad_traps : (sM.sreg 4).toNat % 2 ≠ 0 ∧ ((sM.sreg 5).toNat % 8 = 0 ∧ 0x200000 ≤ (sM.sreg 5).toNat ∧ (sM.sreg 5).toNat < 0x800000) ∧
    ((sM.sreg 3).toNat / 0x200000 = 4 + (3 : BitVec 2).toNat) ∧ (sM.cutOff 17 = false ∧ sM.sameTeam 0 17 = false) ∧
    ({ sM with binds := sM.binds.write 17 5 }).cutOff (quadMate 0 3) = true := by decide

/-- The same for a vector row: a misaligned, an outside and a window address. -/
theorem witness_vector_traps : tailColumn sM = false ∧ (sM.sreg 4).toNat % 64 ≠ 0 ∧ ((sM.sreg 5).toNat % 64 = 0 ∧ ¬ oneRange (sM.sreg 5).toNat 256) ∧
    ((sM.sreg 3).toNat % 64 = 0 ∧ 0x800000 + 0x200000 * (3 : BitVec 2).toNat ≤ (sM.sreg 3).toNat ∧ (sM.sreg 3).toNat + 256 ≤ 0x800000 + 0x200000 * ((3 : BitVec 2).toNat + 1)) := by
  unfold oneRange
  exact ⟨by decide, by decide, ⟨by decide, by decide⟩, by decide⟩

/-- R187, R188, R193: the causes of misplaced rows. -/
theorem test_vector_traps : trapOf sM (.vld .always 1 4 0 0 0) = some .align ∧ trapOf sM (.vst .always 1 5 0 0 0) = some .spadRange ∧
    trapOf sM (.vld .always 1 3 0 0 0) = some .prot := by decide

/-- R187, R188: the causes of misplaced accesses. -/
theorem test_scratchpad_traps : trapOf sM (.lds .always 7 4 0 1 0) = some .align ∧ trapOf sM (.sts .always 7 5 0 3) = some .spadRange ∧
    trapOf sM (.lds .always 7 3 0 3 0) = some .prot := by decide

theorem device_ok (a : BitVec 5) (acc : Machine.Access) (h : (mapped a sM).firstTrap 0x10000 256 acc = none) : DeviceOk (mapped a sM) 0x10000 256 64 acc := by
  refine ⟨by decide, ?_, h, ?_⟩
  · clear h; revert a; decide
  · clear h; revert a; decide

theorem witness_device_loads : (deviceLoadOf (mapped 0 sM) (.ldg .always 7 2 15 3 0)).isSome = true ∧ (deviceLoadOf (mapped 0 sM) (.vldg .always 1 2 1 0)).isSome = true ∧
    DeviceOk (mapped 0 sM) 0x10000 256 64 .load ∧ (mapped 0 sM).anySC 0x10000 256 = false ∧ (mapped 8 sM).anySC 0x10000 8 = true ∧
    DeviceOk (mapped 8 sM) 0x10000 256 64 .load ∧ (mapped 8 sM).ctx.ckDone = false ∧ (mapped 8 sM).ctx.irrevOut = false ∧
    tailColumn (mapped 0 sM) = false ∧ ((mapped 8 sM).mapCtx fun x => { x with ckDone := true }).ctx.ckDone = true :=
  ⟨by decide, by decide, device_ok 0 .load (by decide), by decide, by decide, device_ok 8 .load (by decide), by decide, by decide, by decide, by decide⟩

theorem witness_device_stores : (deviceStoreOf (mapped 16 sM) (.stg .always 7 2 15 3)).isSome = true ∧ (deviceStoreOf (mapped 16 sM) (.vstg .always 1 2 1 0)).isSome = true ∧
    DeviceOk (mapped 16 sM) 0x10000 256 64 .store ∧ (mapped 16 sM).anySC 0x10000 8 = false ∧ (mapped 16 sM).pieces 0x10000 8 = [(0, 0x20000)] ∧
    DeviceOk (mapped 24 sM) 0x10000 256 64 .store ∧ (mapped 24 sM).anySC 0x10000 8 = true :=
  ⟨by decide, by decide, device_ok 16 .store (by decide), by decide, by decide, device_ok 24 .store (by decide), by decide⟩

/-- R40: a store to device memory is withheld; R188: a misaligned one traps; without the W attribute it takes PROT (R189). -/
theorem test_device_stores :
    (match exec (.stg .always 7 2 0 3) (mapped 16 sM) with
      | .next t => (heldByte t.ctx.part 0x20000, heldByte t.ctx.part 0x20008, t.mem == sM.mem)
      | _ => (none, none, false)) = (some 0xEF, none, true) ∧ trapOf (mapped 16 sM) (.stg .always 7 4 0 3) = some .align ∧
    trapOf (mapped 0 sM) (.stg .always 7 2 0 3) = some .prot := by decide

theorem witness_withheld_bytes : (0x20038 < 2 ^ 45) ∧ ∀ b ∈ [(0, (1 : Byte)), (7, 2)], 0x20038 % 64 + b.1 < 64 := by decide

/-- Three 32-bit elements at 0x10000, 0x10000 and 0x100FC of the device. -/
def sX : State := (mapped 16 sM).mapCore fun c =>
  let v := (c.sh.v.write 1 ⟨7, 8⟩).write 2 ⟨BitVec.ofNat 2048 (63 * 2 ^ 64), 8⟩
  let sh := { c.sh with v := v, lm := c.sh.lm.write 1 0xFFF }
  { c with sh := sh, cur := { c.cur with preSh := sh }, main := { c.main with ckDone := true } }

theorem witness_indexed_device : tailColumn sX = false ∧ sX.guard .always = true ∧ indexTags (sX.vreg 1).tag (sX.vreg 2).tag = true ∧ sX.accessHeld = false ∧
    elementsOf sX 2 (sX.vreg 2) 4 (sX.lmask 1) = [(0, 0x10000), (1, 0x10000), (2, 0x100FC)] ∧
    ((sX.physOf 0x10000).any fun p => !leafSC p.2 && (attrTrap p.2 .load).isNone && (attrTrap p.2 .store).isNone) = true ∧
    ((sX.physOf 0x100FC).any fun p => !leafSC p.2 && (attrTrap p.2 .load).isNone && (attrTrap p.2 .store).isNone) = true := by decide

theorem witness_vector_atomic : (sX.vreg 1).tag = 8 ∧ (sX.vreg 2).tag = 8 ∧ sX.ctx.ckDone = true ∧ sX.accessHeld = false ∧
    (elementsOf sX 2 (sX.vreg 2) 4 (BitVec.allOnes 256)).all (fun e => e.2 % 4 == 0 &&
      match sX.physOf e.2 with | some p => (attrTrap p.2 .atom).isNone | none => true) = true := by decide

theorem witness_irrevocable_operations :
    ([.atomAdd .always 20 2 0 3, .atomMin .always 20 2 0 3, .atomMax .always 20 2 0 3, .atomMinz .always 20 2 0 3, .atomMaxz .always 20 2 0 3,
      .atomAnd .always 20 2 0 3, .atomOr .always 20 2 0 3, .atomXor .always 20 2 0 3, .atomXchg .always 20 2 0 3, .atomCas .always 62 2 15 3,
      .pushw .always 20 2, .pushwC .always 20 2, .popw .always 20 2, .propose .always 20 2 0 3, .ocrecycle .always 20 2 0 3,
      .qpush .always 20 2 1] : List Instr).all (fun i => (irrevocableOf (mapped 16 sM) i).isSome) = true ∧
    DeviceOk (mapped 16 sM) 0x10000 256 64 .atom ∧ DeviceOk (mapped 16 sM) 0x10000 256 64 .queue ∧ DeviceOk (mapped 16 sM) 0x10000 256 64 .qrec ∧
    DeviceOk (mapped 18 sM) 0x10000 256 64 .once := by
  exact ⟨by decide, device_ok 16 _ (by decide), device_ok 16 _ (by decide), device_ok 16 _ (by decide), device_ok 18 _ (by decide)⟩

/-- R199: without its checkpoint an irrevocable operation asks for one, and behind another one it holds. -/
theorem test_irrevocable :
    (match exec (.atomAdd .always 20 2 0 3) (mapped 16 sM) with | .next t => t.core.cur.ckBefore.isSome | _ => false) = true ∧
    (match exec (.atomAdd .always 20 2 0 3) ((mapped 16 sM).mapCtx fun x => { x with irrevOut := true }) with
      | .next t => t.core.cur.hold.isSome
      | _ => false) = true := by decide

theorem witness_launch_requests : (mapped 16 sM).guard .always = true ∧ (mapped 16 sM).core.deviceReqs < 2048 ∧ sX.ctx.ckDone = true ∧
    DeviceOk (mapped 16 sM) 0x10000 256 64 .queue := ⟨by decide, by decide, by decide, device_ok 16 _ (by decide)⟩

theorem witness_once_read : onceReg 2 = true ∧ onceReg 62 = true ∧ DeviceOk (mapped 2 sM) 0x10000 256 64 .load ∧
    (let s := (mapped 18 sM).mapCore fun c => { c with once := [⟨0, 0x800, 0x9ABCDEF, 5, 1, 3⟩] }
     (s.core.once.find? fun e => e.asid = s.core.asid && e.cell = (s.sreg 2).extractLsb' 5 47 && e.gen = 0x9ABCDEF).isSome = true) ∧
    (mapped 18 sM).anySC 0x10000 32 = false := ⟨by decide, by decide, device_ok 2 _ (by decide), by decide, by decide⟩

/-- A cell on a shared-consistent page, before and after the first checkpoint and behind an irrevocable operation. -/
theorem witness_once_shared : DeviceOk (mapped 26 sM) 0x10000 32 32 .once ∧ (mapped 26 sM).anySC 0x10000 32 = true ∧ (mapped 26 sM).core.once = [] ∧
    (mapped 26 sM).ctx.ckDone = false ∧ (mapped 26 sM).ctx.irrevOut = false ∧ ((mapped 26 sM).mapCtx fun x => { x with irrevOut := true }).ctx.irrevOut = true ∧
    ((mapped 26 sM).mapCtx fun x => { x with ckDone := true }).ctx.ckDone = true :=
  ⟨⟨by decide, by decide, by decide, by decide⟩, by decide, by decide, by decide, by decide, by decide, by decide⟩

/-- A member with counter 1 at five, marks 0 and 63 ready, and mark set 1 naming marks 63 and 2, mark set 2 naming mark 5. -/
def sK : State := sM.mapCore fun c =>
  let sh := { c.sh with mready := 0x8000000000000001, ms := (c.sh.ms.write 1 (BitVec.ofNat 21 (63 + 64 * 2 + 3 * 2 ^ 18))).write 2 (BitVec.ofNat 21 (5 + 2 ^ 18)) }
  let pre := { c.cur.pre with dc := c.cur.pre.dc.write 1 5 }
  { c with sh := sh, cur := { c.cur with preSh := sh, pre := pre } }

/-- Marks 5 and 62 are pending on gated commands. -/
def sGate : State := sK.mapCore fun c =>
  let sh := { c.sh with mpend := (c.sh.mpend.write 5 1).write 62 1 }
  let k : Cmd := ⟨0, .nopC, 0, 0, 0, 62, 0, 0, 0, 0, 0, true, false, false, 0, [], none, false, false, false, [], 0, none, []⟩
  { c with sh := sh, cur := { c.cur with preSh := sh }, q0 := [k, { k with id := 1, mark := 5 }] }

theorem witness_waits_and_marks : sK.guard .always = true ∧ sK.core.cur.pre.dc.read 1 = 5 ∧ sK.core.cur.preSh.mready.getLsbD 63 = true ∧
    sK.core.cur.preSh.mready.getLsbD 62 = false ∧ sK.core.cur.preSh.mpend.read 62 = 0 ∧ marksOf (sK.mset 1) = [63, 2] ∧ marksOf (sK.mset 2) = [5] ∧
    sK.core.cur.preSh.mpend.read 5 = 0 ∧ marksOf (sK.mset 0) = [] ∧ sGate.ctx.ckDone = false ∧
    (∀ m ∈ [5, 62], sGate.core.cur.preSh.mpend.read m ≠ 0 ∧ sGate.core.onlyGated sGate.core.cur.ctx m = true) ∧ sGate.guard .always = true ∧
    marksOf (sGate.mset 2) = [5] := by decide

/-- R197: WAITDC at and below its counter, FFRM with one ready mark and with none. -/
theorem test_waits_and_marks : (match exec (.waitdc .always 1 5) sK with | .next t => t.core.cur.hold.isNone | _ => false) = true ∧
    (match exec (.waitdc .always 1 4) sK with | .next t => t.core.cur.hold.isSome | _ => false) = true ∧
    result sK (.ffrm .always 7 1) 7 = some 63 ∧ result sK (.ffrm .always 7 2) 7 = some 64 ∧
    (match exec (.mclr .always 63) sK with | .next t => t.core.sh.mready | _ => 0) = 1 ∧
    (match exec (.waitm .always 62) sGate with | .next t => t.core.cur.ckBefore.isSome && t.core.cur.hold.isNone | _ => false) = true := by decide

/-- A device load of class 3 is in flight from before the bundle. -/
def sF : State := sM.mapCore fun c =>
  { c with reqs := [{ sM.request (.load 8 false) 3 with id := 4 }], nextId := 5, cur := { c.cur with firstId := 5 } }

theorem witness_fences : sF.guard .always = true ∧
    (sF.core.reqs.any fun r => r.inMask sF.core.cur.ctx 8 && decide (r.id < sF.core.cur.firstId)) = true ∧
    (sM.core.reqs.any fun r => r.inMask sM.core.cur.ctx 0xFFFF && decide (r.id < sM.core.cur.firstId)) = false ∧ sM.ctx.released = [] := by decide

theorem witness_barriers :
    let s := { sM with binds := sM.binds.write 0 (2 ||| (1 <<< 22) ||| (1 <<< 80)) }
    sM.guard .always = true ∧ (47 : BitVec 6).toNat < 48 ∧ sM.restoring = false ∧ sM.myArrivals 3 15 < (sM.myBarrier 3 15).phase + 2 ∧ sM.ctx.barwOnly = false ∧
      sX.ctx.ckDone = true ∧ sM.myArrivals 3 15 ≤ (sM.myBarrier 3 15).phase ∧ s.restoring = false := by decide

/-- A DIGQ whose destination is misaligned, and one that runs past the scratchpad. -/
theorem witness_digest_traps : ((sM.sreg 9).extractLsb' 0 24).toNat % 64 ≠ 0 ∧ ((sM.sreg 6).extractLsb' 0 24).toNat % 64 = 0 ∧
    0x200000 < ((sM.sreg 6).extractLsb' 0 24).toNat + 64 * ((4 : BitVec 6).toNat + 1) ∧
    trapOf sM (.digq .always 9 2 0) = some .align ∧ trapOf sM (.digq .always 6 2 4) = some .spadRange := by decide

theorem witness_digest_requests : ((sM.sreg 9).extractLsb' 0 24).toNat % 64 = 63 ∧ ((sM.sreg 6).extractLsb' 0 24).toNat % 64 = 0 ∧
    ((sM.sreg 6).extractLsb' 0 24).toNat + 64 * ((3 : BitVec 6).toNat + 1) ≤ 0x200000 ∧ (mapped 0 sM).accessHeld = false ∧
    (sM.sreg 6).toNat % 64 = 0 ∧ (sM.sreg 6).toNat + 64 ≤ 0x200000 ∧ sM.core.deviceReqs < 2048 ∧ DeviceOk (mapped 0 sM) 0x10000 256 64 .load :=
  ⟨by decide, by decide, by decide, by decide, by decide, by decide, by decide, device_ok 0 _ (by decide)⟩

/-- Where another context has a TRIGGER's checkpoint to take, the TRIGGER of this one waits; where none has, it goes on (R203, R209). -/
theorem witness_trigger : (∀ k : BitVec 2, k ≠ 3 → k ≠ sX.core.cur.ctx → (∀ q, (sX.core.ctx k).ck = some q → q.why ≠ .trigger) ∧
      ((sX.core.ctx k).irrevOut = true → (sX.core.ctx k).part = [])) ∧ sX.ctx.ckDone = true ∧ sM.ctx.ckDone = false ∧ sM.ctx.irrevOut = false ∧
    (let s := sM.mapCore fun c => { c with tail0 := { c.tail0 with ck := some ⟨.trigger, 2, false, 0⟩ } }
     (s.core.ctx 1).ck = some ⟨.trigger, 2, false, 0⟩ ∧ s.core.cur.ctx = 0) ∧ sM.deviceReqs < 2048 := by
  have n : ∀ k : BitVec 2, (sX.core.ctx k).ck = none ∧ ((sX.core.ctx k).irrevOut = true → (sX.core.ctx k).part = []) := by decide
  exact ⟨fun k _ _ => ⟨fun q hq => (by rw [(n k).1] at hq; cases hq), (n k).2⟩, by decide, by decide, by decide, by decide, by decide⟩

/-! ## Vector and tile instructions -/

/-- `v0` and `v1` FP32 ones and twos, `v2` and `v3` I32 with elements 5, -1 and 7, `v4` RAW, `v5` E8M0 127s, `v6` T8, `v7` BF16 ones, `v8` I8 100s. -/
def sV : State := (small [(1, 5), (2, 0xFFFFFFFFFFFFFFFF)]).mapCore fun c =>
  let rep := fun (w n x : Nat) => (List.range n).foldl (fun (b : BitVec 2048) i => b ||| BitVec.ofNat 2048 x <<< (w * i)) 0
  let v := c.sh.v.write 0 ⟨rep 32 64 0x3F800000, 1⟩ |>.write 1 ⟨rep 32 64 0x40000000, 1⟩ |>.write 2 ⟨0x00000007FFFFFFFF00000005, 8⟩ |>.write 3 ⟨0x00000007FFFFFFFF00000005, 8⟩
    |>.write 5 ⟨rep 8 256 127, 10⟩ |>.write 6 ⟨rep 8 256 0x40, 4⟩ |>.write 7 ⟨rep 16 128 0x3F80, 2⟩ |>.write 8 ⟨rep 8 256 100, 6⟩
  let sh := { c.sh with v := v, lm := c.sh.lm.write 1 0xF0F, efmt := 0x29 }
  { c with sh := sh, cur := { c.cur with preSh := sh } }

/-- The element `i` of `v31` after an instruction, when it goes on without a trap. -/
def element (i : Instr) (w k : Nat) : Option Nat :=
  match exec i sV with
  | .next t => if t.core.cur.trap.isNone then some ((t.core.sh.v.read 31).bits.extractLsb' (w * k) w).toNat else none
  | _ => none

/-- An operation is guarded, its sources are accepted and none of its codes is reserved: the last clause of its law is met. -/
def accepted' (o : Option LaneOp) : Bool :=
  match o with
  | some o => sV.guard o.guard && o.ok && !(sV.core.cur.preSh.efmt.extractLsb' 4 2 == 0 && o.reads.any fun c => reservedCode o.srcTag sV.core.cur.preSh.efmt c)
  | none => false

theorem witness_vector_context : tailColumn sV = false ∧ sV.guard .always = true := by decide

theorem witness_vector_arithmetic :
    ([.vadd .always 31 0 1 1, .vaddS .always 31 8 8 1, .vsub .always 31 2 3 1, .vsubS .always 31 8 8 1, .vmul .always 31 7 7 1, .vmulS .always 31 2 3 1,
      .vfma .always 1 0 1 1, .vfms .always 1 0 1 1, .vrcp .always 31 1 1, .vrsq .always 31 1 1, .vexp2 .always 31 1 1, .vlog2 .always 31 1 1] : List Instr).all
      (fun i => accepted' (arithLanes sV i)) = true ∧
    ((arithLanes sV (.vadd .always 31 0 2 1)).any fun o => !o.ok) = true := by decide

/-- R138, R141: FP32 1 + 2, I32 wraps, I8 saturates, and an inactive element stays. -/
theorem test_vector_arithmetic : element (.vadd .always 31 0 1 0) 32 63 = some 0x40400000 ∧ element (.vadd .always 31 8 8 0) 8 0 = some 127 ∧
    element (.vsub .always 31 3 2 0) 32 1 = some 0 ∧ element (.vadd .always 31 0 1 1) 32 63 = some 0 ∧
    trapOf sV (.vadd .always 31 0 2 0) = some .tagMismatch := by decide

theorem witness_vector_plain :
    ([.vmin .always 31 0 1 1, .vmax .always 31 6 6 1, .vabs .always 31 2 1 1, .vneg .always 31 6 1 0, .vand .always 31 4 4 1, .vor .always 31 0 1 1,
      .vxor .always 31 0 1 1, .vshl .always 31 2 3 1, .vshr .always 31 2 3 1, .vsar .always 31 2 3 1, .vsel .always 31 0 1 1] : List Instr).all
      (fun i => accepted' (plainLanes sV i)) = true ∧ ((plainLanes sV (.vshl .always 31 0 1 1)).any fun o => !o.ok) = true := by decide

/-- R144: a shift counts modulo the width; R146: VSEL takes its second source where the mask is clear. -/
theorem test_vector_plain : element (.vsar .always 31 2 3 0) 32 1 = some 0xFFFFFFFF ∧ element (.vshr .always 31 2 3 0) 32 1 = some 1 ∧
    element (.vsel .always 31 0 1 1) 32 1 = some 0x40000000 := by decide

theorem witness_vector_moves :
    ([.vcvtBits .always 31 0 8, .vbcast .always 31 8 1 1, .vins .always 31 255 1, .vperm .always 31 0 2 1, .vslide .always 31 0 2 1, .vhash .always 31 0 2 1,
      .viota .always 31 8 2 1] : List Instr).all (fun i => accepted' (moveLanes sV i)) = true ∧
    ((moveLanes sV (.vperm .always 31 0 8 1)).any fun o => !o.ok) = true := by decide

/-- R156 to R158: a slide by -1 brings in a zero, an iota from -1, a permutation by 5. -/
theorem test_vector_moves : element (.vslide .always 31 2 2 0) 32 0 = some 0 ∧ element (.vslide .always 31 2 2 0) 32 1 = some 5 ∧
    element (.viota .always 31 8 2 0) 32 1 = some 0 ∧ element (.viota .always 31 8 2 0) 32 0 = some 0xFFFFFFFF := by decide

theorem witness_vector_conversions :
    ([.vcvt .always 31 0 2 1, .vcvt .always 31 7 1 1, .vsclT8 .always 31 0, .vsclT6 .always 31 7, .vqntT8 .always 31 0 5 3, .vqntT6 .always 31 7 5 1,
      .trdr .always 31 0 63 0, .trdc .always 31 0 63 0, .vskb .always 31 4 0] : List Instr).all (fun i => accepted' (convertLanes sV i)) = true ∧
    ((convertLanes sV (.vskb .always 31 0 0)).any fun o => !o.ok) = true := by decide

/-- R147: FP32 1.0 into the second half of BF16 elements, which keeps the first. -/
theorem test_vector_conversions : element (.vcvt .always 31 0 2 1) 16 64 = some 0x3F80 ∧ element (.vcvt .always 31 0 2 1) 16 0 = some 0 := by decide

theorem witness_vector_reductions : isI (sV.vreg 2).tag = true ∧ isF (sV.vreg 0).tag = true ∧ isT (sV.vreg 6).tag = true ∧
    ((codesIn (sV.lmask 1) (sV.vreg 2)).any fun c => reservedCode 8 sV.core.cur.preSh.efmt c) = false := by decide

/-- R151: 5 - 1 + 7 over all elements; the largest of them; 64 ones in FP32. -/
theorem test_vector_reductions : element (.vredadd .always 31 2 0) 32 0 = some 11 ∧ element (.vredmax .always 31 2 0) 32 0 = some 7 ∧
    element (.vredmin .always 31 2 0) 32 0 = some 0xFFFFFFFF ∧ element (.vredadd .always 31 0 0) 32 0 = some 0x42800000 := by decide

theorem witness_vector_scans : (isF (sV.vreg 2).tag || isI (sV.vreg 2).tag) = true ∧ (isF (sV.vreg 0).tag || isI (sV.vreg 0).tag) = true := by decide

/-- R152: the sums up to and before element 2. -/
theorem test_vector_scans : element (.vscan .always 31 2 0) 32 2 = some 11 ∧ element (.vscanX .always 31 2 0) 32 2 = some 4 ∧
    element (.vscanX .always 31 2 0) 32 0 = some 0 := by decide

theorem witness_vector_compare : (sV.vreg 0).tag = (sV.vreg 1).tag ∧ (isF (sV.vreg 0).tag || isI (sV.vreg 0).tag || isT (sV.vreg 0).tag) = true ∧
    (sV.vreg 2).tag = (sV.vreg 3).tag := by decide

theorem witness_lane_mask_logic :
    ([.lmand .always 7 1 0, .lmandn .always 7 1 0, .lmor .always 7 1 0, .lmxor .always 0 1 0, .lmnot .always 7 1] : List Instr).all
      (fun i => (maskLogic sV i).isSome) = true := by decide

/-- R145, R155, R161: an equality mask of 32-bit elements, the first set element, and sign extension of an I32 element. -/
theorem test_masks_and_extracts :
    (match exec (.vcmp .always 0 2 2 3 1) sV with | .next t => t.core.sh.lmask 2 | _ => 0) = 0xF0F ∧ result sV (.lmcnt .always 2 1 7) 7 = some 2 ∧
    result sV (.lmff .always 0 1 7) 7 = some 0 ∧ result sV (.vext .always 1 2 7) 7 = some 0xFFFFFFFFFFFFFFFF := by decide

theorem witness_vector_checks : ((sV.vreg 2).tag = (sV.vreg 3).tag ∧ ∀ j, j < 256 → byteOf (sV.vreg 2).bits j = byteOf (sV.vreg 3).bits j) ∧
    (sV.vreg 0).tag ≠ (sV.vreg 2).tag ∧ sV.lmask 0 ≠ sV.lmask 1 := by decide

/-- R164: equal registers pass, and a difference in an inactive byte is not looked at. -/
theorem test_vector_checks : trapOf sV (.vchk .always 2 3 0) = none ∧ trapOf sV (.vchk .always 0 1 0) = some .checkMismatch ∧
    trapOf sV (.vchkLm .always 0 1) = some .checkMismatch := by decide

/-- R162: one row of a tile. -/
theorem test_tile_write :
    (match exec (.twr .always 0 3 63) sV with | .next t => (((t.core.sh.t.read 3).bits.extractLsb' (2048 * 63 + 32) 32).toNat, (t.core.sh.t.read 3).tag) | _ => (0, 0)) =
      (0x3F800000, 1) := by decide

theorem witness_main_context_slots :
    ([.vadd never 1 1 1 1, .vatom never 1 1 1 1, .vskb never 1 1 1, .twr never 1 1 1, .vld never 1 1 1 0 0, .vext never 1 1 1] : List Instr).all
      (fun i => vectorForm i && (trapOf (inTail sV) i == some .illegalSlot)) = true ∧
    ([.mma never 0 1 0 0, .mpop never 0 0 0 0 0, .mflush never 1 1, .mstat never 1] : List Instr).all
      (fun i => matrixForm i && (trapOf (inTail sV) i == some .illegalSlot)) = true := by decide

/-! ## The matrix engine's queue, accumulators, descriptors and commands -/

theorem witness_branch_target_write : (3 : BitVec 6).toNat < 4 ∧ sB.guard .always = true ∧
    (match exec (.setb .always 3 0x1FFF) sB with | .next t => t.ctx.regs.b.read 3 | _ => 0) = 0xFFFFFFFF := by decide

/-- Accumulator 0 holds live FP32, accumulator 1 retired I32, accumulators 2 and 3 nothing; the literal stream has one good word and one bad one. -/
def sA : State := sV.mapCore fun c =>
  { c with acc := (c.acc.write 0 ⟨.live, .fp32, 0x3F800000⟩).write 1 ⟨.retired, .i32, 0xFFFFFFFF⟩,
           overlay := c.overlay.map fun (o : Overlay) => { o with lits := [0x4, 0x0] } }

/-- The queue of the matrix engine is full. -/
def sQ : State := sA.mapCore fun c => { c with mq := List.replicate 32 (flushEntry sA 1 1 none) }

theorem witness_matrix_multiply :
    ([.mma .always 0 511 0 1, .mmaZ .always 1 0 4 5, .mmas .always 0 3 0 1, .mmasZ .always 1 31 4 4] : List Instr).all
      (fun i => (multiplyForm i).isSome) = true ∧ tailColumn sA = false ∧ sA.guard .always = true ∧ drainWait sA 0 = false ∧ sA.core.mq.length < 32 ∧
    (sA.core.acc.read 0).ty = .fp32 ∧ (sA.core.acc.read 2).st = .empty ∧ (sA.core.acc.read 1).ty ≠ .fp32 ∧ (sA.core.acc.read 1).st ≠ .empty ∧
    (∀ j, j < ((3 : BitVec 9).toNat + 1) / 4 → (0x4 : BitVec 32).extractLsb' (4 * j) 2 < (0x4 : BitVec 32).extractLsb' (4 * j + 2) 2) ∧
    32 ≤ sQ.core.mq.length := by decide

/-- R174: integer formats into a floating accumulator; R176: a nibble whose indices do not rise. -/
theorem test_matrix_multiply : trapOf sA (.mma .always 0 0 2 2) = some .tagMismatch ∧
    trapOf (sA.mapCore fun c => { c with sh := { c.sh with mpc := 1 } }) (.mmas .always 0 3 0 0) = some .illegalEnc ∧
    (match exec (.mma .always 0 3 0 0) sA with | .next t => t.core.mq.map (·.busy) | _ => []) = [4] ∧
    (match exec (.mmas .always 0 3 0 0) sA with | .next t => t.core.sh.mpc | _ => 0) = 1 := by decide

theorem witness_matrix_flush : sA.core.mq.length < 32 ∧ 32 ≤ sQ.core.mq.length ∧ tailColumn sQ = false ∧ sQ.guard .always = true := by decide

/-- A DRAIN of accumulator 1 has been queued by an earlier bundle. -/
def sD : State := sA.mapCore fun c =>
  match exec (.drain .always 1 5 0 1 0) (sA.mapCur fun i => { i with slot := 6 }) with
  | .next t => { t.core with cur := { t.core.cur with firstId := t.core.nextId } }
  | _ => c

theorem witness_accumulator_writes : tailColumn sA = false ∧ drainWait sA 0 = false ∧ (sA.vreg 0).tag = 1 ∧ (sA.vreg 2).tag = 8 ∧ (sA.vreg 7).tag = 2 ∧
    (sA.core.acc.read 0).ty = .fp32 ∧ (sA.core.acc.read 1).ty = .i32 ∧ (sA.core.acc.read 3).st = .empty ∧ (sA.vreg 6).tag = 4 ∧
    drainWait sD 1 = true := by decide

theorem witness_accumulator_reads : popInto true 3 = some 6 ∧ popInto false 3 = some 4 ∧ popInto true 2 = none ∧ sA.core.fa.held.length < 256 ∧
    sA.core.fb.held.length < 256 := by decide

/-- R180, R184: an I32 segment popped as it is, and the states of the accumulators. -/
theorem test_accumulator_reads :
    (match exec (.mpop .always 1 31 0 0 0) sA with | .next t => (((t.core.sh.v.read 31).bits.extractLsb' 0 64).toNat, (t.core.sh.v.read 31).tag) | _ => (0, 0)) =
      (0xFFFFFFFF, 8) ∧ trapOf sA (.mpop .always 1 31 0 0 2) = some .tagMismatch ∧
    (result sA (.mstat .always 7) 7).map (fun w => w.extractLsb' 4 12) = some 0x92 := by decide

/-- `s1` names an aligned line, `s2` the line below the top, `s3` one beyond it. -/
def sC : State := (small [(1, 0x1000), (2, 0x1FFFC0), (3, 0x200000), (4, 0x1020), (5, 0xFFFFFFFFFFFFFFFF)]).mapCore fun c =>
  let one : BitVec 512 := (1 <<< 100) ||| (1 <<< 156) ||| (1 <<< 212) ||| (1 <<< 268) ||| (1 <<< 324)
  let d := c.sh.d.write 1 (one ||| (1 <<< 476)) |>.write 2 (one ||| (1 <<< 455) ||| (1 <<< 476)) |>.write 3 (one ||| (1 <<< 453)) |>.write 4 (one ||| (3 <<< 453))
    |>.write 5 (5 <<< 473)
  let sh := { c.sh with d := d }
  { c with sh := sh, cur := { c.cur with preSh := sh, slot := 6 } }

theorem witness_descriptor_writes : sC.guard .always = true ∧ ((sC.sreg 2).toNat % 64 = 0 ∧ (sC.sreg 2).toNat + 64 ≤ 0x200000 ∧
    sC.core.spadPoisoned 0x1FFFC0 64 = false) ∧ (sC.sreg 4).toNat % 64 ≠ 0 ∧ ((sC.sreg 3).toNat % 64 = 0 ∧ 0x200000 < (sC.sreg 3).toNat + 64) ∧
    (0 : BitVec 5).toNat < 22 ∧ (21 : BitVec 5).toNat < 22 := by decide

/-- R34, R217: the 52 bits of the destination address, which reach bit 439 and not the reserved bits above. -/
theorem test_descriptor_writes :
    (match exec (.dset .always 6 5 1) sC with | .next t => (t.core.sh.d.read 6).extractLsb' 380 68 | _ => 0) = 0xFFFFFFFFFFFFF00 ∧
    trapOf sC (.dld .always 1 3) = some .spadRange ∧ trapOf sC (.dld .always 1 4) = some .align := by decide

theorem witness_engine_commands :
    ([.cpy .always 1 63 0 0 0 0, .cpym .always 1 2 0 0, .cpyq .always 2 2 0 0 0 0, .cpyx .always 3 2 0 0 0, .gath .always 4 2 0 0 0, .feed .always 1 2 0 0 1 0,
      .drain .always 1 2 0 0 0, .lsend .always 1 2 0, .lrecv .always 1 2 0, .lrxadd .always 1 2 0 3] : List Instr).all
      (fun i => match commandOf sC i with | some o => o.ok && sC.guard o.guard | none => false) = true ∧
    ((commandOf sC (.cpy .always 5 2 0 0 0 0)).any fun o => !o.ok) = true ∧ (slotQueue sC).length < 32 ∧ bindQalign (sC.bind sC.coreTile) = false ∧
    bindQalign (1 <<< 22 ||| sC.bind 1) = bindQalign (1 <<< 22) ∧ sX.ctx.ckDone = true ∧ (sC.ctx.ckDone = false ∧ sC.ctx.irrevOut = false) ∧
    32 ≤ (slotQueue (sC.mapCore fun c => { c with q0 := ((List.range 32).map fun n => ((sD.core.q0.map fun (k : Cmd) => { k with id := n }).head?).toList).flatten })).length := by decide

/-- R33, R218: a command makes its mark pending and not ready; a descriptor with an undefined layout does not pass. -/
theorem test_engine_commands :
    (match exec (.cpy .always 1 63 0 0 0 0) (sC.mapCore fun c => { c with sh := { c.sh with mready := 0xC000000000000000 } }) with
      | .next t => (t.core.sh.mready, t.core.sh.mpend.read 63, t.core.q0.length)
      | _ => (0, 0, 0)) = (0x4000000000000000, 1, 1) ∧ trapOf sC (.cpy .always 5 2 0 0 0 0) = some .illegalEnc := by decide

/-! ## The whole machine -/

theorem witness_decode_words : decodes workedWords = true := by decide

theorem witness_encoding_round_trip : (Instr.mmas ⟨52, true⟩ 3 31 5 5).wf = true ∧ (Instr.mmas ⟨52, true⟩ 3 31 5 5).homeSlot = some 5 ∧
    (Instr.br true ⟨47, true⟩ 0x1FFFFF).wf = true ∧ (Instr.br true ⟨47, true⟩ 0x1FFFFF).homeSlot = some 0 := by decide

theorem witness_decoded_is_well_formed : (match decodeSlot 4 0x00088010 with | .ok i => i == .vadd .always 2 0 1 0 && i.homeSlot == some 3 | _ => false) = true := by decide

/-- The state in which the fetch helper places a MOVI, and the instructions of its bundle. -/
def sStep : State := State.reset.withFetchWord 32 0x00C9248D
def iStep (k : BitVec 3) : Instr := if k = 1 then .movi .always 9 0x48D else if k = 0 then .nopb false .always else
  if k = 2 then .nopD else if k = 3 ∨ k = 4 then .nopV else if k = 5 then .nopM else .nopC

/-- R112: the step of that state runs the instruction. -/
theorem test_first_step : decodeTableWord 32 0x00C9248D = some (.movi .always 9 0x48D) ∧
    (match Machine.step sStep with | .next t => (t.core.main.regs.sreg 9, t.core.main.ix, t.core.sched) | _ => (0, 0, 0)) = (0x48D, 1, 1) := by decide

theorem witness_step_runs_bundle :
    let f := (sStep.focus 0).noteAll.pickNow
    let g := f.begun 0 (inOrder iStep)
    sStep.inputs = [] ∧ sStep.acts = [.cycle 0] ∧ f.core.cur.picked = some 0 ∧ f.hindered 0 = none ∧ (f.core.bundleAt (f.core.ctx 0).ix).isSome = true ∧
    (f.core.ctx 0).barwOnly = false ∧ PLine.bundle (f.core.ctx 0).ix ∉ f.core.linePoison ∧ g.lineTraps (inOrder iStep) = [] ∧ f.core.interlocked 0 (inOrder iStep) = false ∧
    f.core.earlyTraps 0 ((f.core.bundleAt (f.core.ctx 0).ix).getD 0) (inOrder iStep) = [] ∧
    (∀ k : BitVec 3, (match decodeSlot k (slotWord ((f.core.bundleAt (f.core.ctx 0).ix).getD 0) k) with | .ok i => i == iStep k | _ => false) = true) ∧
    ((inOrder iStep).filter fun p => spadUse p.2 ≠ 0).length < 2 ∧
    (∀ k : BitVec 3, (match exec (iStep k) (g.mapCur fun c => { c with slot := k }) with
      | .next u => u.core.cur.trap.isNone && u.core.cur.hold.isNone && u.core.cur.ckBefore.isNone && (k != 0 || !u.fallsOff)
      | _ => false) = true) ∧
    ((runSlots g (inOrder iStep)).any fun u => u.core.cur.hold.isNone && decide (u.core.entries 0 ≤ partSize 0)) = true := by decide

theorem witness_false_guard :
    ([.add never 1 2 3, .ldg never 1 2 0 3 0, .vadd never 1 2 3 0, .mma never 0 1 0 0, .cpy never 1 2 0 0 0 0, .br false never 1, .loop false never 1 1] : List Instr).all
      (fun i => i.homeSlot.isSome && !s1.guard (guardOfInstr i) && !effectAlways i && immediateOk s1 i) = true ∧ tailColumn s1 = false ∧
    (Instr.ldg never 1 2 0 3 0).homeSlot ≠ some 2 ∧ (Instr.waitm never 1).homeSlot = some 2 ∧ (Instr.dld never 1 1).homeSlot = some 6 := by decide

/-- The canonical form holds at reset, so the premise of the invariant is met. -/
theorem witness_memories : Memory.wf State.reset.mem = true ∧ Memory.wf State.reset.core.spad = true ∧ State.reset.parked = [] ∧
    (match Machine.step sStep with | .next t => Memory.wf t.mem && Memory.wf t.core.spad | _ => false) = true := by decide

theorem witness_slots_leave_device_memory : (Instr.sts .always 7 1 0 3).homeSlot.isSome = true ∧ s1.core.cur.trap = none ∧
    (match exec (.sts .always 7 0 0 3) s1 with | .next t => t.core.cur.trap.isNone | _ => false) = true := by decide

/-- Every die has a fault ring of four entries at 0x40000, 0x41000 and so on. -/
def rung (s : State) : State :=
  { s with rings := s.rings.write 0 ⟨0x40000, 4, 3, 0, false⟩ |>.write 1 ⟨0x41000, 4, 0, 0, false⟩ |>.write 2 ⟨0x42000, 4, 0, 0, false⟩ |>.write 3 ⟨0x43000, 4, 0, 0, false⟩ }

theorem ring_room (s : State) (d : BitVec 2) (h : (rung s).ringFull d = false) (h2 : s.recWait = []) : ringRoom (rung s) d :=
  ⟨h, fun w hw => by simp [rung, h2] at hw⟩

theorem witness_fatal_trap : Cause.cls .align = .fatal ∧ ringRoom (rung s1) (dieOf (rung s1).coreTile) ∧ (∀ q ∈ s1.core.q0 ++ s1.core.q1, q.pin = none) ∧
    (rung s1).isflush.contains 0 = false ∧ Memory.wf (rung s1).mem = true :=
  ⟨by decide, ring_room s1 _ (by decide) (by decide), by decide, by decide, by decide⟩

/-- R384, R385: BRK freezes the core and raises the interrupt of its die's ring with one entry more; TRAP ends the member. -/
theorem test_traps :
    (match exec (.brk false .always 7) (rung s1) with | .next t => ((t.rings.read 0).prod, (t.rings.read 0).irq, t.core.frozen.isSome) | _ => (0, false, false)) =
      (4, true, true) ∧
    (match exec (.trap false .always 7) (rung s1) with | .next t => t.core.bound | _ => true) = false := by decide

/-- A core that a breakpoint of bundle 2 has frozen. -/
def sIce : State := s1.mapCore fun c => { c with frozen := some ⟨.brk, 0, 2⟩ }

theorem witness_freeze_trap : Cause.cls .prot = .freeze ∧ Cause.cls .brk = .freeze ∧ s1.core.frozen = none ∧ sIce.core.frozen ≠ none ∧ (1 ≤ Cause.fenced.code ∧ Cause.fenced.code ≤ 15) := by decide

theorem witness_rollback_trap : Cause.cls .tagMismatch = .rollback ∧ (s1.core.ctx 0).irrevOut = false ∧ (s1.core.ctx 0).unprot = .safe ∧ (s1.core.ctx 0).rolls < 3 ∧
    (s1.core.ctx 0).rollPend = none ∧ (s1.core.ctx 0).rolling = none ∧ (s1.mapCtx fun x => { x with rolls := 3 }).ctx.rolls = 3 ∧
    (s1.mapCtx fun x => { x with rollPend := some ⟨.brk, 0, 0, 0⟩ }).ctx.rollPend ≠ none := by decide

/-- A rollback event waits in the main context, and, in the second state, its restore. -/
def sRoll : State := (rung s1).mapCore fun c => { c with main := { c.main with rollPend := some ⟨.checkMismatch, 0, 0, 0⟩ } }
def sRest : State := (rung s1).mapCore fun c => { c with main := { c.main with rolling := some ⟨.checkMismatch, 0, 0, 0⟩, restart := 7 } }

theorem witness_rollback_stops : ((sRoll.focus sRoll.ev.tile).core.ctx sRoll.ev.ctx).rollPend.isSome = true ∧
    ((sRoll.focus sRoll.ev.tile).core.ctx sRoll.ev.ctx).rollFresh = false ∧ (sRoll.focus sRoll.ev.tile).core.frozen = none ∧
    ((sRoll.focus sRoll.ev.tile).core.ctx sRoll.ev.ctx).rolling = none ∧ sRoll.ev.ctx.toNat < 3 := by decide

theorem witness_rollback_restores : ((sRest.focus sRest.ev.tile).core.ctx sRest.ev.ctx).rolling.isSome = true ∧
    (sRest.focus sRest.ev.tile).core.loadsSettled sRest.ev.ctx = true ∧ (sRest.focus sRest.ev.tile).core.dupBad sRest.ev.ctx = false ∧ (sRest.focus sRest.ev.tile).core.frozen = none ∧
    (match exec .rollbackRestore sRest with | .next t => (t.core.main.ix, t.core.main.rolls) | _ => (0, 0)) = (7, 1) := by decide

def sCk (w : CkWhy) : State := s1.mapCore fun c => { c with main := { c.main with ck := some ⟨w, 3, false, 4⟩ } }

theorem witness_checkpoint_taken : ((sCk .chkpt).focus (sCk .chkpt).ev.tile).core.ckReady 0 = true ∧ ((sCk .endMember).focus 0).core.ckReady 0 = true ∧
    ((sCk .chkpt).core.ctx 0).ck = some ⟨.chkpt, 3, false, 4⟩ ∧
    (match exec .checkpoint (sCk .chkpt) with | .next t => (t.core.main.restart, t.core.main.phase, t.core.main.dup.sreg 2) | _ => (0, 0, 0)) = (3, 1, 5) := by decide

/-- A line of accumulator 0 whose error is uncorrectable (R380): what reads it, and what does not. -/
def sBadAcc : State := sA.mapCore fun c => { c with linePoison := [.acc 0 127] }

theorem witness_bad_line : (badLine sBadAcc 0 fun _ => True) ∧ (badLine sBadAcc 0 fun x => x = 127) ∧ (¬ badLine sBadAcc 0 fun x => x = 126) ∧
    (¬ badLine sBadAcc 1 fun _ => True) ∧ (∀ c, ¬ badLine sA c fun _ => True) ∧ popInto (decide ((sBadAcc.core.acc.read 0).ty = .i32)) 0 ≠ none := by
  refine ⟨⟨by decide, 127, by decide, trivial⟩, ⟨by decide, 127, by decide, rfl⟩, ?_, ?_, ?_, by decide⟩
  · rintro ⟨-, r, h, e⟩
    rw [show sBadAcc.core.linePoison = [.acc 0 127] from rfl] at h
    simp_all
  · rintro ⟨-, r, h, -⟩
    rw [show sBadAcc.core.linePoison = [.acc 0 127] from rfl] at h
    simp_all
  · rintro c ⟨-, r, h, -⟩
    rw [show sA.core.linePoison = [] from rfl] at h
    simp at h

/-! ## Events of a core -/

theorem room_of (s : State) (d : BitVec 2) (h : s.ringFull d = false) (h2 : s.recWait = []) : ringRoom s d := ⟨h, by simp [h2]⟩

theorem unpoisoned (c : Core) (h : c.spadPoison = []) (x n : Nat) : c.spadPoisoned x n = false := by simp [Core.spadPoisoned, h]

/-- R282: a tail that was passed over six times issues before the main context. -/
theorem test_pick_context :
    let f := fun (w : Nat) => s1.mapCore fun c => { c with main := { c.main with ready := true }, tail1 := { c.tail1 with run := .running, ready := true, w := w } }
    (match exec .pickContext (f 5) with | .next t => (t.core.cur.picked, t.core.tail1.w) | _ => (none, 0)) = (some 0, 6) ∧
    (match exec .pickContext (f 6) with | .next t => (t.core.cur.picked, t.core.tail1.w) | _ => (none, 9)) = (some 2, 0) := by decide

/-- The deadline and the limit of the phase have passed by one cycle. -/
def sLate : State := (rung s1).mapCore fun c => { c with deadline := some 99, cyc := 100 }

theorem witness_late_events : Memory.wf (at_ sLate).mem = true ∧ ringRoom (at_ sLate) (dieOf (at_ sLate).coreTile) ∧ (here sLate).yieldLate = true ∧
    (at_ sLate).overrun = true ∧ (here (sLate.mapCore fun c => { c with cyc := 99 })).yieldLate = false :=
  ⟨by decide, room_of _ _ (by decide) (by decide), by decide, by decide, by decide⟩

/-- The member has waited for 1,300 cycles and pre-emption is asked for; and the same once its rollback has begun, with the member then also
a ballast member. -/
def sWait : State := { s1 with core := { s1.core with main := { s1.core.main with hold := some (.wait true), waitCycles := 1300 } },
                               binds := s1.binds.write 0 (1 <<< 482 ||| 2) }
def sWait2 : State := { s1 with core := { s1.core with save := .wanted } }
/-- A trap has frozen that core meanwhile. -/
def sWaitF : State := { s1 with core := { s1.core with save := .wanted, frozen := some ⟨.brk, 0, 2⟩ } }

theorem witness_wait_preemption : bindPreempt (sWait.bind 0) = true ∧ (at_ sWait).waitedOut = true ∧ (at_ sWait2).waitedOut = false ∧ (here sWait2).save = .wanted ∧
    (here sWait2).frozen = none ∧ (here sWait2).loadsSettled 0 = true ∧ (here sWait2).dupBad 0 = false ∧ bindBallast ((at_ sWait2).bind (at_ sWait2).coreTile) = false ∧
    bindBallast ((BitVec.allOnes 512)) = true ∧ (here sWaitF).save = .wanted ∧ (here sWaitF).frozen ≠ none := by decide

/-- A CPY of one FP32 element from the top of the scratchpad to its start: as queued, running and exhausted. -/
def dTop : BitVec 512 := (List.range 6).foldl (fun b i => b ||| (1 <<< (56 * i + 44))) (0x1FFFFC <<< 336 ||| 1 <<< 476)
def kNone : Cmd := ⟨0, .nopC, 0, 0, 0, 0, 0, 0, 0, 0, 0, false, false, false, 0, [], none, false, false, false, [], 0, none, []⟩
def kTop : Cmd := match exec (.cpy .always 1 63 0 0 0 0) sC with | .next t => t.core.q0.head?.getD kNone | _ => kNone
def kRun : Cmd := { kTop with started := true, d0 := dTop, progress := 0 }
def sEng (k : Cmd) : State := sC.mapCore fun c => { c with q0 := [k] }

theorem witness_engine_start :
    (here (sEng kTop)).enginesRun = true ∧ ((here (sEng kTop)).headCmd 0 = some kTop ∧ kTop.done = false ∧ kTop.started = false ∧ (here (sEng kTop)).mayStart kTop = true) ∧
    ((here (sEng kRun)).headCmd 0 = some kRun ∧ kRun.started = true ∧ kRun.exhausted = false ∧ kRun.i = .cpy .always 1 63 0 0 0 0 ∧ fd kRun.d0 473 3 = 0 ∧
      (nestPoint kRun.d0 0).pad = false ∧ ((nestPoint kRun.d0 0).s % 2 ^ 24).toNat + unitSize (fd kRun.d0 476 4) = 0x200000 ∧
      ((nestPoint kRun.d0 0).t % 2 ^ 24).toNat = 0 ∧ Memory.wf (here (sEng kRun)).spad = true ∧ (here (sEng kRun)).spadPoison = [] ∧
      kRun.pend = [] ∧ kRun.progress < kRun.total ∧ (at_ (sEng kRun)).storeOnWay kRun (at_ (sEng kRun)).coreTile = false) ∧
    { kRun with progress := 1 }.exhausted = true := by decide

/-- R220, R250: the last word of the scratchpad is read, and its bytes are on their way to the start. -/
theorem test_engine_unit :
    let s := (sEng kRun).mapCore fun c => { c with spad := [(0x1FFFFC, 0x11), (0x1FFFFF, 0x44)] }
    (match exec .engineCommandStart s with | .next t => t.core.q0.map (fun k => (k.progress, k.pend)) | _ => []) =
      [(1, [(0, 0, 0x11), (0, 1, 0), (0, 2, 0), (0, 3, 0x44)])] := by decide

/-- Two bytes of a unit have still to perform, at both ends of the scratchpad. -/
def kBytes : Cmd := { kRun with pend := [(0, 0, 0x11), (0, 0x1FFFFF, 0x44)], progress := 1 }

theorem witness_unit_bytes : (here (sEng kBytes)).unitsLand = true ∧ (here (sEng kBytes)).headCmd 0 = some kBytes ∧ kBytes.done = false ∧ kBytes.started = true ∧
    kBytes.pend ≠ [] ∧ (∀ w ∈ kBytes.pend, w.1 = (at_ (sEng kBytes)).coreTile) ∧ (kBytes.pend.map (·.2.1)).Nodup ∧
    Memory.wf (here (sEng kBytes)).spad = true := by decide

/-- The command is done and the one pending on its mark. -/
def sDone : State := (sEng { kRun with done := true }).mapCore fun c => { c with sh := { c.sh with mpend := c.sh.mpend.write 63 1, mready := 0 } }

theorem witness_engine_complete : (here sDone).headCmd 0 = some { kRun with done := true } ∧ kRun.pin = none ∧ (at_ sDone).arrivalsOf { kRun with done := true } = [] ∧
    (at_ sDone).arriving { kRun with done := true } = false ∧ (here sDone).sh.mpend.read kRun.mark = 1 ∧ (here sDone).sh.mbits.read kRun.mark = 0 ∧
    (match exec .engineCommandComplete sDone with | .next t => t.core.sh.mready | _ => 0) = 0x8000000000000000 := by decide

/-- A FEED whose last, short line is due. -/
def kFeed : Cmd := { kRun with i := .feed .always 1 2 0 0 4 1, progress := 1, buf := [0xAB] }

theorem witness_feed_line : (here (sEng kFeed)).headCmd 0 = some kFeed ∧ kFeed.i = .feed .always 1 2 0 0 4 1 ∧ (here (sEng kFeed)).enginesRun = true ∧ kFeed.lineDue = true ∧
    (here (sEng kFeed)).fb.held.length < 128 ∧
    (match exec .feedLineWrite (sEng kFeed) with | .next t => t.core.fb.held.map (fun l => (l.tag, l.bits)) | _ => []) = [(5, 0xAB)] := by decide

/-- An arrival on its way to tile 1, whose core runs a member, with mark 63. -/
def sCast : State := { sM with ev := { sM.ev with tile := 1 }, arrivals := [(2, 0), (1, 63)], parked := [(1, sM.core)] }

theorem witness_multicast : (sCast.arrivals.find? fun a => a.1 = sCast.ev.tile) = some (sCast.ev.tile, 63) ∧ (sCast.coreAt 1).bound = true ∧
    (match exec .multicastArrival sCast with | .next t => ((t.coreAt 1).sh.mready, (t.coreAt 2).sh.mready, t.arrivals) | _ => (0, 0, [])) =
      (0x8000000000000000, 0, [(2, 0)]) := by decide

/-- Two k-steps of T8 by T8 are due: one A line feeds both of them, each needs a B line. -/
def eMul : MEntry := { flushEntry sA 0 0 none with kind := .mma, k := 2, efmt := 0x29, ready := 9 }
def lT8 : FLine := ⟨4, 0x38, 0, false⟩
def sMul (e : MEntry) : State := sA.mapCore fun c => { c with mq := [e], fa := ⟨[lT8], []⟩, fb := ⟨[lT8], []⟩ }

theorem witness_matrix_step :
    let last := { eMul with steps := 1, aLines := [0x38], bLines := [0x38] }
    ((here (sMul eMul)).dueEntry = some eMul ∧ eMul.scaled false = false ∧ eMul.scaled true = false ∧ eMul.efmt.extractLsb' 4 2 ≠ 0 ∧
      dataLines (eMul.aSteps eMul.steps) 128 (mWidth eMul.af) - eMul.aLines.length = 1 ∧ dataLines (eMul.steps + 1) 256 (mWidth eMul.bf) - eMul.bLines.length = 1 ∧
      lT8.tag = mTag eMul.af ∧ lT8.tag = mTag eMul.bf) ∧
    (({ here (sMul last) with sched := 1 }).dueEntry = some last ∧
      dataLines (last.aSteps last.steps) 128 (mWidth last.af) - last.aLines.length = 0 ∧ dataLines (last.steps + 1) 256 (mWidth last.bf) - last.bLines.length = 1) := by decide

def sPend (w : AccWrite) : State := sA.mapCore fun c => { c with apend := [⟨3, 0, w, 0⟩] }
def oInt : Acc := ⟨.live, .i32, 0xFFFFFFFF⟩

theorem witness_commit : (here (sPend (.zero .fp32))).readyPend = some ⟨3, 0, .zero .fp32, 0⟩ ∧
    (here (sPend (.mma { eMul with steps := 2 }))).readyPend = some ⟨3, 0, .mma { eMul with steps := 2 }, 0⟩ ∧
    (∀ n, (here (sPend (.push 127 3 ⟨7, 8⟩ n))).readyPend = some ⟨3, 0, .push 127 3 ⟨7, 8⟩ n, 0⟩) ∧ 256 * (127 : BitVec 7).toNat + 64 * (3 : BitVec 2).toNat + 64 = 32768 ∧
    256 * (127 : BitVec 7).toNat + 128 * (1 : BitVec 2).toNat + 128 = 32768 ∧
    (here (sPend (.fmt .fp32 oInt))).readyPend = some ⟨3, 0, .fmt .fp32 oInt, 0⟩ ∧ (here (sPend (.fmt .i32 oInt))).readyPend = some ⟨3, 0, .fmt .i32 oInt, 0⟩ := by decide

theorem witness_flush : (here (sA.mapCore fun c => { c with mq := [flushEntry sA 1 0 (some 5)] })).mq = [flushEntry sA 1 0 (some 5)] ∧
    (flushEntry sA 1 0 (some 5)).kind = .flush ∧ (flushEntry sA 1 0 (some 5)).start ≤ (here sA).sched.toNat + (here sA).mOff ∧
    (match exec .mflushEffect ((sMul eMul).mapCore fun c => { c with mq := [flushEntry sA 1 0 (some 5)] }) with
      | .next t => (t.core.fa.held.length, t.core.fa.retained.length, t.core.fb.held.length, t.core.sh.mpc)
      | _ => (0, 0, 0, 0)) = (0, 1, 1, 5) := by decide

/-! ## Events at homes and peers -/

/-- A request of the main context with its first translated address. -/
def ask (k : ReqKind) (pa : BitVec 45) (x y : Word) : Req :=
  ⟨5, 0, 1, 0, 0, k, 0, some 7, 0, pa, 62, x, y, 0, 0, [], [(0, pa)], 0, false, false, [], [], none, 0, false, false⟩

/-- That request is out, with the given device memory; the package has booted. -/
def sReq (r : Req) (m : List Host.Cell) : State :=
  let s := s1.mapCore fun c => { c with reqs := [r] }
  { s with mem := m, boot := .done, ev := { s.ev with id := 5 } }

/-- Home holds nothing where no channel is quiesced, every direction has a port that is up and no tail store is being reconfigured. -/
theorem calm (s : State) (hq : s.quiesces = []) (hm : s.meshUp = true) (hk : ∀ d, (s.kvts.read d).getLsbD 63 = false) (key : HeldAcc) (pa : Nat) :
    s.homeHeld key pa = false := by
  have k := hk (homeDie pa)
  simp only [State.homeHeld, State.waitsTurn, State.quiesceAt, State.stalls, State.reconfiguring, State.unreached, hq, hm, k, List.findIdx?_nil, Option.bind_none,
    Bool.false_and, Bool.not_true, Bool.or_false]

theorem performs_of (s : State) (r : Req) (a : (here s).req s.ev.id = some r) (b : r.result = none) (c : (here s).mayPerform r = true)
    (d : Memory.wf (at_ s).mem = true) : Performs s r := ⟨a, b, c, d⟩

def rLoad : Req := { ask (.load 8 true) 0x38 0 0 with mask := 1, bits := 0xFF }
def rBack : Req := { ask (.once 0) 0x40 0 0 with result := some (7, 9) }

theorem witness_reply : ((here (sReq rLoad [])).req 5 = some rLoad ∧ rLoad.discard = false ∧ rLoad.result = none ∧ (here (sReq rLoad [])).mayPerform rLoad = true ∧
      rLoad.pas = [(0, 0x38)] ∧ rLoad.progress = 0 ∧ rLoad.page.1 = false ∧ rLoad.y = 0 ∧ (0x38 : BitVec 45).toNat % 64 + 8 ≤ 64 ∧
      (at_ (sReq rLoad [])).homeHeld ((at_ (sReq rLoad [])).reqKey rLoad) 0x38 = false ∧ (at_ (sReq rLoad [])).poisoned 0x38 8 = false) ∧
    ((here (sReq rBack [])).req 5 = some rBack ∧ rBack.result = some (7, 9) ∧ rBack.mask = 0 ∧ (replyWrites rBack 7 9).isSome = true) := by decide

/-- A load writes the forwarded byte and the bytes of memory, and counts down its counter; a once result fills two registers. -/
theorem test_reply : (match exec .deviceReplyArrival (sReq rLoad [(0x39, 0x12), (0x3F, 0x80)]) with
      | .next t => (t.ctx.regs.sreg 62, t.ctx.regs.dc.read 7, t.core.reqs) | _ => (0, 0, [])) = (0x80000000000012FF, 0xFFF, []) ∧
    (match exec .deviceReplyArrival (sReq rBack []) with | .next t => (t.ctx.regs.sreg 62, t.ctx.regs.sreg 63) | _ => (0, 0)) = (7, 9) := by decide

def rAtom (op : BitVec 4) : Req := ask (.atom op) 0x40 3 4

theorem witness_atom : Performs (sReq (rAtom 9) []) (rAtom 9) ∧ (at_ (sReq (rAtom 9) [])).homeHeld ((at_ (sReq (rAtom 9) [])).reqKey (rAtom 9)) (rAtom 9).home = false ∧
    (at_ (sReq (rAtom 9) [])).poisoned (rAtom 9).home 8 = false := ⟨performs_of _ _ (by decide) (by decide) (by decide) (by decide), by decide, by decide⟩

/-- R201: the compare succeeds on 3 and fails on 2. -/
theorem test_atom : (match exec .atomHomeStep (sReq (rAtom 9) [(0x40, 3)]) with
      | .next t => (Memory.readLE t.mem 0x40 8, (t.core.req 5).bind (·.result)) | _ => (0, none)) = (4, some (3, 0)) ∧
    (match exec .atomHomeStep (sReq (rAtom 9) [(0x40, 2)]) with | .next t => Memory.readLE t.mem 0x40 8 | _ => 0) = 2 := by decide

def rOnce (op : BitVec 2) (gen : Word) : Req := ask (.once op) 0x40 7 gen
/-- Cells of generation 0: open, and decided with 5 by context 1 of tile 3. -/
def mOpen : List Host.Cell := []
def mDecided : List Host.Cell := [(0x40, 5), (0x4C, 0x31), (0x4F, 0x40)]

theorem once_ok (op : BitVec 2) (gen : Word) (m : List Host.Cell) (h : Memory.wf m = true) : Performs (sReq (rOnce op gen) m) (rOnce op gen) :=
  performs_of _ _ (by simp [here, at_, State.focus, sReq, s1, small, onCore, withS, State.mapCore, Core.req, rOnce, ask, State.reset, EvArgs.zero])
    rfl (by simp [here, at_, State.focus, sReq, s1, small, onCore, withS, State.mapCore, Core.mayPerform, rOnce, ask, State.reset, EvArgs.zero, Req.blocks,
      Core.behindFence, Core.copiesBefore, Req.scWaits, Core.ctx, Core.idle, Ctx.idle, Req.isPop]) (by simpa [at_, State.focus, sReq, State.reset, EvArgs.zero, s1, small, onCore, State.mapCore] using h)

theorem witness_once : (∀ op gen, Performs (sReq (rOnce op gen) mOpen) (rOnce op gen) ∧ Performs (sReq (rOnce op gen) mDecided) (rOnce op gen)) ∧
    (∀ m ∈ [mOpen, mDecided], (at_ (sReq (rOnce 0 0) m)).homeHeld ((at_ (sReq (rOnce 0 0) m)).reqKey (rOnce 0 0)) 0x40 = false ∧ (at_ (sReq (rOnce 0 0) m)).poisoned 0x40 32 = false ∧
      ctlGood (halfAt (at_ (sReq (rOnce 0 0) m)) 0x40).2.2 ∧ ctlGood (halfAt (at_ (sReq (rOnce 0 0) m)) 0x50).2.2 ∧
      (halfAt (at_ (sReq (rOnce 0 0) m)) 0x40).2.1 = 0) ∧
    (halfAt (at_ (sReq (rOnce 0 0) mOpen)) 0x40).2.2.extractLsb' 0 1 = 0 ∧ (halfAt (at_ (sReq (rOnce 0 0) mDecided)) 0x40).2.2.extractLsb' 0 1 = 1 ∧
    (rOnce 0 0).home = 0x40 ∧ (rOnce 2 1).y.extractLsb' 0 32 = 1 :=
  ⟨fun op gen => ⟨once_ok op gen _ (by decide), once_ok op gen _ (by decide)⟩, by unfold ctlGood; decide, by decide, by decide, by decide, by decide⟩

/-- A cell of generation 5, decided, whose generation 4 was decided with 9 by context 1 of tile 3; and a decided cell of the last generation. -/
def mOlder : List Host.Cell := [(0x40, 5), (0x48, 5), (0x4C, 0x31), (0x4F, 0x40), (0x50, 9), (0x58, 4), (0x5C, 0x31), (0x5F, 0x40)]
def mLast : List Host.Cell := [(0x40, 5), (0x48, 0xFF), (0x49, 0xFF), (0x4A, 0xFF), (0x4B, 0xFF), (0x4C, 0x31), (0x4F, 0x40)]

/-- The clauses of an earlier generation, archived or gone, and those of an OCRECYCLE that opens nothing. -/
theorem witness_once_earlier : (∀ op gen, ∀ m ∈ [mOlder, mLast, mOpen], Performs (sReq (rOnce op gen) m) (rOnce op gen)) ∧
    (∀ m ∈ [mOlder, mLast], (at_ (sReq (rOnce 0 0) m)).poisoned 0x40 32 = false ∧ ctlGood (halfAt (at_ (sReq (rOnce 0 0) m)) 0x40).2.2 ∧
      ctlGood (halfAt (at_ (sReq (rOnce 0 0) m)) 0x50).2.2 ∧ (halfAt (at_ (sReq (rOnce 0 0) m)) 0x40).2.2.extractLsb' 0 1 = 1) ∧
    (let c := halfAt (at_ (sReq (rOnce 0 4) mOlder)) 0x40
     let a := halfAt (at_ (sReq (rOnce 0 4) mOlder)) 0x50
     c.2.1 = 5 ∧ a.2.2.extractLsb' 0 1 = 1 ∧ a.2.1 = 4 ∧ (rOnce 0 4).y.extractLsb' 0 32 = 4 ∧ (rOnce 0 3).y.extractLsb' 0 32 ≠ a.2.1 ∧
       ((rOnce 0 3).y.extractLsb' 0 32).toNat < c.2.1.toNat) ∧
    (halfAt (at_ (sReq (rOnce 2 0) mLast)) 0x40).2.1 = 0xFFFFFFFF ∧ (rOnce 2 0xFFFFFFFF).y.extractLsb' 0 32 = 0xFFFFFFFF ∧
    (halfAt (at_ (sReq (rOnce 2 0) mOpen)) 0x40).2.2.extractLsb' 0 1 = 0 := by
  refine ⟨fun op gen m hm => once_ok op gen m ?_, by unfold ctlGood; decide, by decide, by decide, by decide, by decide⟩
  revert m
  decide

/-- R358: a late PROPOSE reads the archived winner, an older one and an OCRECYCLE find nothing. -/
theorem test_once_earlier : (match exec .onceCellHomeStep (sReq (rOnce 0 4) mOlder) with | .next t => (t.core.req 5).bind (·.result) | _ => none) =
      some (9, 0x0000000540000032) ∧
    (match exec .onceCellHomeStep (sReq (rOnce 0 3) mOlder) with | .next t => (t.core.req 5).bind (·.result) | _ => none) = some (0, 0x0000000500000003) ∧
    (match exec .onceCellHomeStep (sReq (rOnce 2 4) mOlder) with | .next t => (t.core.req 5).bind (·.result) | _ => none) = some (0, 0x0000000500000003) := by decide

/-- The page table of address space 0 that device addresses 0 to 0x3FFF_FFFF map to the same physical addresses: the ASID entry at 0, a table at
0x10000 and one at 0x11000 whose first entry is a leaf. -/
def mTable : List Host.Cell := [(2, 1), (7, 0x80), (0x10001, 0x10), (0x10002, 1), (0x10007, 0x80), (0x11007, 0xE0)]

theorem walk_down (s : State) (key : HeldAcc) (va n level a : Nat) (e : BitVec 64) (hh : ∀ pa, s.homeHeld key pa = false)
    (hp : s.poisoned (a + 8 * walkIndex va level) 8 = false) (he : BitVec.ofNat 64 (s.homeRead (a + 8 * walkIndex va level) 8) = e) (hv : leafV e = true)
    (hm : malformed e level = false) (hl : (decide (level = 3) || leafLeaf e) = false) : s.walkFrom key va (n + 1) level a = s.walkFrom key va n (level + 1) (leafBase e) := by
  simp only [State.walkFrom, hh, hp, he, hv, hm, hl, Bool.not_true, Bool.false_eq_true, if_false]

theorem walk_leaf (s : State) (key : HeldAcc) (va n level a : Nat) (e : BitVec 64) (hh : ∀ pa, s.homeHeld key pa = false)
    (hp : s.poisoned (a + 8 * walkIndex va level) 8 = false) (he : BitVec.ofNat 64 (s.homeRead (a + 8 * walkIndex va level) 8) = e) (hv : leafV e = true)
    (hm : malformed e level = false) (hl : (decide (level = 3) || leafLeaf e) = true) : s.walkFrom key va (n + 1) level a = .ok e (BitVec.ofNat 2 level) := by
  simp only [State.walkFrom, hh, hp, he, hv, hm, hl, Bool.not_true, Bool.false_eq_true, if_false, if_true]

theorem walk_start (s : State) (key : HeldAcc) (asid : BitVec 8) (va root : Nat) (hh : ∀ pa, s.homeHeld key pa = false) (h : va < 2 ^ 52)
    (hp : s.poisoned (s.astBase.toNat + 16 * asid.toNat) 16 = false) (he : s.asidEntry asid = some root) :
    s.pageWalk key asid va = s.walkFrom key va 4 0 root := by
  simp only [State.pageWalk, hh, hp, he, Nat.not_le.mpr h, if_false, Bool.false_eq_true]

/-- An entry of this table is well formed where the stack that it names exists. -/
theorem well_formed_entry (h : Config.stackPresent 0 0 = true) :
    malformed 0x8000000000011000 0 = false ∧ malformed 0xE000000000000000 1 = false ∧ malformed 0xC000000000000000 1 = false := by
  have k : ∀ (e : BitVec 64) (l pa : Nat), leafBase e = pa → physExists pa = true → (∀ b, b = true → (
      let leaf := leafLeaf e
      (decide (field e 45 11 ≠ 0) || decide (field e 0 8 ≠ 0)) || ((decide (l = 0) && leaf) || (decide (l = 3) && !leaf)) ||
        (!leaf && decide (field e 56 6 ≠ 0)) || decide (leafBase e % (if leaf then 2 ^ pageBits (BitVec.ofNat 2 l) else tableAlign l) ≠ 0) ||
        ((leafCMP e && leafONCE e) || (leafCMP e && leafRC e) || (leafONCE e && leafRC e)) || (leafSC e && leafRC e) || !b) = false) → malformed e l = false := by
    intro e l pa hb hp hr
    exact hr (physExists (leafBase e)) (by rw [hb]; exact hp)
  exact ⟨k _ _ 0x11000 (by decide) h (by rintro _ rfl; decide), k _ _ 0 (by decide) h (by rintro _ rfl; decide), k _ _ 0 (by decide) h (by rintro _ rfl; decide)⟩

/-- What a walk of this table needs of a state whose leaf is `e`. -/
def tabled (s : State) (e : BitVec 64) : Bool :=
  s.quiesces.isEmpty && s.meshUp && (List.range 4).all (fun d => !(s.kvts.read (BitVec.ofNat 2 d)).getLsbD 63) && !s.poisoned (s.astBase.toNat + 16 * (0 : BitVec 8).toNat) 16 &&
    (s.asidEntry 0 == some 0x10000) && !s.poisoned 0x10000 8 && !s.poisoned 0x11000 8 && (BitVec.ofNat 64 (s.homeRead 0x10000 8) == 0x8000000000011000) &&
    (BitVec.ofNat 64 (s.homeRead 0x11000 8) == e)

theorem tabled_calm (s : State) (e : BitVec 64) (t : tabled s e = true) (key : HeldAcc) (pa : Nat) : s.homeHeld key pa = false := by
  simp only [tabled, Bool.and_eq_true, List.isEmpty_iff] at t
  refine calm s t.1.1.1.1.1.1.1.1 t.1.1.1.1.1.1.1.2 ?_ key pa
  have k := t.1.1.1.1.1.1.2
  intro d
  simp only [List.all_eq_true, List.mem_range, Bool.not_eq_true'] at k
  have := k d.toNat (by omega)
  rwa [BitVec.ofNat_toNat, BitVec.setWidth_eq] at this

/-- In a package that has its first stack, the walk of this table finds the leaf. Which stacks exist is the configuration's, so this is a premise. -/
theorem table_walk (s : State) (key : HeldAcc) (va : Nat) (e : BitVec 64) (hva : va < 2 ^ 30) (h0 : malformed 0x8000000000011000 0 = false)
    (he : malformed e 1 = false ∧ leafV e = true ∧ leafLeaf e = true) (t : tabled s e = true) : s.pageWalk key 0 va = .ok e 1 := by
  have hh := tabled_calm s e t key
  have i0 : walkIndex va 0 = 0 := by simp only [walkIndex]; omega
  have i1 : walkIndex va 1 = 0 := by simp only [walkIndex]; omega
  simp only [tabled, Bool.and_eq_true, Bool.not_eq_true', beq_iff_eq] at t
  rw [walk_start s key 0 va 0x10000 hh (by omega) t.1.1.1.1.1.2 t.1.1.1.1.2, walk_down s key va 3 0 _ 0x8000000000011000 hh (by rw [i0]; exact t.1.1.1.2)
    (by rw [i0]; exact t.1.2) (by decide) h0 (by decide)]
  have b : leafBase (0x8000000000011000 : BitVec 64) = 0x11000 := by decide
  rw [b]
  exact walk_leaf s key va 2 1 _ e hh (by rw [i1]; exact t.1.1.2) (by rw [i1]; exact t.2) he.2.1 he.1 (by rw [he.2.2]; rfl)

theorem table_walk_pa (s : State) (key : HeldAcc) (va : Nat) (e : BitVec 64) (hva : va < 2 ^ 30) (h0 : malformed 0x8000000000011000 0 = false)
    (he : malformed e 1 = false ∧ leafV e = true ∧ leafLeaf e = true) (hb : leafBase e = 0) (t : tabled s e = true) : s.walkPa key 0 va = .ok va e := by
  have b : pageBits 1 = 30 := by decide
  simp only [State.walkPa, table_walk s key va e hva h0 he t, hb, b]
  rw [Nat.mod_eq_of_lt hva, Nat.zero_add]

/-- The two leaves that the tests use: one that may be written, and one that may not. -/
theorem walk_writable (h : Config.stackPresent 0 0 = true) (s : State) (key : HeldAcc) (va : Nat) (hva : va < 2 ^ 30) (t : tabled s 0xE000000000000000 = true) :
    s.walkPa key 0 va = .ok va 0xE000000000000000 :=
  table_walk_pa s key va _ hva (well_formed_entry h).1 ⟨(well_formed_entry h).2.1, by decide, by decide⟩ (by decide) t

theorem walk_read_only (h : Config.stackPresent 0 0 = true) (s : State) (key : HeldAcc) (va : Nat) (hva : va < 2 ^ 30) (t : tabled s 0xC000000000000000 = true) :
    s.walkPa key 0 va = .ok va 0xC000000000000000 :=
  table_walk_pa s key va _ hva (well_formed_entry h).1 ⟨(well_formed_entry h).2.2, by decide, by decide⟩ (by decide) t

/-- The same memory with that page not writable. -/
def readOnly (m : List Host.Cell) : List Host.Cell := m.map fun c => if c.1 = 0x11007 then (c.1, 0xC0) else c

/-- A work queue of one item at 0x200, whose ring is at 0x400: with an item, empty, and empty and closed. -/
def mItem : List Host.Cell := [(2, 1), (7, 0x80), (0x201, 4), (0x208, 1), (0x210, 1), (0x400, 0x77), (0x10001, 0x10), (0x10002, 1), (0x10007, 0x80), (0x11007, 0xE0)]
def mEmpty : List Host.Cell := [(2, 1), (7, 0x80), (0x201, 4), (0x208, 1), (0x10001, 0x10), (0x10002, 1), (0x10007, 0x80), (0x11007, 0xE0)]
def mClosed : List Host.Cell := [(0x208, 1), (0x20C, 1)]
def rPop (b : Bool) : Req := ask (.pop b) 0x200 0 0
def rPush : Req := ask (.push false) 0x200 5 0

theorem witness_work_queue :
    (∀ m ∈ [mItem, mEmpty, mClosed], ∀ r ∈ [rPop true, rPop false, rPush], Performs (sReq r m) r) ∧
    (∀ r ∈ [rPop true, rPop false, rPush], r.waiting = false ∧ r.discard = false ∧ r.home = 0x200) ∧
    (∀ m ∈ [mItem, mEmpty, mClosed], let s := sReq rPush m
      (at_ s).homeHeld ((at_ s).reqKey rPush) 0x200 = false ∧ (at_ s).poisoned 0x200 64 = false ∧ ((at_ s).workQ 0x200).ok = true ∧ s.waiters = []) ∧
    (((at_ (sReq rPush mItem)).workQ 0x200).held = 1 ∧ ((at_ (sReq rPush mItem)).workQ 0x200).cap = 1 ∧ ((at_ (sReq rPush mItem)).workQ 0x200).closed = false) ∧
    (((at_ (sReq rPush mEmpty)).workQ 0x200).held = 0 ∧ ((at_ (sReq rPush mEmpty)).workQ 0x200).closed = false) ∧
    (((at_ (sReq rPush mClosed)).workQ 0x200).held = 0 ∧ ((at_ (sReq rPush mClosed)).workQ 0x200).closed = true) := by
  have hr : ∀ m ∈ [mItem, mEmpty, mClosed], ∀ r ∈ [rPop true, rPop false, rPush], Memory.wf m = true ∧
      ((here (sReq r m)).req 5 = some r ∧ r.result = none ∧ (here (sReq r m)).mayPerform r = true ∧ Memory.wf (at_ (sReq r m)).mem = true) := by decide
  exact ⟨fun m hm r hr' => let x := (hr m hm r hr').2; performs_of _ _ x.1 x.2.1 x.2.2.1 x.2.2.2, by decide, by decide, by decide, by decide, by decide⟩

/-- The clauses in which the queue's item is reached, on a page that may be written and on one that may not: on a package that has its first stack. -/
theorem witness_work_queue_items (h : Config.stackPresent 0 0 = true) :
    (∀ p ∈ [(rPop true, mItem), (rPop false, mItem), (rPush, mEmpty)],
      let s := at_ (sReq p.1 p.2)
      let t := at_ (sReq p.1 (readOnly p.2))
      s.walkPa (s.reqKey p.1) (p.1.y.extractLsb' 0 8) ((s.workQ 0x200).item 0) = .ok 0x400 0xE000000000000000 ∧ attrTrap 0xE000000000000000 .queue = none ∧
      t.walkPa (t.reqKey p.1) (p.1.y.extractLsb' 0 8) ((t.workQ 0x200).item 0) = .ok 0x400 0xC000000000000000 ∧ attrTrap 0xC000000000000000 .queue = some .prot ∧
      s.homeHeld (s.reqKey p.1) 0x400 = false ∧ s.poisoned 0x400 8 = false) ∧
    (∀ m ∈ [mItem, readOnly mItem], ((at_ (sReq (rPop true) m)).workQ 0x200).popped = 0 ∧ ((at_ (sReq (rPop true) m)).workQ 0x200).held = 1) ∧
    (∀ m ∈ [mEmpty, readOnly mEmpty], ((at_ (sReq rPush m)).workQ 0x200).pushed = 0 ∧ ((at_ (sReq rPush m)).workQ 0x200).held ≠ ((at_ (sReq rPush m)).workQ 0x200).cap) := by
  have d : ∀ p ∈ [(rPop true, mItem), (rPop false, mItem), (rPush, mEmpty)],
      let s := at_ (sReq p.1 p.2)
      let t := at_ (sReq p.1 (readOnly p.2))
      tabled s 0xE000000000000000 = true ∧ tabled t 0xC000000000000000 = true ∧ p.1.y.extractLsb' 0 8 = 0 ∧ (s.workQ 0x200).item 0 = 0x400 ∧
      (t.workQ 0x200).item 0 = 0x400 ∧ s.homeHeld (s.reqKey p.1) 0x400 = false ∧ s.poisoned 0x400 8 = false := by decide
  refine ⟨fun p hp => ?_, by decide, by decide⟩
  obtain ⟨a, b, c, e, f, g⟩ := d p hp
  simp only [c, e, f]
  exact ⟨walk_writable h _ _ _ (by decide) a, by decide, walk_read_only h _ _ _ (by decide) b, by decide, g⟩

/-- R332: an empty open queue makes a POPW.b wait at home and answers a POPW 1; a closed one answers 2. -/
theorem test_work_queue : (match exec .workQueueHomeStep (sReq (rPop true) mEmpty) with
      | .next t => (t.waiters, (t.core.req 5).map (·.waiting)) | _ => ([], none)) = ([(0x200, 0, 5)], some true) ∧
    (match exec .workQueueHomeStep (sReq (rPop false) mClosed) with | .next t => (t.core.req 5).bind (·.result) | _ => none) = some (0, 2) := by decide

/-- Queue 62, whose cell is at 0xF80: open with its ring of two records at 0x4000 and its last slot free; full; and closed. -/
def mRing : List Host.Cell := [(2, 1), (7, 0x80), (0xF81, 0x40), (0xF88, 2), (0xF8C, 0x80), (0xF90, 1), (0x10001, 0x10), (0x10002, 1), (0x10007, 0x80), (0x11007, 0xE0)]
def mFull : List Host.Cell := [(2, 1), (7, 0x80), (0xF81, 0x40), (0xF88, 2), (0xF8C, 0x80), (0xF90, 2), (0x10001, 0x10), (0x10002, 1), (0x10007, 0x80), (0x11007, 0xE0)]
def rQ : Req := ask (.qpush 62) 0x100 0 0

theorem witness_qpush (h : Config.stackPresent 0 0 = true) :
    (Performs (sReq rQ mRing) rQ ∧ Performs (sReq rQ mFull) rQ ∧ Performs (sReq rQ []) rQ ∧ rQ.home = 0x100) ∧
    (∀ m ∈ [mRing, mFull, readOnly mRing, []],
      let s := at_ (sReq rQ m)
      s.homeHeld (s.reqKey rQ) 0x100 = false ∧ s.homeHeld (s.reqKey rQ) (s.qtBase.toNat + 64 * 62) = false ∧ s.poisoned 0x100 128 = false) ∧
    (at_ (sReq rQ [])).queueOpen 62 = false ∧
    (∀ m ∈ [mRing, mFull, readOnly mRing],
      let s := at_ (sReq rQ m)
      s.queueOpen 62 = true ∧ rQ.y.extractLsb' 0 8 = s.queueAsid 62 ∧ s.cap 62 = 2 ∧ s.homeHeld (s.reqKey rQ) 0x4080 = false) ∧
    ((at_ (sReq rQ mFull)).tailSeq 62 - (at_ (sReq rQ mFull)).headSeq 62 = 2 ∧ (at_ (sReq rQ mRing)).tailSeq 62 - (at_ (sReq rQ mRing)).headSeq 62 = 1) ∧
    (∀ p ∈ [(mRing, 1, 0x4080), (mFull, 2, 0x4000)],
      let s := at_ (sReq rQ p.1)
      s.tailSeq 62 = p.2.1 ∧ s.walkPa (s.reqKey rQ) (s.queueAsid 62) (s.slotVa 62 p.2.1) = .ok p.2.2 0xE000000000000000) ∧
    (let s := at_ (sReq rQ (readOnly mRing))
     s.walkPa (s.reqKey rQ) (s.queueAsid 62) (s.slotVa 62 (s.tailSeq 62)) = .ok 0x4080 0xC000000000000000) ∧
    leafW 0xE000000000000000 = true ∧ leafW 0xC000000000000000 = false := by
  have d : ∀ p ∈ [(mRing, 1, 0x4080), (mFull, 2, 0x4000)],
      let s := at_ (sReq rQ p.1)
      s.tailSeq 62 = p.2.1 ∧ s.queueAsid 62 = 0 ∧ s.slotVa 62 p.2.1 = p.2.2 ∧ p.2.2 < 2 ^ 30 ∧ tabled s 0xE000000000000000 = true := by decide
  have z :
      let s := at_ (sReq rQ (readOnly mRing))
      s.queueAsid 62 = 0 ∧ s.slotVa 62 (s.tailSeq 62) = 0x4080 ∧ tabled s 0xC000000000000000 = true := by decide
  refine ⟨⟨performs_of _ _ (by decide) (by decide) (by decide) (by decide), performs_of _ _ (by decide) (by decide) (by decide) (by decide),
    performs_of _ _ (by decide) (by decide) (by decide) (by decide), by decide⟩, by decide, by decide, by decide, by decide, fun p hp => ?_, ?_, by decide, by decide⟩
  · obtain ⟨a, b, c, e, f⟩ := d p hp
    refine ⟨a, ?_⟩
    rw [b, c]
    exact walk_writable h _ _ _ e f
  · obtain ⟨a, b, c⟩ := z
    simp only [a, b]
    exact walk_read_only h _ _ _ (by decide) c

/-- The page of the next slot is not mapped: the walk of an empty table ends. -/
theorem witness_qpush_unmapped : let s := at_ (sReq rQ (mRing.filter fun c => c.1 < 0x10000))
    (match s.walkPa (s.reqKey rQ) (s.queueAsid 62) (s.slotVa 62 (s.tailSeq 62)) with | .none => true | _ => false) = true ∧ s.queueOpen 62 = true ∧ s.cap 62 ≠ 0 := by decide

/-- R310: a closed queue answers 2. -/
theorem test_qpush : (match exec .qpushHomeStep (sReq rQ []) with | .next t => (t.core.req 5).bind (·.result) | _ => none) = some (2, 0) := by decide

def rWin (k : ReqKind) : Req := ask k 0x1FFFF8 3 0
def sWin (k : ReqKind) : State := { sReq { rWin k with mask := 0xFF, bits := 0x8877665544332211 } [] with binds := sW.binds }

theorem witness_window : ((here (sWin (.winLoad 8 true))).req 5 = some { rWin (.winLoad 8 true) with mask := 0xFF, bits := 0x8877665544332211 } ∧
      (here (sWin (.winLoad 8 true))).windowTurn (rWin (.winLoad 8 true)) = true ∧ (at_ (sWin (.winLoad 8 true))).windowGone (rWin (.winLoad 8 true)) 3 = none ∧
      ((at_ (sWin (.winLoad 8 true))).coreAt (quadMate 0 3)).spadPoisoned 0x1FFFF8 8 = false) ∧
    ((here (sWin .winStore)).req 5 = some { rWin .winStore with mask := 0xFF, bits := 0x8877665544332211 } ∧ (here (sWin .winStore)).windowTurn (rWin .winStore) = true ∧
      (at_ (sWin .winStore)).windowGone (rWin .winStore) 3 = none ∧ (rWin .winStore).y.toNat < 5 ∧ Memory.wf ((at_ (sWin .winStore)).coreAt (quadMate 0 3)).spad = true) := by decide

/-- R262: the load reads the scratchpad of tile 17, the fourth of the quad, and not this one. -/
theorem test_window :
    let s := sWin (.winLoad 2 true)
    let s := { s with parked := [(17, { Core.idle with spad := [(0x1FFFF8, 0x34), (0x1FFFF9, 0x92)] })] }
    (match exec .windowAccessArrival s with | .next t => (t.ctx.regs.sreg 62, t.core.reqs.length) | _ => (0, 9)) = (0xFFFFFFFFFFFF9234, 0) := by decide

def entry7 : HEntry := { pa := 0x40, mask := 0x8000000000000001, bytes := BitVec.ofNat 512 (2 ^ 504 * 9 + 7), cls := 0, seq := 1, phase := 0, asid := 0, vpns := [0], fences := 0 }
def sEntry : State := let s := sReq (rPop false) []
  (s.mapCore fun c => { c with main := { c.main with released := [entry7], phase := 1 } })
def sByte : State := { sReq (rPop false) [] with ev := { EvArgs.zero with flag := true, addr := 0x3F, data := [9] } }
/-- The same while an earlier write of that core is held. -/
def sByteLate : State := { sByte with stalled := [.write (some 0) 0 [1]] }

theorem witness_home_writes : Memory.wf (at_ sEntry).mem = true ∧ (at_ sEntry).entriesReady sEntry.ev.ctx = [entry7] ∧
    (at_ sEntry).homeHeld ((at_ sEntry).entryKey sEntry.ev.ctx entry7) entry7.pa.toNat = false ∧
    (sByteLate.ev.flag = true ∧ sByteLate.ctlPending (sByteLate.ev.port.setWidth 3) = true ∧ Memory.wf (at_ sByteLate).mem = true) ∧
    (sByte.ev.flag = true ∧ sByte.ctlPending (sByte.ev.port.setWidth 3) = false ∧ sByte.ev.addr.toNat % 64 + sByte.ev.data.length ≤ 64 ∧ sByte.ev.data ≠ [] ∧ sByte.quiesced sByte.ev.addr.toNat = false ∧ sByte.stalls sByte.ev.addr.toNat = false ∧
      Memory.wf sByte.mem = true ∧ Memory.wf (at_ sByte).mem = true) := by decide

def gBar : Gang := ⟨1, 0, 0, 0, [0, 1, 16, 17], false, [], [17], [], [], [], [], 0, 0, 0, 0, 0, 0, false, 0⟩
def bBar : Barrier := ⟨1, 0, 0, 3, 0, [(0, 1), (1, 2), (16, 1)], none⟩
def sBar (g : Gang) (b : Barrier) : State := { s1 with gangs := [g], barriers := [b] }

theorem witness_barrier :
    ((sBar gBar bBar).barriers[(sBar gBar bBar).ev.id]? = some bBar ∧ (sBar gBar bBar).liveGang bBar.gang = some gBar ∧ gBar.saved = []) ∧
    (let alive := gBar.tiles.filter fun t => decide (scopeInst bBar.scope t = bBar.inst) && !gBar.left.contains t && !gBar.dead.contains t
     alive ≠ [] ∧ alive.all (fun t => decide (bBar.phase < bBar.count t)) = true ∧ (gBar.dead ++ gBar.lost).any (fun t => decide (scopeInst bBar.scope t = bBar.inst)) = false) ∧
    (let g := { gBar with dead := [16] }
     let alive := g.tiles.filter fun t => decide (scopeInst bBar.scope t = bBar.inst) && !g.left.contains t && !g.dead.contains t
     (g.dead ++ g.lost).any (fun t => decide (scopeInst bBar.scope t = bBar.inst)) = true ∧ alive.any (fun t => decide (bBar.phase < bBar.count t)) = true) := by decide

def rKv : Req := { ask (.kvapp 47) 0 0 0 with va := 0, mask := 2 }
/-- A record at 0 of one sequence of width 32 whose row is at 0x80 and whose block holds 14 rows; `n` sequences are said to follow. -/
def sKv (w n : Byte) : State := (sReq rKv []).mapCore fun c =>
  { c with main := { c.main with phase := 1 }, spad := [(0x10, 0x80), (0x18, w), (0x1A, n), (0x50, 14)].filter fun x => x.2 ≠ 0 }

theorem witness_kvapp : (∀ s ∈ [sKv 0 1, sKv 32 0, sKv 32 1, sKv 224 255], (here s).req s.ev.id = some rKv ∧ (here s).kvReleased rKv = true ∧ (here s).kvRuns = true ∧
      (here s).spadPoisoned 0 64 = false ∧ Memory.wf (here s).spad = true) ∧
    ((here (sKv 0 1)).kvRecord 0).ok = false ∧ (((here (sKv 32 0)).kvRecord 0).ok = true ∧ ((here (sKv 32 0)).kvRecord 0).nseq ≤ rKv.progress) ∧
    (∀ s ∈ [sKv 32 1, sKv 224 255], let h := (here s).kvRecord 0
      h.ok = true ∧ rKv.progress < h.nseq ∧ (here s).spadPoisoned 64 32 = false ∧ h.rows % 64 = 0 ∧ h.rows + 4 * h.w ≤ 0x200000 ∧ (here s).spadPoisoned h.rows (4 * h.w) = false ∧
      rKv.mask = 2 ∧ Memory.readLE (here s).spad 0x50 4 % 16 ≠ 15) := by decide

/-- R245: the length of the sequence rises by one. -/
theorem test_kvapp : (match exec .kvappExecute (sKv 32 1) with | .next t => (Memory.readLE t.core.spad 0x50 4, (t.core.req 5).map (·.progress)) | _ => (0, none)) = (15, some 1) ∧
    (match exec .kvappExecute (sKv 0 1) with | .next t => (t.core.reqs.length, t.ctx.regs.preg 47) | _ => (9, true)) = (0, false) := by decide

/-! ## Translation, firmware, launches and members -/

/-- A miss of the second copy engine of tile 127. -/
def wMiss : Walk := ⟨4, 127, 0, 5, 0, 0, 0x3FFFFFFF, 0, 0, none⟩
def sWalk (m : List Host.Cell) : State :=
  let s := rung (sReq rLoad m)
  { s with walks := [wMiss], ev := { s.ev with id := 4 } }

/-- The same with a poisoned ASID entry, and with the tail store at address 0 being reconfigured. -/
def sWalkBad : State := { sWalk mTable with poison := [0] }
def sWalkHeld : State := { sWalk mTable with kvts := (sWalk mTable).kvts.write 0 0x8000000000000010 }

theorem witness_walk (h : Config.stackPresent 0 0 = true) :
    (∀ s ∈ [sWalk mTable, sWalk [], sWalk [(2, 1), (7, 0x80)], sWalkBad, sWalkHeld], (s.walks.find? fun x => x.id = s.ev.id) = some wMiss ∧ s.hasWalker wMiss = true ∧
      (s.walks.filter fun x => x.token.isNone && x.shares wMiss) = [wMiss]) ∧ wMiss.token = none ∧
    (sWalk mTable).pageWalk (.walk 4) 0 wMiss.va.toNat = .ok 0xE000000000000000 1 ∧
    (sWalk []).pageWalk (.walk 4) wMiss.asid wMiss.va.toNat = .fault 3 0 0 ∧ (sWalk [(2, 1), (7, 0x80)]).pageWalk (.walk 4) wMiss.asid wMiss.va.toNat = .fault 0 0 0x10000 ∧
    sWalkBad.pageWalk (.walk 4) wMiss.asid wMiss.va.toNat = .poison 0 ∧ sWalkHeld.pageWalk (.walk 4) wMiss.asid wMiss.va.toNat = .wait 0 ∧
    ringRoom (sWalk []) (dieOf 127) ∧ ringRoom (sWalk [(2, 1), (7, 0x80)]) (dieOf 127) ∧ Memory.wf [(2, (1 : Byte)), (7, 0x80)] = true :=
  ⟨by decide, rfl, table_walk _ _ _ _ (by decide) (well_formed_entry h).1 ⟨(well_formed_entry h).2.1, by decide, by decide⟩ (by decide), by decide, by decide,
   by decide, by decide, room_of _ _ (by decide) (by decide), room_of _ _ (by decide) (by decide), by decide⟩

/-- R341, R342: the first fault takes token 1, and its unit waits with it. -/
theorem test_walk_fault : (match exec .translationWalk (sWalk []) with
    | .next t => (t.walks.map (·.token), (t.nextToken.read 3), (t.rings.read 3).prod, (t.rings.read 3).irq) | _ => ([], 0, 0, false)) = ([some 1], 2, 1, true) := by decide

/-- The ring of die 0 is full with a record of kind 3 waiting; the consumer moves by one. -/
def sRing : State := { rung s1 with rings := (rung s1).rings.write 0 ⟨0x40000, 4, 4, 0, true⟩, recWait := [⟨0, some (5, 0), 3⟩], ev := { EvArgs.zero with value := 1 } }

theorem witness_firmware_ring : (rung s1).recWait = [] ∧ (rung s1).ctlPending ((rung s1).ev.die.setWidth 3) = false ∧
    ({ rung s1 with stalled := [.write (some 0) 0 [1]] }).ctlPending ((rung s1).ev.die.setWidth 3) = true ∧ sRing.recWait = [⟨sRing.ev.die, some (5, 0), 3⟩] ∧
    ((sRing.rings.read 0).prod - sRing.ev.value.extractLsb' 0 64).toNat < (sRing.rings.read 0).cap.toNat ∧ (3 : BitVec 512).extractLsb' 0 8 = 3 := by decide

/-- Entries of the page at 0 and of the page at 0x10000 stand in a micro-TLB; the second page of the range is the last one invalidated. -/
def sInv : State := { s1 with core := { s1.core with utlb := [⟨0, 0, 3, 0⟩, ⟨0, 0x20000, 3, 0⟩] }, ev := { EvArgs.zero with value := 1 <<< 63 ||| 2 } }
def sInv2 : State := { s1 with xinv := ⟨1 <<< 63, 0, [], [], []⟩, ev := { EvArgs.zero with value := 2 <<< 16 ||| 3 } }

theorem witness_invalidation : sInv.xinv.reg.getLsbD 63 = false ∧ (sInv.ev.value.extractLsb' 0 64 &&& 0xCFFFFFFFFFFFFFFF).getLsbD 63 = true ∧
    sInv2.xinv.reg.getLsbD 63 = true ∧ sInv2.xinvDone = true ∧ ({ sInv2 with xinv := ⟨1 <<< 63, 0, [(0, 0, 5)], [], []⟩, core := (sReq rLoad []).core }).xinvDone = false ∧
    (sInv2.ev.value.extractLsb' 0 64 &&& 0xCFFFFFFFFFFFFFFF).getLsbD 63 = false ∧
    (match exec .xinv sInv2 with | .next t => (t.xinv.reg, t.xinv.range) | _ => (0, 0)) = (0x8000000000020003, 0) ∧
    (match exec .xinv sInv with | .next t => t.core.utlb.map (·.va) | _ => []) = [0x20000] := by decide

/-- Pool 0 has one slot, whose state word stands at 0x300. -/
def sPool (m : List Host.Cell) : State := { sReq rLoad m with pools := State.reset.pools.write 0 ⟨true, 0, 0, 1, 0x300⟩, ev := { EvArgs.zero with value := BitVec.ofNat 512 (2 ^ 31), die := 3 } }

theorem witness_firmware_pool : ((sPool []).coreAt (tileOfEntry 3 31)).bound = false ∧ ((sPool []).coreAt (tileOfEntry 0 0)).bound = true ∧
    (∀ m ∈ [[(0x300, (1 : Byte))], [(0x303, 0x80)], []], ((sPool m).pools.read 0).valid = true ∧ (sPool m).ev.count < ((sPool m).pools.read 0).nslot.toNat ∧
      (sPool m).homeHeld (sPool m).outsideKey 0x300 = false ∧ Memory.wf (sPool m).mem = true) ∧
    ({ sPool [] with kvts := (sPool []).kvts.write 0 0x8000000000000010 }).homeHeld (sPool []).outsideKey 0x300 = true ∧
    Memory.readLE (sPool [(0x300, 1)]).mem 0x300 4 % 65536 ≠ 0 ∧ Memory.readLE (sPool [(0x303, 0x80)]).mem 0x300 4 = 2 ^ 31 ∧ Memory.readLE (sPool []).mem 0x300 4 = 0 := by decide

/-- R353: BUSY for a pinned slot, ALREADY for a free one, OK for the rest, whose FREE bit is then set. -/
theorem test_kvreclaim : (match exec .kvreclaim (sPool [(0x300, 1)]) with | .next t => t.kvRes.read 3 | _ => 0) = 1 ∧
    (match exec .kvreclaim (sPool [(0x303, 0x80)]) with | .next t => t.kvRes.read 3 | _ => 0) = 2 ∧
    (match exec .kvreclaim (sPool []) with | .next t => (t.kvRes.read 3, Memory.read t.mem 0x303) | _ => (0, 0)) = (3, 0x80) := by decide

/-- In a package 0 that has its first stack, KVTSCFG takes a store of 16 MiB at the start of that stack. -/
theorem witness_kvts (h : Config.stackPresent 0 0 = true) (h2 : Config.pkgId = 0) : kvtsLegal 0 16 = true ∧ kvtsLegal 0 17 = false := by
  have p : physExists 0 = true := h
  have f : field (16 : BitVec 64) 20 25 * 2 ^ 20 = 0 := by decide
  refine ⟨?_, ?_⟩
  · simp only [kvtsLegal, f, p, h2]; decide
  · simp only [kvtsLegal, show (decide (field (17 : BitVec 64) 0 5 ≤ 16)) = false by decide, Bool.false_and]

/-- Queue 62, open at rank 14, holds one record, of a team of 128; the image at 0x6000 has one bundle and one byte of data, for the scratchpad's
last byte. A save area begins at 0x20000. -/
def mHead : List Host.Cell :=
  [(2, 1), (7, 0x80), (0xF81, 0x40), (0xF88, 2), (0xF8C, 0x8E), (0xF90, 1), (0x4001, 0x60), (0x400E, 128), (0x4020, 5)] ++
  [(0x6000, 0x4D), (0x6001, 0x42), (0x6002, 0x49), (0x6003, 0x4D), (0x6004, 1), (0x6006, 1), (0x6011, 1), (0x6014, 1), (0x6020, 0x80), (0x6024, 1)] ++
  [(0x6028, 0xFF), (0x6029, 0xFF), (0x602A, 0x1F), (0x6080, 0x5A), (0x10001, 0x10), (0x10002, 1), (0x10007, 0x80), (0x11007, 0xE0), (0x20000, 1)]
/-- The same queue in an address space that maps nothing: its head is absent. -/
def mAbsent : List Host.Cell := [(0xF81, 0x40), (0xF88, 2), (0xF8C, 0x8E), (0xF90, 1)]
def sHead (m : List Host.Cell) (f : QFlags) : State :=
  let s := rung (sReq rLoad m)
  { s with queues := s.queues.write 62 f, ev := { s.ev with queue := 62 } }
def noFlags : QFlags := ⟨none, none, none, none, [], []⟩

/-- What a state needs for the tables and the records of this memory to be found. -/
def atHead (s : State) : Prop := s.mem = mHead ∧ s.poison = [] ∧ s.astBase = 0 ∧ s.quiesces = [] ∧ s.meshUp = true ∧ ∀ d, (s.kvts.read d).getLsbD 63 = false

theorem atHead_tabled (s : State) (a : atHead s) : tabled s 0xE000000000000000 = true := by
  obtain ⟨hm, hp, ha, hq, hu, hk⟩ := a
  have e : ∀ pa n, s.homeRead pa n = Memory.readLE mHead pa n := fun pa n => by rw [State.homeRead, hm]
  have p : ∀ pa n, s.poisoned pa n = false := fun pa n => by simp [State.poisoned, hp]
  simp only [tabled, State.asidEntry, hq, hu, p, e, ha, hk]
  decide

theorem mapped_usable (h : Config.stackPresent 0 0 = true) (s : State) (a : atHead s) (key : HeldAcc) (va : Nat) (hv : va < 2 ^ 30) (w : Bool) :
    s.usable key 0 va w = .ok va 0xE000000000000000 := by
  have t := atHead_tabled s a
  have c : ∀ w : Bool, (leafCMP (0xE000000000000000 : BitVec 64) || w && !leafW (0xE000000000000000 : BitVec 64)) = false := by decide
  simp only [State.usable, walk_writable h s key va hv t, c, tabled_calm s _ t, Bool.false_eq_true, if_false]

theorem no_tail_store : ∀ d, (State.reset.kvts.read d).getLsbD 63 = false := by decide

theorem sHead_at (f : QFlags) : atHead (sHead mHead f) := ⟨rfl, rfl, rfl, rfl, rfl, no_tail_store⟩

theorem slot_here (h : Config.stackPresent 0 0 = true) (f : QFlags) : (sHead mHead f).headSeq 62 = 0 ∧ (sHead mHead f).ringSlot 62 0 = .ok 0x4000 0xE000000000000000 := by
  have a := sHead_at f
  have m : ∀ pa n, (sHead mHead f).homeRead pa n = Memory.readLE mHead pa n := fun _ _ => rfl
  have b : (sHead mHead f).qtBase = 0 := rfl
  have c : ∀ o n, (sHead mHead f).ctlRead 62 o n = Memory.readLE mHead (0xF80 + o) n := fun o n => by rw [State.ctlRead, b, m]; rfl
  have t : (sHead mHead f).cap 62 = 2 ∧ (sHead mHead f).headSeq 62 = 0 ∧ (sHead mHead f).ring 62 = 0x4000 ∧ (sHead mHead f).queueAsid 62 = 0 := by
    simp only [State.cap, State.headSeq, State.ring, State.queueAsid, c]; decide
  have v : (sHead mHead f).slotVa 62 0 = 0x4000 := by rw [State.slotVa, t.1, t.2.2.1]
  refine ⟨t.2.1, ?_⟩
  · have w := walk_writable h (sHead mHead f) (.outside 0) 0x4000 (by decide) (atHead_tabled _ a)
    have k := tabled_calm _ _ (atHead_tabled _ a)
    simp only [State.ringSlot, State.ctlHeld, k, t.1, t.2.2.2, v, w, Bool.false_eq_true, if_false, if_neg (show ¬ (2 : Nat) = 0 by decide)]

theorem head_here (h : Config.stackPresent 0 0 = true) (f : QFlags) : (sHead mHead f).head 62 = some 0x4000 := by
  obtain ⟨t, r⟩ := slot_here h f
  have m : ∀ pa n, (sHead mHead f).homeRead pa n = Memory.readLE mHead pa n := fun _ _ => rfl
  have z : Memory.readLE mHead (0x4000 + 120) 8 = 0 := by decide
  simp only [State.head, t, r, m, z, if_true]

theorem head_bad_of (s : State) (q : BitVec 6) (pa hd : Nat) (l : BitVec 64) (ha : (decide (s.homeRead (pa + 12) 2 / 8 ≠ 0) || decide (s.homeRead (pa + 80) 40 ≠ 0) ||
      decide (s.homeRead (pa + 0) 8 % 128 ≠ 0) || decide (s.homeRead (pa + 72) 8 % 16 ≠ 0) || s.statusBad q (s.homeRead (pa + 72) 8) ||
      (if s.homeRead (pa + 12) 2 % 2 = 1 then decide (s.homeRead (pa + 14) 2 ≠ 0) else
        (decide (s.homeRead (pa + 14) 2 = 0) || decide (128 < s.homeRead (pa + 14) 2) || decide (s.homeRead (pa + 24) 8 ≠ 0))) || (s.deps pa).any (depBad q (s.headSeq q))) = false)
    (hu : s.usable (.outside 0) (s.queueAsid q) (s.homeRead (pa + 0) 8) false = .ok hd l)
    (hb : (!((List.range (min (s.homeRead (hd + 6) 2) 16)).any fun i => s.homeRead (hd + 64 + 4 * i) 4 = s.homeRead (pa + 8) 4) ||
      (decide (s.homeRead (pa + 36) 4 ≠ 0) && decide (s.homeRead (pa + 36) 4 < s.homeRead (hd + 44) 4))) = false) : s.headBad q pa = false := by
  unfold State.headBad
  simp only [ha, hu, Bool.false_eq_true, if_false]
  exact hb

/-- The same record with a reserved bit of its flags set. -/
def mHeadBad : List Host.Cell := mHead.take 7 ++ [(0x400C, 8)] ++ mHead.drop 7

theorem witness_head (h : Config.stackPresent 0 0 = true) :
    ((sHead mHead noFlags).headNew 62 = true ∧ (sHead mHead noFlags).head 62 = some 0x4000 ∧ (sHead mHead noFlags).headBad 62 0x4000 = false) ∧
    ((sHead mHead { noFlags with checked := some 0 }).headDue 62 = true ∧ (sHead mHead { noFlags with checked := some 0 }).head 62 = some 0x4000 ∧
      (sHead mHead { noFlags with checked := some 0 }).teamSize 62 0x4000 = .ok 128) := by
  have a := head_here h noFlags
  have b := head_here h { noFlags with checked := some 0 }
  have u := mapped_usable h _ (sHead_at noFlags) (.outside 0) 0x6000 (by decide) false
  have k : (decide ((62 : BitVec 6) ≠ 63) && !(sHead mHead noFlags).headChecked 62) = true ∧ (sHead mHead noFlags).completionHeld 62 ((sHead mHead noFlags).queueAsid 62)
      ((sHead mHead noFlags).homeRead (0x4000 + 72) 8) = false ∧ (sHead mHead noFlags).queueAsid 62 = 0 ∧ (sHead mHead noFlags).homeRead 0x4000 8 = 0x6000 := by decide
  have l : let s := sHead mHead { noFlags with checked := some 0 }
      (decide ((62 : BitVec 6) ≠ 63) && s.queueOpen 62 && decide (s.queueRank 62 < 15) && s.headChecked 62 && (s.queues.read 62).eligible.isNone) = true ∧
      ((s.deps 0x4000).all s.depMet && !s.sizeHeld 62 0x4000) = true := by decide
  refine ⟨⟨?_, a, ?_⟩, ?_, b, ?_⟩
  · simp only [State.headNew, State.headHeld, a, k, u]; rfl
  · refine head_bad_of _ 62 0x4000 0x6000 0xE000000000000000 (by decide) ?_ (by decide)
    have c : (sHead mHead noFlags).homeRead (0x4000 + 0) 8 = 0x6000 := by decide
    rw [k.2.2.1, c]
    exact u
  · simp only [State.headDue, b]
    exact Bool.and_eq_true_iff.mpr l
  · have c : let s := sHead mHead { noFlags with checked := some 0 }
        s.homeRead (0x4000 + 12) 2 = 0 ∧ s.homeRead (0x4000 + 14) 2 = 128 ∧ s.tiles = 128 := by decide
    simp only [State.teamSize, c]
    rfl

/-- A record that breaks R312: its check is made where the head is found, and only the flags differ from those of the record above. -/
theorem witness_head_bad : (sHead mHeadBad noFlags).headBad 62 0x4000 = true ∧ Memory.wf mHeadBad = true := by decide

/-- The head has been absent for 1 ms. -/
def sAbsent (t : Option Nat) : State := { sHead mAbsent { noFlags with absentAt := t } with refClk := 100000 }

theorem witness_absent_head : (sAbsent none).headAbsent 62 = true ∧ ((sAbsent none).queues.read 62).absentAt = none ∧ (sAbsent (some 0)).headAbsent 62 = true ∧
    ((sAbsent (some 0)).queues.read 62).absentAt = some 0 ∧ 0 + 100000 ≤ (sAbsent (some 0)).refClk ∧ Memory.wf (sAbsent (some 0)).mem = true ∧
    (Config.pkgId = 0 → ((sAbsent (some 0)).qtBase.toNat + 64 * (62 : BitVec 6).toNat) / 2 ^ 39 = Config.pkgId.toNat) ∧
    ringRoom (sAbsent (some 0)) (homeDie ((sAbsent (some 0)).qtBase.toNat + 64 * (62 : BitVec 6).toNat)) :=
  ⟨by decide, by decide, by decide, by decide, by decide, by decide, fun h => by rw [h]; decide, room_of _ _ (by decide) (by decide)⟩

/-- Queue 62 has an eligible head at rank 14, no other queue has any. -/
def sOffer : State := sHead mHead { noFlags with checked := some 0, eligible := some 128 }

/-- The same with the home of its control block quiesced, as OFFER, RETURN with `flag` and SKIPHEAD find it. -/
def sOfferHeld : State := { sOffer with quiesces := [⟨0, 15, 200, 0, []⟩], ev := { sOffer.ev with flag := true } }

theorem witness_offer_held (h : Config.stackPresent 0 0 = true) : sOffer.headsHeld = false ∧ sOfferHeld.headsHeld = true ∧ sOfferHeld.slotHeld sOfferHeld.ev.queue = true ∧ sOfferHeld.ev.flag = true ∧
    (sHead mAbsent noFlags).headsHeld = false ∧
    (match exec .offer sOfferHeld with | .next t => (t.out, t.inputs.map (·.ev.i)) | _ => ([], [])) = ([], [.offer]) := by
  refine ⟨List.any_eq_false.mpr fun n _ => ?_, by decide, by decide, by decide, by decide, by decide⟩
  have z : ∀ q : BitVec 6, q ≠ 62 → sOffer.headMarked q = false := by decide
  have k : sOffer.slotHeld 62 = false := by
    obtain ⟨a, b⟩ := slot_here h { noFlags with checked := some 0, eligible := some 128 }
    show (match (sHead mHead { noFlags with checked := some 0, eligible := some 128 }).ringSlot 62 ((sHead mHead { noFlags with checked := some 0, eligible := some 128 }).headSeq 62) with
      | .held _ => true | _ => false) = false
    rw [a, b]
  by_cases hq : BitVec.ofNat 6 n = 62
  · rw [hq, k, Bool.and_false]; decide
  · rw [z _ hq, Bool.false_and]; decide

theorem witness_offer (h : Config.stackPresent 0 0 = true) : (∀ q, sOffer.headFree q = true ↔ q = 62) ∧ (sOffer.head 62).isSome = true ∧ sOffer.queueRank 62 = 14 ∧
    sOffer.lastQ.read 14 < 62 ∧ (∀ q, (sHead mAbsent noFlags).headFree q = false) :=
  ⟨by decide, by rw [show sOffer.head 62 = some 0x4000 from head_here h _]; rfl, by decide, by decide, by decide⟩

/-- A read of FITOFFER with the limit 5 finds the head whose RUN is 5. -/
theorem witness_fit_offer (h : Config.stackPresent 0 0 = true) : sOffer.headRun 62 = 5 ∧ sOffer.headFree 62 = true := by
  have a : sOffer.head 62 = some 0x4000 := head_here h _
  refine ⟨?_, by decide⟩
  simp only [State.headRun, a]
  decide

/-- No queue has a head to offer. -/
theorem test_offer : (match exec .offer (sHead mAbsent noFlags) with | .next t => t.out | _ => []) = [.offer 0 none] := by decide

theorem witness_return (h : Config.stackPresent 0 0 = true) : ((sHead mAbsent { noFlags with offered := some 14 }).queues.read 62).offered.isSome = true ∧
    (sHead mAbsent noFlags).ev.flag = false ∧ ((sHead mHead noFlags).head 62 = some 0x4000 ∧
      (sHead mHead noFlags).completionHeld 62 ((sHead mHead noFlags).queueAsid 62) (Memory.readLE (sHead mHead noFlags).mem (0x4000 + 72) 8) = false) ∧
    ((sHead mAbsent noFlags).headSeq 62 = (sHead mAbsent noFlags).ev.count ∧ (sHead mAbsent noFlags).headAbsent 62 = true ∧ (sHead mAbsent noFlags).quiesces = [] ∧
      (sHead mAbsent noFlags).stalls (0xF80 + 24) = false ∧ Memory.wf (sHead mAbsent noFlags).mem = true) ∧ ((sHead [] noFlags).headAbsent 62 = false ∧ (sHead [] noFlags).slotHeld 62 = false) :=
  ⟨by decide, by decide, ⟨head_here h _, by decide⟩, by decide, by decide⟩

/-- Tile 0 is free, 1 reserved, 16 bound, 17 fenced. -/
def sBind (t : BitVec 7) (v : BitVec 512) : State := rung { s1 with binds := ((s1.binds.write 1 1).write 16 2).write 17 5, ev := { EvArgs.zero with tile := t, value := v } }

theorem witness_bind : (bindState ((sBind 0 1).bind 0) = 0 ∧ bindState 1 = 1 ∧ (sBind 0 1).unavailable 0 = false) ∧ (bindState ((sBind 1 0).bind 1) = 1 ∧ bindState 0 = 0) ∧
    (bindState ((sBind 17 1).bind 17) ≠ bindState 1 ∧ (sBind 17 1).unavailable 17 = true) ∧ bindState ((sBind 16 3).bind 16) ≠ bindState 3 := by decide

/-- The same STATE, in each of its cases. -/
theorem witness_bind_same : bindState ((sBind 0 0).bind 0) = bindState 0 ∧ (bindState ((sBind 1 1).bind 1) = bindState 1 ∧ bindState ((sBind 1 1).bind 1) = 1) ∧
    (bindState ((sBind 16 2).bind 16) = bindState 2 ∧ bindState ((sBind 16 2).bind 16) = 2) ∧ bindState ((sBind 17 5).bind 17) = bindState 5 := by decide

/-- R320: a write that leaves STATE changes RESUME and PREEMPT of a bound entry, and every field of a reserved one. -/
theorem test_bind_same : (match exec .bindRecordWrite (sBind 16 (BitVec.allOnes 512 <<< 8 ||| 2#512)) with | .next t => t.bind 16 | _ => 0) =
      (0xFFFFFFFFFFFFFFFF#512 <<< 384 ||| 1#512 <<< 482 ||| 2#512) ∧
    (match exec .bindRecordWrite (sBind 1 (5#512 <<< 128 ||| 1#512)) with | .next t => t.bind 1 | _ => 0) = 5#512 <<< 128 ||| 1#512 := by decide

/-- The image that the bind record names, as dispatch reads it. -/
def hImage : List Byte := Memory.readList mHead 0x6000 128
def iImage : Image := ⟨⟨0, true, [0], []⟩, 0x1FFFFF, [0x5A]⟩

theorem overlay_of (s : State) (key : HeldAcc) (asid : BitVec 8) (va : Nat) (h code lits : List Byte) (held : Option Overlay) (hh : ∀ o, held = some o → o.tagged = false)
    (h1 : s.deviceBytes key asid (va + leNat ((h.drop 16).take 4)) (32 * leNat ((h.drop 20).take 4)) = .ok code)
    (h2 : s.deviceBytes key asid (va + leNat ((h.drop 24).take 4)) (4 * leNat ((h.drop 28).take 4)) = .ok lits) :
    s.overlayOf key asid va h held = .ok ⟨BitVec.ofNat 64 (leNat ((h.drop 8).take 8)), true, wordsOf 32 256 code, wordsOf 4 32 lits⟩ := by
  unfold State.overlayOf
  simp only [h1, h2]
  cases held with
  | none => rfl
  | some o => simp only [hh o rfl, Bool.false_and, Bool.false_eq_true, if_false]

theorem image_of (s : State) (key : HeldAcc) (asid : BitVec 8) (va : Nat) (held : Option Overlay) (entry : Option Nat) (h seg : List Byte) (o : Overlay)
    (hd : s.deviceBytes key asid va 128 = .ok h)
    (hc : (decide (leNat ((h.drop 0).take 4) ≠ 0x4D49424D) || decide (leNat ((h.drop 4).take 2) ≠ 1) || decide (8192 < leNat ((h.drop 20).take 4)) ||
      decide (16384 < leNat ((h.drop 28).take 4)) || (decide (leNat ((h.drop 36).take 4) ≠ 0) && decide (0x200000 < leNat ((h.drop 40).take 4) + leNat ((h.drop 36).take 4))) ||
      !(match entry with | some e => ((List.range (min (leNat ((h.drop 6).take 2)) 16)).map fun i => leNat ((h.drop (64 + 4 * i)).take 4)).contains e | none => true)) = false)
    (h1 : s.overlayOf key asid va h held = .ok o)
    (h2 : (if entry.isNone then .ok [] else s.deviceBytes key asid (va + leNat ((h.drop 32).take 4)) (leNat ((h.drop 36).take 4))) = .ok seg) :
    s.image key asid va held entry = .ok ⟨o, leNat ((h.drop 40).take 4), seg⟩ := by
  unfold State.image
  simp only [hd, h1, h2]
  cases entry <;> exact if_neg fun q => by cases hc.symm.trans q

theorem bytes_of (s : State) (hm : s.mem = mHead) (key : HeldAcc) (hu : ∀ va, va < 2 ^ 30 → s.usable key 0 va false = .ok va 0xE000000000000000) (va n : Nat) (l : List Nat)
    (bs : List Byte) (hb : blockStarts va n = l) (hl : ∀ a ∈ l, a < 2 ^ 30) (he : l.flatMap (fun a => Memory.readList mHead a (min (64 - a % 64) (va + n - a))) = bs) :
    s.deviceBytes key 0 va n = .ok bs := by
  have k : ∀ (l : List Nat) (x : List Byte), (∀ a ∈ l, a < 2 ^ 30) → l.foldl (fun (r : Except (Option Nat) (List Byte)) a =>
      match r, s.usable key 0 a false with
      | .ok bs, .ok pa _ => .ok (bs ++ Memory.readList s.mem pa (min (64 - a % 64) (va + n - a)))
      | .ok _, .held pa => .error (some pa)
      | .ok _, .none => .error none
      | e, _ => e) (.ok x) = .ok (x ++ l.flatMap fun a => Memory.readList mHead a (min (64 - a % 64) (va + n - a))) := by
    intro l
    induction l with
    | nil => intro x _; simp
    | cons a l ih =>
      intro x hl
      simp only [List.foldl_cons, hu a (hl a (by simp)), hm]
      rw [hm] at ih
      rw [ih _ fun b hb => hl b (by simp [hb])]
      simp
  unfold State.deviceBytes
  rw [hb]
  exact (k l [] hl).trans (by rw [he]; rfl)

theorem image_here (h : Config.stackPresent 0 0 = true) (s : State) (a : atHead s) (key : HeldAcc) (held : Option Overlay) (hh : ∀ o, held = some o → o.tagged = false)
    (e : Option Nat) (he : e = some 0 ∨ e = none) : s.image key 0 0x6000 held e = .ok { iImage with spad := if e.isNone then [] else [0x5A] } := by
  have hu : ∀ va, va < 2 ^ 30 → s.usable key 0 va false = .ok va 0xE000000000000000 := fun va hv => mapped_usable h s a key va hv false
  have d := bytes_of s a.1 key hu
  have o := overlay_of s key 0 0x6000 hImage (Memory.readList mHead 0x6100 32) [] held hh (d _ _ [0x6100] _ (by decide) (by decide) (by decide))
    (d _ _ [] _ (by decide) (by decide) (by decide))
  have k : leNat ((hImage.drop 8).take 8) = 0 ∧ leNat ((hImage.drop 40).take 4) = 0x1FFFFF ∧ wordsOf 32 256 (Memory.readList mHead 0x6100 32) = [0] ∧ wordsOf 4 32 [] = [] := by decide
  have m := d 0x6000 128 [0x6000, 0x6040] hImage (by decide) (by decide) (by decide)
  rcases he with rfl | rfl
  · refine (image_of s key 0 0x6000 held (some 0) hImage [0x5A] _ m (by decide) o (d _ _ [0x6080] _ (by decide) (by decide) (by decide))).trans ?_
    simp only [iImage, k]
    rfl
  · refine (image_of s key 0 0x6000 held none hImage [] _ m (by decide) o rfl).trans ?_
    simp only [iImage, k]
    rfl

/-- Four entries of gang 1 on one quad, quad-aligned and ballast, reserved for the image at 0x6000, with the given CKEY. -/
def bindOf (st : Nat) (t : BitVec 7) (key : Nat) : BitVec 512 :=
  BitVec.ofNat 512 st ||| 63 <<< 16 ||| (memberOf t).setWidth 512 <<< 32 ||| 1 <<< 80 ||| 0x6000 <<< 128 ||| 7 <<< 192 ||| 9 <<< 256 ||| BitVec.ofNat 512 key <<< 320 ||| 1 <<< 480
def sGang (key : Nat) : State :=
  let s := rung (sReq rLoad mHead)
  { s with binds := ([0, 1, 16, 17] : List (BitVec 7)).foldl (fun b t => b.write t (bindOf 1 t key)) s.binds, ev := { EvArgs.zero with gang := 1 } }

theorem sGang_at (key : Nat) : atHead (sGang key) := ⟨rfl, rfl, rfl, rfl, rfl, no_tail_store⟩

theorem witness_gang (h : Config.stackPresent 0 0 = true) : (sGang 0).gangTiles 1 = [0, 1, 16, 17] ∧ (sGang 0).gangOk ((sGang 0).gangTiles 1) = true ∧
    (∀ t ∈ (sGang 0).gangTiles 1, bindResume ((sGang 0).bind t) = 0 ∧ ∃ i, (sGang 0).dispatch t = .ok i) ∧ (sGang 0).slotHeld 63 = false ∧
    (∀ t ∈ (sGang 0).gangTiles 1, Memory.wf ((sGang 0).coreAt t).spad = true ∧ bindQueue ((sGang 0).bind t) = 63) ∧
    ({ sGang 0 with binds := (sGang 0).binds.write 17 0 } : State).gangOk (({ sGang 0 with binds := (sGang 0).binds.write 17 0 } : State).gangTiles 1) = false := by
  have g : (sGang 0).gangTiles 1 = [0, 1, 16, 17] := by decide
  have r : ∀ t ∈ ([0, 1, 16, 17] : List (BitVec 7)), bindAsid ((sGang 0).bind t) = 0 ∧ (bindImage ((sGang 0).bind t)).toNat = 0x6000 ∧
      (bindEntry ((sGang 0).bind t)).toNat = 0 ∧ bindResume ((sGang 0).bind t) = 0 ∧ field (bindCkey ((sGang 0).bind t)) 15 17 = 0 ∧
      ((sGang 0).coreAt t).overlay.all (fun o => !o.tagged) = true := by decide
  refine ⟨g, by decide, ?_, by decide, by decide, by decide⟩
  rw [g]
  intro t ht
  obtain ⟨a, b, c, d, e, f⟩ := r t ht
  have hh : ∀ o, ((sGang 0).coreAt t).overlay = some o → o.tagged = false := fun o ho => by
    rw [ho] at f
    simpa using f
  refine ⟨d, { iImage with spad := [0x5A] }, ?_⟩
  · simp only [State.dispatch, a, b, c, e]
    exact (if_neg (by decide)).trans (image_here h _ (sGang_at 0) (.outside 0) _ hh (some 0) (.inl rfl))

/-- A gang whose binds are refused for their CKEY, and one that resumes. -/
theorem witness_gang_refused :
    (let s := sGang 0x8000
     s.gangOk (s.gangTiles 1) = true ∧ s.slotHeld 63 = false ∧ (∀ t ∈ s.gangTiles 1, bindResume (s.bind t) = 0) ∧ s.gangs = [] ∧
       (∀ t ∈ s.gangTiles 1, (match s.dispatch t with | .refused => true | _ => false) = true)) ∧
    (let s : State := { sGang 0 with binds := (sGang 0).binds.write 0 (bindOf 1 0 0 ||| 0x20000 <<< 384), ev := { EvArgs.zero with gang := 1 } }
     let s : State := { s with binds := ([1, 16, 17] : List (BitVec 7)).foldl (fun b t => b.write t (bindOf 1 t 0 ||| 0x420000 <<< 384)) s.binds }
     s.gangOk (s.gangTiles 1) = true ∧ ∀ t ∈ s.gangTiles 1, bindResume (s.bind t) ≠ 0 ∧ (bindCkey (s.bind t)).extractLsb' 15 17 = 0) := by decide

/-- R103, R350: dispatch refuses the whole gang, whose records are freed. -/
theorem test_gang_refused : (match exec .ganggo (sGang 0x8000) with
    | .next t => (([0, 1, 16, 17] : List (BitVec 7)).map (fun x => bindState (t.bind x)), t.gangs.map (·.refused)) | _ => ([], [])) = ([0, 0, 0, 0], [true]) := by decide

def sCreate (resume : BitVec 512) : State := { sGang 0 with core := Core.idle, binds := (sGang 0).binds.write 0 (bindOf 2 0 0 ||| resume <<< 384), ev := EvArgs.zero }

theorem witness_creation : (sCreate 0).toCreate 0 false = true ∧ (bindEntry ((sCreate 0).bind 0)).toNat < 8192 ∧ (sCreate 0).ev.tile = 0 := by decide

/-- The save area at 0x20000 has FORMAT 1 and everything else 0. -/
theorem witness_restore (h : Config.stackPresent 0 0 = true) : (sCreate 0x20000).toCreate 0 true = true ∧ (bindResume ((sCreate 0x20000).bind 0)).toNat = 0x20000 ∧
    (sCreate 0x20000).image (.tile 0) (bindAsid ((sCreate 0x20000).bind 0)) (bindImage ((sCreate 0x20000).bind 0)).toNat ((sCreate 0x20000).coreAt 0).overlay none =
      .ok { iImage with spad := [] } ∧
    (sCreate 0x20000).areaHeld 0 0x20000 = none ∧
    Memory.readLE (sCreate 0x20000).mem 0x20000 4 = 1 ∧ BitVec.ofNat 64 (Memory.readLE (sCreate 0x20000).mem 0x20008 8) = iImage.overlay.imageId ∧
    BitVec.ofNat 8 (Memory.readLE (sCreate 0x20000).mem 0x20092 1) = bindAsid ((sCreate 0x20000).bind 0) ∧ Memory.wf (sCreate 0x20000).mem = true := by
  have a : bindAsid ((sCreate 0x20000).bind 0) = 0 ∧ (bindImage ((sCreate 0x20000).bind 0)).toNat = 0x6000 ∧ ((sCreate 0x20000).coreAt 0).overlay = none := by decide
  have m : atHead (sCreate 0x20000) := ⟨rfl, rfl, rfl, rfl, rfl, by decide⟩
  refine ⟨by decide, by decide, ?_, ?_, by decide, by decide, by decide, by decide⟩
  · rw [a.1, a.2.1, a.2.2]
    exact image_here h _ m _ none (fun _ h => by cases h) none (.inr rfl)
  · exact List.find?_eq_none.mpr fun x _ => by rw [tabled_calm _ _ (atHead_tabled _ m)]; decide

/-- A member that has ended, one that runs, and a gang whose members are gone. -/
def sEnd : State := { rung s1 with core := { s1.core with ending := true }, binds := s1.binds.write 0 3 }
def sKill : State := { rung s1 with binds := s1.binds.write 0 2 }
def gGone : Gang := { gBar with queue := 63, left := [], gone := gBar.tiles }
def gTrig : Gang := { gBar with queue := 62, early := true, left := [0, 1], triggered := [16, 17] }

theorem witness_end : ((at_ sEnd).core.freeable = true ∧ bindState ((at_ sEnd).bind (at_ sEnd).coreTile) = 3 ∧ (at_ sEnd).isflush.contains (at_ sEnd).coreTile = false) ∧
    (bindState ((at_ sKill).bind (at_ sKill).coreTile) = 2 ∧ ringRoom (at_ sKill) (dieOf (at_ sKill).coreTile) ∧ (at_ sKill).killWaits (at_ sKill).coreTile = false ∧ Memory.wf (at_ sKill).mem = true ∧
      (at_ sKill).core.q0 ++ (at_ sKill).core.q1 = [] ∧ (at_ sKill).isflush.contains (at_ sKill).coreTile = false) ∧
    (let s : State := { s1 with gangs := [gGone] }
     s.gangs[s.ev.id]? = some gGone ∧ gGone.saved = [] ∧ (∀ x ∈ gGone.tiles, x ∈ gGone.gone) ∧ gGone.queue = 63) ∧
    (let s : State := { s1 with gangs := [{ gGone with queue := 62 }] }
     s.gangs[s.ev.id]? = some { gGone with queue := 62 } ∧ s.completionHeld 62 0 0 = false) ∧
    (let s : State := { s1 with gangs := [gTrig] }
     s.gangs[s.ev.id]? = some gTrig ∧ gTrig.over = false ∧ gTrig.allTriggered = true ∧ s.ctlHeld gTrig.queue = false) :=
  ⟨by decide, ⟨by decide, room_of _ _ (by decide) (by decide), by decide, by decide, by decide, by decide⟩, by decide, by decide, by decide⟩

def sSave (st : Nat) (v : SaveSt) (z : Option Frozen) : State :=
  let b : BitVec 512 := (bindOf st 0 0 ||| 0x20000 <<< 384 ||| 1 <<< 482) &&& ~~~(1#512 <<< 480)
  { rung s1 with core := { s1.core with save := v, frozen := z }, binds := s1.binds.write 0 b, gangs := [{ gBar with left := [] }] }

/-- No access of this state stalls at home. -/
theorem unstalled (s : State) (hm : s.meshUp = true) (hk : ∀ d, (s.kvts.read d).getLsbD 63 = false) (pa : Nat) : s.stalls pa = false := by
  have k := hk (homeDie pa)
  simp only [State.stalls, State.reconfiguring, State.unreached, hm, k, Bool.false_and, Bool.not_true, Bool.or_false]

theorem witness_save :
    (let s := sSave 2 .none (some ⟨.brk, 0, 2⟩)
     let f := at_ s
     f.core.save = .none ∧ f.core.frozen = some ⟨.brk, 0, 2⟩ ∧ f.core.bound = true ∧ bindPreempt (f.bind f.coreTile) = true ∧ bindResume (f.bind f.coreTile) ≠ 0 ∧
       bindState (f.bind f.coreTile) = 2 ∧ bindBallast (f.bind f.coreTile) = false ∧ f.recordWaits f.coreTile = false ∧ f.core.rollsBack = none ∧ f.core.drained = true) ∧
    (let f := at_ (sSave 4 .waiting none)
     f.core.save = .waiting ∧ f.core.midUnit = none ∧ f.settled = true ∧ f.quiesces = [] ∧ Memory.wf f.mem = true ∧ f.core.q0.length ≤ 32 ∧ f.core.q1.length ≤ 32 ∧
       f.core.fa.all.length ≤ 128 ∧ f.core.fb.all.length ≤ 128 ∧ f.core.inline = none) ∧ (∀ x, (at_ (sSave 4 .waiting none)).stalls x = false) ∧
    (let f := at_ (sSave 4 .writing none)
     f.core.save = .writing ∧ f.areaPending 0x20000 = false ∧ f.core.areaPoison = [] ∧ f.isflush.contains f.coreTile = false ∧ bindState (f.bind f.coreTile) = 4 ∧
       (f.gangOf f.coreTile).isSome = true) :=
  ⟨by decide, by decide, unstalled _ rfl (by decide), by decide⟩

/-! ## Digest regions, links and remote accesses -/

/-- Region 255 of address space 0: one block of 4 KiB at address 0, bounds of FP32, in a state. -/
def regionBits (st : Nat) : BitVec 128 := BitVec.ofNat 128 st <<< 114 ||| 1 <<< 108 ||| 1 <<< 64
def eDig : DigEntry := ⟨255, 0, 0, 0, 0x700000005⟩
def sRegion (st : Nat) (flag : Bool) (m : List Host.Cell) : State :=
  let s := rung (sReq rLoad m)
  { s with regions := s.regions.write 255 (regionBits st), digests := [eDig], ev := { EvArgs.zero with id := 255, flag := flag } }

theorem witness_region (h : Config.stackPresent 0 0 = true) :
    (let s := sRegion 0 false []
     (Region.ofBits (s.regions.read 255)).state = 0 ∧ s.regionHeld (Region.ofBits (s.regions.read 255)) = none ∧ s.regionOk (Region.ofBits (s.regions.read 255)) = true) ∧
    (let s := { sRegion 0 false [] with kvts := State.reset.kvts.write 0 0x8000000000000010 }
     (Region.ofBits (s.regions.read 255)).state = 0 ∧ s.regionHeld (Region.ofBits (s.regions.read 255)) = some 0) ∧
    (let s := sRegion 2 true []
     s.ev.flag = true ∧ (Region.ofBits (s.regions.read 255)).state ≠ 0 ∧ s.ev.count < (Region.ofBits (s.regions.read 255)).nblk ∧ s.digEntry 255 0 = some eDig) ∧
    (let s := sRegion 1 false mTable
     let r := Region.ofBits (s.regions.read 255)
     s.ev.flag = false ∧ r.state ≠ 0 ∧ s.ev.count < r.nblk ∧ s.walkPa s.outsideKey (BitVec.ofNat 8 r.asid) (r.base + s.ev.count * r.block) = .ok 0 0xE000000000000000 ∧
       leafCMP 0xE000000000000000 = false ∧ leafONCE 0xE000000000000000 = false ∧ (∀ pa, s.homeHeld s.outsideKey pa = false) ∧
       s.poisoned 0 r.block = false ∧ ({ s with poison := [4032] } : State).poisoned 0 r.block = true) := by
  have t : tabled (sRegion 1 false mTable) 0xE000000000000000 = true := by decide
  exact ⟨by decide, by decide, by decide, by decide, by decide, by decide, walk_writable h _ _ _ (by decide) t, by decide, by decide, tabled_calm _ _ t _, by decide, by decide⟩

/-- In package 0 that entry's home is here, and one whose home is die 4 is not. -/
theorem witness_entry_error (h : Config.pkgId = 0) : (sRegion 2 false []).digEntry 255 (sRegion 2 false []).ev.count = some eDig ∧
    ringRoom (sRegion 2 false []) (eDig.home.setWidth 2) ∧ eDig.home.toNat / 4 = Config.pkgId.toNat ∧ Memory.wf (sRegion 2 false []).mem = true ∧
    (let s : State := { sRegion 2 false [] with digests := [{ eDig with home := 4 }] }
     s.digEntry 255 s.ev.count = some { eDig with home := 4 } ∧ ({ eDig with home := 4 } : DigEntry).home.toNat / 4 ≠ Config.pkgId.toNat) := by
  rw [h]
  exact ⟨by decide, room_of _ _ (by decide) (by decide), by decide, by decide, by decide, by decide⟩

/-- A command of one unit of 64 bytes at the top of the scratchpad waits on port 0, channel 255. -/
def kLink (i : Instr) : Cmd := { kRun with i := i, link := 0x100000000 ||| 0xFF <<< 48 ||| 0x1FFFC0 }
def wLink (send : Bool) : LinkWait := ⟨0, 0, kRun.id, 0, 255, send⟩
def sLink (i : Instr) (send : Bool) : State :=
  let s := sEng (kLink i)
  { s with linkWaits := [wLink send], ev := { EvArgs.zero with count := 255, flag := send, id := 1, data := if send then [] else List.replicate 64 3 } }

theorem witness_link_pair : (∀ p ∈ [(Instr.lsend .always 1 2 0, true), (.lrecv .always 1 2 0, false), (.lrxadd .always 1 2 0 3, false)], let s := sLink p.1 p.2
      (s.linkWaits.find? fun w => w.port = s.ev.port && w.chan.toNat = s.ev.count && w.send = s.ev.flag) = some (wLink p.2) ∧ s.linkCmd (wLink p.2) = some (kLink p.1) ∧
      (s.coreAt 0).enginesRun = true ∧ (s.ports.read 0).state = 2 ∧ Memory.wf (s.coreAt 0).spad = true ∧ (s.coreAt 0).spadPoisoned (linkAddr (kLink p.1).link) 64 = false ∧
      linkLen (kLink p.1).link = 1 ∧ linkAddr (kLink p.1).link + 64 = 0x200000 ∧ (p.2 = false → s.ev.data.length = 64)) := by decide

/-- Four 16-bit elements have still to be added at the top of the scratchpad. -/
def kAdd : Cmd := { kLink (.lrxadd .always 1 2 0 1) with progress := 57, buf := List.replicate 8 3 }

theorem witness_link_add : (here (sEng kAdd)).enginesRun = true ∧ (here (sEng kAdd)).headCmd 0 = some kAdd ∧ kAdd.done = false ∧ kAdd.started = true ∧ kAdd.pend = [] ∧ kAdd.buf ≠ [] ∧
    linkAddr kAdd.link + (kAdd.progress - 1) + 4 * linkElem 1 = 0x200000 ∧ (at_ (sEng kAdd)).storeOnWay kAdd (at_ (sEng kAdd)).coreTile = false ∧
    (here (sEng kAdd)).spadPoison = [] := by decide

theorem witness_link_port : (sLink (.lsend .always 1 2 0) true).linkWaits = [wLink true] ∧ (wLink true).port = 0 ∧
    (sLink (.lsend .always 1 2 0) true).linkCmd (wLink true) = some (kLink (.lsend .always 1 2 0)) ∧ (11 : BitVec 4).toNat < 12 ∧ 12 ≤ (12 : BitVec 4).toNat ∧
    (Config.lanes 11 ≠ 0 ∨ Config.lanes 11 = 0) := ⟨by decide, by decide, by decide, by decide, by decide, (Decidable.em _).symm⟩

/-- R237: the local end of a pair ends in error when its port goes down. -/
theorem test_link_port_down : (match exec .linkPortDown { sLink (.lsend .always 1 2 0) true with ev := EvArgs.zero } with
    | .next t => (t.linkWaits.length, t.core.q0.map (fun k => (k.done, k.err)), (t.ports.read 0).state) | _ => (9, [], 9)) = (0, [(true, true)], 0) := by decide

def sPort (n : Nat) : State := { rung s1 with ports := s1.ports.write 11 ⟨2, 8, 0xFFFF, List.replicate n 0⟩, ev := { EvArgs.zero with port := 11 } }

theorem witness_retransmit : ((sPort 1025).ports.read 11).state = 2 ∧ 1024 < ((sPort 1025).ports.read 11).recent.length ∧ (sPort 1025).ev.port.toNat < 12 ∧
    ringRoom (sPort 1025) (BitVec.ofNat 2 (11 / 3)) ∧ Memory.wf (sPort 1025).mem = true ∧ ((sPort 1024).ports.read 11).recent.length ≤ 1024 ∧
    (match exec .flitRetransmit (sPort 3) with | .next t => ((t.ports.read 11).retry, (t.ports.read 11).recent.length) | _ => (0, 0)) = (0xFFFF, 4) :=
  ⟨by decide, by decide, by decide, room_of _ _ (by decide) (by decide), by decide, by decide, by decide⟩

/-- A region of 64 bytes at 0x800 is registered for address space 0, and queue pair 0 of port 0 is open. -/
def sRdma (m : List Host.Cell) (n : Nat) : State :=
  { sReq rLoad m with rdma := [(0, 0x800, 64)], qps := [(0, 0)], ev := { EvArgs.zero with addr := 0x838, count := n, data := List.replicate n 7, value := 1 } }

theorem witness_rdma (h : Config.stackPresent 0 0 = true) : Remote (sRdma mTable 8) 8 .store 0x838 ∧ Remote (sRdma mTable 8) 8 .load 0x838 ∧ Remote (sRdma mTable 8) 8 .atom 0x838 ∧
    (sRdma mTable 8).qpOpen = true ∧ ({ sRdma mTable 8 with ev := { EvArgs.zero with id := 4095 } } : State).qpOpen = false ∧
    (sRdma mTable 8).poisoned 0x838 8 = false ∧ ({ sRdma mTable 8 with poison := [0x800] } : State).poisoned 0x838 8 = true ∧
    (sRdma mTable 8).ev.addr.toNat % 8 = 0 ∧ (sRdma mTable 8).ev.data.length = 8 ∧ (sRdma mTable 8).ev.count = 8 ∧
    (∀ m ∈ (sRdma [] 9).rdma, ¬(m.1 = (sRdma [] 9).ev.gang.setWidth 8 ∧ m.2.1.toNat ≤ 0x838 ∧ 0x838 + (sRdma [] 9).ev.count ≤ m.2.1.toNat + m.2.2)) := by
  have w := walk_writable h (sRdma mTable 8) (.outside 0) 0x838 (by decide) (by decide)
  have r : ∀ acc, attrTrap 0xE000000000000000 acc = none → Remote (sRdma mTable 8) 8 acc 0x838 := fun acc ha =>
    ⟨by decide, ⟨(0, 0x800, 64), by decide⟩, ⟨_, w, ha⟩, by decide, by decide, by decide⟩
  exact ⟨r _ (by decide), r _ (by decide), r _ (by decide), by decide, by decide, by decide, by decide, by decide, by decide, by decide, by decide⟩

/-- R417: a read that runs past its region is refused; over a queue pair that is not open nothing happens. -/
theorem test_rdma : (match exec .rdmaRead (sRdma [] 9) with | .next t => t.out | _ => []) = [.rdma false []] ∧
    (match exec .rdmaRead { sRdma [] 9 with qps := [(0, 1)] } with | .next t => t.out | _ => [.rdma true []]) = [] := by decide

/-! ## The neighbour watch -/

/-- Tile 0 with a record of its neighbour in direction 0, tile 1, at a reference-clock time, with flits in flight. -/
def sVote (x : Vote) (clk : Nat) (f : List Flit) : State :=
  { rung s1 with trellis := [(0, { Trellis.fresh with votes := Trellis.fresh.votes.write 0 x })], refClk := clk, flits := f, ev := { EvArgs.zero with flag := true } }

theorem rings_room (s : State) (d : BitVec 2) (h : s.rings = (rung s1).rings) (h2 : s.recWait = []) : ringRoom s d := by
  refine room_of s d ?_ h2
  simp only [State.ringFull, h]
  revert d
  decide

theorem vote_of (s : State) (y : Trellis) (x : Vote) (h : s.trellis = [(0, { y with votes := y.votes.write 0 x })]) : s.vote 0 0 = x := by
  simp [State.vote, State.trellisAt, h, Bank.read_write]

theorem watch_of (s : State) (x : Vote) (h : s.trellis = [(0, { Trellis.fresh with votes := Trellis.fresh.votes.write 0 x })]) (hr : s.rings = (rung s1).rings)
    (h2 : s.recWait = []) (h3 : Memory.wf s.mem = true) : WatchOk s 0 0 :=
  ⟨by simp [State.trellisAt, h, Trellis.noticed, Trellis.fresh], rings_room s _ hr h2, h3⟩

theorem watch_ok (x : Vote) (clk : Nat) (f : List Flit) : WatchOk (sVote x clk f) 0 0 := watch_of _ x rfl rfl rfl (by decide : Memory.wf (rung s1).mem = true)

theorem witness_heartbeat_send : ((sVote .fresh 2000 []).mapAt 0 0).fenced = false ∧ (sVote .fresh 1999 []).refClk < 2000 * (((sVote .fresh 1999 []).trellisAt 0).beatSent + 1) ∧
    2000 * (((sVote .fresh 2000 []).trellisAt 0).beatSent + 1) ≤ (sVote .fresh 2000 []).refClk ∧ ((sVote .fresh 2000 []).map.read 0).fused = false ∧
    ((sVote .fresh 2000 []).map.read 0).fenced = false ∧ ((sVote .fresh 2000 []).map.read (neighbour 0 3)).fused = false := by decide

theorem field_toNat {w : Nat} (x : BitVec w) (lo n : Nat) : field x lo n = x.toNat / 2 ^ lo % 2 ^ n := by rfl

/-- Some heartbeat of every tile is valid on a fresh link. -/
theorem some_heartbeat (t : BitVec 7) : ∃ p : BitVec 64, Vote.fresh.beatOk t p = true := by
  have ht : podTile t < 8192 := by have := t.isLt; have := Config.pkgId.isLt; simp only [podTile]; omega
  let u : BitVec 48 := BitVec.ofNat 48 (podTile t * 524288)
  have hu : u.toNat = podTile t * 524288 := by simp only [u, BitVec.toNat_ofNat]; exact Nat.mod_eq_of_lt (by omega)
  refine ⟨u ++ Config.heartbeatCheck u, ?_⟩
  have hc := (Config.heartbeatCheck u).isLt
  have hp : (u ++ Config.heartbeatCheck u).toNat = u.toNat * 65536 + (Config.heartbeatCheck u).toNat := by
    rw [BitVec.toNat_append, Nat.shiftLeft_eq, Nat.mul_comm, ← Nat.two_pow_add_eq_or_of_lt hc, Nat.mul_comm]
  have e1 : (u ++ Config.heartbeatCheck u).extractLsb' 16 48 = u := by
    apply BitVec.eq_of_toNat_eq
    rw [BitVec.extractLsb'_toNat, Nat.shiftRight_eq_div_pow, hp]
    have := u.isLt
    omega
  have e2 : (u ++ Config.heartbeatCheck u).extractLsb' 0 16 = Config.heartbeatCheck u := by
    apply BitVec.eq_of_toNat_eq
    rw [BitVec.extractLsb'_toNat, Nat.shiftRight_eq_div_pow, hp]
    omega
  have e3 : ((u ++ Config.heartbeatCheck u).extractLsb' 35 13).toNat = podTile t := by
    rw [BitVec.extractLsb'_toNat, Nat.shiftRight_eq_div_pow, hp, hu]
    omega
  have e4 : field (u ++ Config.heartbeatCheck u) 24 8 = 0 := by
    rw [field_toNat, hp, hu]
    omega
  simp only [Vote.beatOk, e1, e2, e3, e4, Vote.fresh, decide_true, Bool.and_self]

/-- The violations of a link: `n` of them at the edge of TVIOL before time 10,000. -/
def vBad (n : Nat) : Vote := { Vote.fresh with beats := 1, viol := List.replicate n 0 }

def sBeat (p : BitVec 64) : State := { sVote .fresh 0 [] with ev := { EvArgs.zero with flag := true, value := p.setWidth 512 } }

theorem witness_heartbeat_receive : (∀ p, Vote.fresh.beatOk 1 p = true → let s := sBeat p
      s.ev.flag = true ∧ (s.vote 0 0).linkFenced = false ∧ WatchOk s 0 0 ∧ s.ev.count = 0 ∧ (s.vote 0 0).beats = 0 ∧ (s.vote 0 0).beatOk (neighbour 0 0) (s.ev.value.setWidth 64) = true) ∧
    (∀ n ∈ [3, 4], let s := sVote (vBad n) 10000 []
      s.ev.flag = true ∧ (s.vote 0 0).linkFenced = false ∧ (s.map.read 0).fused = false ∧ (s.map.read (neighbour 0 0)).fused = false ∧ (s.vote 0 0).beats ≠ 0 ∧ ((s.vote 0 0).viol.filter fun a => s.refClk ≤ a + 10000).length = n ∧ (s.vote 0 0).state = 0 ∧
      (s.vote 0 0).kind ≠ 2) ∧
    (let s := sVote { vBad 4 with state := 1, kind := 1 } 10000 []
     ((s.vote 0 0).viol.filter fun a => s.refClk ≤ a + 10000).length = 4 ∧ (s.vote 0 0).state = 1 ∧ (s.vote 0 0).kind ≠ 2 ∧ (s.vote 0 0).beats ≠ 0) ∧
    (∀ x, WatchOk (sVote x 10000 []) 0 0) := by
  refine ⟨fun p hp => ?_, by decide, by decide, fun n => watch_ok _ _ _⟩
  have v : (sBeat p).vote 0 0 = .fresh := vote_of _ .fresh _ rfl
  have e : (sBeat p).ev.value.setWidth 64 = p := by
    apply BitVec.eq_of_toNat_eq
    have := p.isLt
    show ((p.setWidth 512).setWidth 64).toNat = p.toNat
    simp only [BitVec.toNat_setWidth]
    omega
  have n : neighbour 0 0 = 1 := by decide
  simp only [v, e, n]
  exact ⟨rfl, rfl, watch_of _ .fresh rfl rfl rfl (by decide : Memory.wf (rung s1).mem = true), rfl, rfl, hp⟩

theorem witness_period_end : (sVote .fresh 1999 []).refClk < 2000 * (((sVote .fresh 1999 []).trellisAt 0).periodsEnded.read 0 + 1) ∧
    (∀ x ∈ [Vote.fresh, { Vote.fresh with miss := 2 }], let s := sVote x 2000 []
      2000 * ((s.trellisAt 0).periodsEnded.read 0 + 1) ≤ s.refClk ∧ (s.map.read 0).fused = false ∧ (s.map.read 1).fused = false ∧ (s.vote 0 0).linkFenced = false) ∧
    (∀ x, WatchOk (sVote x 2000 []) 0 0) ∧
    (∀ x ∈ [{ Vote.fresh with linkFenced := true, good := 15, beatsValid := 1 }, { Vote.fresh with linkFenced := true, good := 15, beatsValid := 2 }], let s := sVote x 2000 []
      2000 * ((s.trellisAt 0).periodsEnded.read 0 + 1) ≤ s.refClk ∧ (s.vote 0 0).linkFenced = true ∧ (s.vote 0 0).good = 15) := by
  exact ⟨by decide, by decide, fun x => watch_ok _ _ _, by decide⟩

theorem witness_babble_clear : (sVote { vBad 5 with state := 1, kind := 2, miss := 3 } 10000 []).vote 0 0 = { vBad 5 with state := 1, kind := 2, miss := 3 } ∧
    Vote.fresh.beatsValid = 0 ∧ (∀ m ∈ [(2 : BitVec 2), 3], let s := sVote { vBad 5 with state := 1, kind := 2, miss := m } 10000 []
    (s.vote 0 0).state = 1 ∧ (s.vote 0 0).kind = 2 ∧ (s.trellisAt 0).noticed (neighbour 0 0) = false ∧ ∀ a ∈ (s.vote 0 0).viol, a + 10000 ≤ s.refClk) := by decide

def flit (kind : BitVec 3) : Flit := ⟨0, 1, kind, 0, 1, 17, 0⟩

theorem heard_of (s : State) (v : BitVec 7) (f : Flit) (h : (s.votes v v && s.hears v (ringNext f.subject v (f.dir = 0))) = true) : heard s v f := Bool.and_eq_true_iff.mp h

theorem witness_accusations : (∀ k ∈ [(1 : BitVec 3), 2], (sVote .fresh 0 [flit k]).flits[0]? = some (flit k) ∧ (flit k).dest = 0 ∧ heard (sVote .fresh 0 [flit k]) 0 (flit k) ∧ (flit k).kind = k) ∧
    neighbour 0 0 = (flit 1).subject ∧
    (let s := sVote { Vote.fresh with accusing := true } 2000 []
     (s.vote 0 0).accusing = true ∧ s.votes 0 0 = true ∧ (s.vote 0 0).renewed + 2000 ≤ s.refClk) := by
  have d : ∀ k ∈ [(1 : BitVec 3), 2], let s := sVote .fresh 0 [flit k]
      s.flits[0]? = some (flit k) ∧ (flit k).dest = 0 ∧ (s.votes 0 0 && s.hears 0 (ringNext (flit k).subject 0 ((flit k).dir = 0))) = true ∧ (flit k).kind = k := by decide
  exact ⟨fun k hk => ⟨(d k hk).1, (d k hk).2.1, heard_of _ _ _ (d k hk).2.2.1, (d k hk).2.2.2⟩, by decide, by decide⟩

/-- R395: an accusation older than TACC is dropped, one of exactly that age is not. -/
theorem test_accusation_expiry : (match exec .accusationExpiry { sVote .fresh 20001 [] with trellis := [(0, { Trellis.fresh with accs := [⟨1, 2, 0⟩, ⟨1, 17, 1⟩] })] } with
    | .next t => (t.trellisAt 0).accs | _ => []) = [⟨1, 17, 1⟩] := by decide

/-- Tile 0 accuses tile 1 and holds the accusations of two of its other neighbours. -/
def sQuorum : State := { sVote .fresh 0 [] with trellis := [(0, { Trellis.fresh with votes := Trellis.fresh.votes.write 0 { Vote.fresh with accusing := true, state := 1, kind := 1 }, accs := [⟨1, 2, 0⟩, ⟨1, 17, 0⟩] })] }
def fusedOff (l : List (BitVec 7)) (iso : Bool) : Bank 7 MapEntry :=
  (l.foldl (fun b t => b.write t ⟨true, false, false, []⟩) State.reset.map).write 1 ⟨l.contains 1, false, iso, []⟩

/-- Tile 1 is fenced, and three of its voters have sent tile 0 their admission. -/
def sReadmit : State := { sVote .fresh 0 [] with
  map := State.reset.map.write 1 ⟨false, true, false, [0]⟩
  trellis := [(0, { Trellis.fresh with votes := Trellis.fresh.votes.write 0 { Vote.fresh with linkFenced := true }, admits := [⟨1, 2, 0⟩, ⟨1, 113, 0⟩, ⟨1, 17, 0⟩] })] }

theorem witness_quorum :
    (let s := sQuorum
     s.votes 0 0 = true ∧ s.votes 0 1 = true ∧ (s.trellisAt 0).noticed 1 = false ∧ s.voters 0 1 = 4 ∧
       ((s.trellisAt 0).accs.filter fun h => h.subject = 1 && h.by_ ≠ 0 && s.votes 0 h.by_ && s.refClk ≤ h.time + 20000).length + (if (s.vote 0 0).accusing then 1 else 0) = 3 ∧
       bindState (s.bind 1) = 0) ∧ WatchOk sQuorum 0 0 ∧
    (let s := { sVote .fresh 0 [] with map := fusedOff [1, 15, 16, 112] false }
     s.votes 0 0 = true ∧ s.voters 0 0 = 0 ∧ ringRoom s (dieOf 0) ∧ Memory.wf s.mem = true ∧ bindState (s.bind 0) = 0) ∧
    (let s := { sQuorum with map := fusedOff [2, 17, 113] false }
     s.votes 0 0 = true ∧ s.votes 0 1 = true ∧ s.voters 0 1 = 1 ∧ (s.vote 0 0).state = 1 ∧ (s.mapAt 0 1).isolated = false ∧ WatchOk s 0 0) ∧
    (let s := { sVote .fresh 0 [] with map := fusedOff [2, 17, 113] true }
     s.votes 0 0 = true ∧ s.votes 0 1 = true ∧ s.voters 0 1 = 1 ∧ (s.vote 0 0).state ≠ 1 ∧ (s.mapAt 0 1).isolated = true) ∧
    (let s := sReadmit
     s.votes 0 0 = true ∧ s.votes 0 1 = false ∧ s.voters 0 0 ≠ 0 ∧ (s.vote 0 0).linkFenced = true ∧ max 2 (s.voters 0 1 / 2 + 1) = 3 ∧
       ((s.trellisAt 0).admits.filter fun h => h.subject = 1 && s.votes 0 h.by_).length = 3) :=
  ⟨by decide, ⟨by decide, room_of _ _ (by decide) (by decide), by decide⟩, ⟨by decide, by decide, room_of _ _ (by decide) (by decide), by decide, by decide⟩,
   ⟨by decide, by decide, by decide, by decide, by decide, ⟨by decide, room_of _ _ (by decide) (by decide), by decide⟩⟩, by decide, by decide⟩

/-- A notice about tile 1 that has reached no tile; tile `v` reads it next. -/
def sNotice (v : BitVec 7) (k : BitVec 3) (m : MapEntry) : State :=
  { sVote .fresh 0 [] with mring := [⟨k, 1, 0, 0⟩], map := State.reset.map.write 1 m, ev := { EvArgs.zero with tile := v } }
/-- The same with tile 1 fenced in its bind record. -/
def sBack : State := { sNotice 1 2 ⟨false, true, false, []⟩ with binds := (rung s1).binds.write 1 5 }

theorem witness_fence_events : ((sVote .fresh 0 [flit 3]).flits[0]? = some (flit 3) ∧ (flit 3).dest = 0 ∧ heard (sVote .fresh 0 [flit 3]) 0 (flit 3) ∧ neighbour 0 0 = (flit 3).subject ∧
      ((sVote .fresh 0 [flit 3]).trellisAt 0).noticed (flit 3).subject = false) ∧ (sVote .fresh 0 []).unseen 0 = none ∧
    (∀ p ∈ [(0, 0), (0, 1), (1, 0), (0, 2), (1, 2), (0, 3), (0, 4), (1, 5)], let s := sNotice p.1 p.2 ⟨false, false, false, [0]⟩
      s.unseen p.1 = some 0 ∧ s.mring[0]? = some ⟨p.2, 1, 0, 0⟩ ∧ s.mring.drop 1 = [] ∧ (s.mapAt p.1 1).fenced = false ∧ bindState (s.bind 1) ≠ 5) ∧
    (sBack.unseen 1 = some 0 ∧ bindState (sBack.bind 1) = 5 ∧ ringRoom sBack (dieOf 1) ∧ Memory.wf sBack.mem = true) :=
  ⟨⟨by decide, by decide, heard_of _ _ _ (by decide), by decide, by decide⟩, by decide, by decide, by decide, by decide, room_of _ _ (by decide) (by decide), by decide⟩

/-- R397, R403: a fence notice fences the tile and charges it a strike. -/
theorem test_fence : (match exec .watchMapUpdate (sNotice 0 0 ⟨false, false, false, []⟩) with
    | .next t => ((t.mapAt 0 1).fenced, (t.mapAt 0 1).strikes, bindState (t.bind 1)) | _ => (false, [], 9)) = (true, [0], 5) := by decide

/-- Tile 0 is fenced with `n` strikes, and its self-test or its probation has run its time. -/
def sAppeal (n clk : Nat) (test prob : Option Nat) (flag : Bool) : State :=
  { sVote .fresh clk [] with
    trellis := [(0, { Trellis.fresh with selfTest := test, probation := prob })]
    map := State.reset.map.write 0 ⟨false, true, false, List.replicate n 0⟩, ev := { EvArgs.zero with flag := flag } }

theorem witness_appeal : (∀ p ∈ [(1, true), (2, true), (0, false)], let s := sAppeal p.1 800000 (some 0) none p.2
      (s.mapAt 0 0).fenced = true ∧ (s.trellisAt 0).barred = false ∧ (s.trellisAt 0).selfTest = some 0 ∧ 0 + 800000 ≤ s.refClk ∧ s.ev.flag = p.2 ∧ (s.mapAt 0 0).strikes.length = p.1 ∧
      Memory.wf s.mem = true) ∧ (∀ n b, ringRoom (sAppeal n 800000 (some 0) none b) (dieOf 0)) ∧ ((sVote .fresh 0 []).mapAt 0 0).fenced = false ∧
    (let s := sAppeal 1 8640000000000 none none false
     (∃ a ∈ (s.map.read 0).strikes, a + 8640000000000 ≤ s.refClk) ∧ s.mring = []) ∧
    (let s := sAppeal 1 200000 none (some 0) false
     (s.mapAt 0 0).fenced = true ∧ (s.trellisAt 0).probation = some 0 ∧ 0 + 200000 ≤ s.refClk ∧ ringRoom s (dieOf 0) ∧ Memory.wf s.mem = true) :=
  ⟨by decide, fun n b => rings_room _ _ rfl rfl, by decide, ⟨⟨0, by decide, by decide⟩, by decide⟩, by decide, by decide, by decide, room_of _ _ (by decide) (by decide), by decide⟩

/-- The link to tile 1 is fenced, and two of its other voters have admitted it, or none has. -/
def sAdmit (l : List Held) (k : BitVec 3) : State :=
  { sVote .fresh 0 [flit k] with trellis := [(0, { Trellis.fresh with votes := Trellis.fresh.votes.write 0 { Vote.fresh with linkFenced := true }, admits := l })] }

theorem witness_admission : (∀ l ∈ [[], [⟨1, 2, 0⟩, ⟨1, 113, 0⟩]], ∀ k ∈ [(4 : BitVec 3), 5], let s := sAdmit l k
      s.flits[0]? = some (flit k) ∧ (flit k).dest = 0 ∧ heard s 0 (flit k) ∧ neighbour 0 0 = (flit k).subject ∧ (s.vote 0 0).linkFenced = true ∧ (flit k).kind = k) ∧
    max 2 ((sAdmit [] 4).voters 0 1 / 2 + 1) = 3 ∧
    (let s := sAdmit [⟨1, 2, 0⟩, ⟨1, 113, 0⟩] 4
     ((s.trellisAt 0).admits.filter fun h => h.subject = 1 && h.by_ ≠ 17 && s.votes 0 h.by_).length + (if s.votes 0 17 then 1 else 0) = 3) := by
  have d : ∀ l ∈ [[], [⟨1, 2, 0⟩, ⟨1, 113, 0⟩]], ∀ k ∈ [(4 : BitVec 3), 5], let s := sAdmit l k
      s.flits[0]? = some (flit k) ∧ (flit k).dest = 0 ∧ (s.votes 0 0 && s.hears 0 (ringNext (flit k).subject 0 ((flit k).dir = 0))) = true ∧ neighbour 0 0 = (flit k).subject ∧
      (s.vote 0 0).linkFenced = true ∧ (flit k).kind = k := by decide
  exact ⟨fun l hl k hk => ⟨(d l hl k hk).1, (d l hl k hk).2.1, heard_of _ _ _ (d l hl k hk).2.2.1, (d l hl k hk).2.2.2⟩, by decide, by decide⟩

/-! ## Repair, temperature, boot and reports -/

/-- A row with `n` corrected errors within the day, and a channel under repair that holds a write. -/
def sRow (n : Nat) : State := { sReq rLoad [] with rows := [⟨0x100, List.replicate n 0⟩], ev := { EvArgs.zero with addr := 0x100 } }
def qRow (l : List HeldAcc) : Quiesce := ⟨0, 1, 20000, 0x100, l⟩
def sQui (clk : Nat) (l : List HeldAcc) : State := { sReq rLoad [] with quiesces := [qRow l], refClk := clk, ev := EvArgs.zero }

theorem witness_repair : (∀ n ∈ [6, 7], ((match (sRow n).rows.find? fun (r : RowCount) => decide (r.row = 0x100) with | some r => r.times | none => []).filter
      fun a => (sRow n).refClk < a + 8640000000000).length = n) ∧ (sRow 7).spareTaken 0x100 = false ∧ (Config.pkgId = 0 → (0x100 : BitVec 45).toNat / 2 ^ 39 = Config.pkgId.toNat ∧ (2 ^ 39 : BitVec 45).toNat / 2 ^ 39 ≠ Config.pkgId.toNat) ∧ (sRow 7).quiesces = [] ∧
    ({ sRow 7 with softDone := [0x100] } : State).softDone = [0x100] ∧
    ((sQui 19999 []).quiesces[0]? = some (qRow []) ∧ (sQui 19999 []).refClk < (qRow []).until_) ∧
    ((qRow []).until_ ≤ (sQui 20000 []).refClk ∧ (sQui 20000 []).repairQ = [] ∧ Memory.wf (sQui 20000 []).mem = true) ∧
    (∀ k ∈ [HeldAcc.write none 0x100 [7], .write (some 4) 0x100 [7], .unpin 0x100, .req 0 5 0], (sQui 20000 [k]).quiesces[0]? = some (qRow [k]) ∧ (sQui 20000 [k]).stalls 0x100 = false) ∧
    (sQui 20000 [.req 0 5 0]).keyLive (.req 0 5 0) = true ∧ (sQui 20000 [.req 0 6 0]).keyLive (.req 0 6 0) = false :=
  ⟨by decide, by decide, fun h => by rw [h]; decide, by decide, by decide, by decide, by decide, by decide, by decide, by decide⟩

/-- In every configuration a second row of one bank finds no spare. -/
theorem witness_spare_taken : ({ sRow 7 with softDone := [0x100] } : State).spareTaken 0x100 = true := by
  simp [State.spareTaken]

/-- R405: the eighth error begins the repair of its row; after the quiesce a held write performs, and then the quiesce ends. -/
theorem test_repair : (Config.pkgId = 0 → (match exec .correctedError (sRow 7) with | .next t => (t.quiesces.map fun q => (q.channel, q.until_, q.row)) | _ => []) = [(1, 20000, 0x100)]) ∧
    (match exec .quiesceEnd (sQui 20000 [.write none 0x100 [7]]) with | .next t => (t.mem, t.quiesces.map (·.held)) | _ => ([], [])) = ([(0x100, 7)], [[]]) ∧
    (match exec .quiesceEnd (sQui 20000 []) with | .next t => (t.quiesces.length, t.repairs) | _ => (9, [])) = (0, [0x100]) := by
  refine ⟨fun h => ?_, by decide, by decide⟩
  simp only [exec, execCorrectedError, State.startRepair, h]
  decide

theorem witness_uncorrectable : (Config.pkgId = 0 → (0 : Nat) / 2 ^ 39 = Config.pkgId.toNat ∧ (2 ^ 39) / 2 ^ 39 ≠ Config.pkgId.toNat) ∧ ringRoom (rung s1) (homeDie 0) ∧ Memory.wf (rung s1).mem = true ∧ (rung s1).quiesces = [] ∧ (rung s1).ev.count = 0 ∧
    (match exec .uncorrectableError { rung s1 with ev := { EvArgs.zero with count := 1, addr := 0x1FFFFF } } with | .next t => t.core.spadPoisoned 0x1FFFC0 1 | _ => false) = true ∧
    (match exec .uncorrectableError { rung s1 with ev := { EvArgs.zero with count := 2, id := 63 } } with | .next t => t.core.linePoison | _ => []) = [.reg 0 (.s 63)] :=
  ⟨fun h => by rw [h]; decide, room_of _ _ (by decide) (by decide), by decide, by decide, by decide, by decide, by decide⟩

/-- R380: an error of a duplicate set marks that context's alone. -/
theorem test_bad_duplicate : (match exec .uncorrectableError { rung s1 with ev := { EvArgs.zero with count := 3, ctx := 1 } } with
    | .next t => (t.core.dupBad 0, t.core.dupBad 1, t.core.dupBad 2) | _ => (true, false, true)) = (false, true, false) := by decide

theorem witness_conversion : ({ s1 with refClk := 999 } : State).refClk / 1000 ≤ s1.convDone.read 0 ∧ s1.convDone.read 0 < ({ s1 with refClk := 1000 } : State).refClk / 1000 ∧
    s1.tripped = false := by decide

/-- Die 0 reads a temperature on each junction, at a clock, after 10 us. -/
def sHot (t : BitVec 12) (m : Nat) (on : Bool) : State :=
  { s1 with ths := s1.ths.write 0 (List.replicate 9 (t.setWidth 32)), mhz := s1.mhz.write 0 m, throttled := s1.throttled.write 0 on, refClk := 1000 }

theorem each_of {α : Type} (l : List α) (P : α → Prop) [DecidablePred P] (h : l.all (fun w => decide (P w)) = true) : ∀ w ∈ l, P w := by simpa using h

theorem witness_throttle : ({ s1 with refClk := 999 } : State).refClk / 1000 ≤ s1.stepDone.read 0 ∧
    (let s := sHot 824 700 true
     s.stepDone.read 0 < s.refClk / 1000 ∧ s.throttled.read 0 = true ∧ ∃ w ∈ (s.ths.read 0).take 8, 103 * 8 ≤ (w.extractLsb' 0 12).toInt) ∧
    (let s := sHot 823 700 true
     s.throttled.read 0 = true ∧ (∀ w ∈ (s.ths.read 0).take 8, (w.extractLsb' 0 12).toInt < 103 * 8) ∧ ∃ w ∈ s.ths.read 0, 100 * 8 ≤ (w.extractLsb' 0 12).toInt) ∧
    (let s := sHot 799 1250 false
     s.throttled.read 0 = false ∧ ∀ w ∈ s.ths.read 0, (w.extractLsb' 0 12).toInt < 100 * 8) ∧
    (let s := sHot 800 1250 false
     s.throttled.read 0 = false ∧ ∃ w ∈ s.ths.read 0, 100 * 8 ≤ (w.extractLsb' 0 12).toInt) :=
  ⟨by decide, ⟨by decide, by decide, 824, by decide, by decide⟩, ⟨by decide, each_of _ _ (by decide), 823, by decide, by decide⟩, ⟨by decide, each_of _ _ (by decide)⟩, by decide, 800, by decide, by decide⟩

/-- R409: the clock stops at 650 MHz below and at 1,300 above. -/
theorem test_throttle : (match exec .throttleStep (sHot 824 700 true) with | .next t => (t.mhz.read 0, t.throttled.read 0) | _ => (0, false)) = (650, true) ∧
    (match exec .throttleStep (sHot 799 1250 false) with | .next t => t.mhz.read 0 | _ => 0) = 1300 := by decide

/-- Queue 63 is open and its head's ARG names the page at 0x900. -/
def mPage : List Host.Cell :=
  [(2, 1), (7, 0x80), (0xFC1, 0x40), (0xFC8, 2), (0xFCC, 0x80), (0x4011, 9), (0x10001, 0x10), (0x10002, 1), (0x10007, 0x80), (0x11007, 0xE0)]
def sPage (m : List Host.Cell) (clk : Nat) : State := { sReq rLoad m with refClk := clk, ev := EvArgs.zero }

theorem none_of (r : PaRes) (h : (match r with | .none => true | _ => false) = true) : r = .none := by cases r <;> simp_all

theorem held_of (r : PaRes) (a : Nat) (h : (match r with | .held pa => decide (pa = a) | _ => false) = true) : r = .held a := by cases r <;> simp_all

theorem witness_power_page (h : Config.stackPresent 0 0 = true) : (sPage mPage 9999).refClk / 10000 ≤ (sPage mPage 9999).pageDone ∧
    (sPage mPage 10000).pageDone < (sPage mPage 10000).refClk / 10000 ∧ (sPage [] 10000).powerPage = .none ∧
    ({ sPage mPage 10000 with kvts := State.reset.kvts.write 0 0x8000000000000010 } : State).powerPage = .held 0xFC0 ∧
    (sPage mPage 10000).powerPage = .ok 0x900 0xE000000000000000 ∧ Memory.wf (sPage mPage 10000).mem = true := by
  refine ⟨by decide, by decide, none_of _ (by decide), held_of _ _ (by decide), ?_, by decide⟩
  have t : tabled (sPage mPage 10000) 0xE000000000000000 = true := by decide
  have k := tabled_calm _ _ t
  have q : (sPage mPage 10000).queueOpen 63 = true ∧ (sPage mPage 10000).cap 63 = 2 ∧ (sPage mPage 10000).queueAsid 63 = 0 ∧
      (sPage mPage 10000).slotVa 63 ((sPage mPage 10000).headSeq 63) = 0x4000 ∧ (sPage mPage 10000).homeRead (0x4000 + 16) 8 = 0x900 := by decide
  have w := walk_writable h (sPage mPage 10000) (.outside 0) 0x4000 (by decide) t
  have r : (sPage mPage 10000).ringSlot 63 ((sPage mPage 10000).headSeq 63) = .ok 0x4000 0xE000000000000000 := by
    simp only [State.ringSlot, State.ctlHeld, k, q.2.1, q.2.2.1, q.2.2.2.1, w, Bool.false_eq_true, if_false, if_neg (show ¬ (2 : Nat) = 0 by decide)]
  have v := walk_writable h (sPage mPage 10000) (.outside 0) 0x900 (by decide) t
  have o : (sPage mPage 10000).outsideKey = .outside 0 := rfl
  have b : (attrTrap 0xE000000000000000 .store).isSome = false := by decide
  simp only [State.powerPage, q.1, r, q.2.2.1, q.2.2.2.2, o, v, b, k, Bool.not_true, Bool.false_eq_true, if_false, if_neg (show ¬ 48 < 0x900 % 64 by decide)]

/-- A bound member's die has a dump, and the boot is done with its six measurements. -/
def sReport : State := { s1 with boot := .done, chain := List.replicate 6 0, dumps := s1.dumps.write 0 ⟨true, 0, [1, 2], 0⟩ }

theorem witness_report : State.reset.boot ≠ .done ∧ sReport.boot = .done ∧ sReport.chain.length = 6 ∧ (sReport.dumps.read 1).busy = false ∧ (sReport.dumps.read 0).busy = true ∧
    sReport.quiesces = [] ∧ sReport.stalls 0 = false ∧ sReport.stalls 1 = false ∧ sReport.dumpArea = 0 ∧ Memory.wf sReport.mem = true := by decide

/-! ## Further clauses of the statements -/

/-- A vector store of four blocks, and a vector load that begins within a block, on pages without SC. -/
theorem witness_pieces : (mapped 16 sM).anySC 0x10000 256 = false ∧ (mapped 16 sM).pieces 0x10000 256 = [(0, 0x20000), (64, 0x20040), (128, 0x20080), (192, 0x200C0)] ∧
    (mapped 0 sM).pieces 0x10020 256 = [(0, 0x20020), (32, 0x20040), (96, 0x20080), (160, 0x200C0), (224, 0x20100)] ∧
    sX.orderHeld = false ∧ sM.orderHeld = false ∧ sX.core.cur.ctx = 0 := by decide

/-- R193: a vector store is withheld in every block that it enters. -/
theorem test_vector_store : (match exec (.vstg .always 1 2 0 0) (mapped 16 (sM.mapCore fun c =>
      let sh := { c.sh with v := c.sh.v.write 1 ⟨BitVec.ofNat 2048 (7 * 2 ^ 2040 + 9), 1⟩ }
      { c with sh := sh, cur := { c.cur with preSh := sh } })) with
    | .next t => (heldByte t.ctx.part 0x20000, heldByte t.ctx.part 0x200FF, heldByte t.ctx.part 0x20100) | _ => (none, none, none)) = (some 9, some 7, none) := by decide

/-- A fence of scope `core` with a load, or a released store, before it, and a withheld store after it. -/
def sFence (q : List Req) (e : List HEntry) : State := sF.mapCore fun c =>
  { c with reqs := q, main := { c.main with coreFences := [c.fenceHere 0 8], released := e, phase := 1,
                                            part := [⟨0x20000, 1, 0, 0, c.main.storeSeq, 1, 0, [], 0⟩] } }

theorem witness_core_fence : (∀ s ∈ [sFence sF.core.reqs [], sFence [] [⟨0x20040, 1, 0, 3, 0, 0, 0, [], 0⟩]], ∃ f ∈ (s.core.ctx 0).coreFences,
      f.mask = 8 ∧ f.next = 5 ∧ f.phase = 0 ∧ ∃ e ∈ (s.core.ctx 0).part, f.seq0 ≤ e.seq) ∧
    (∃ r ∈ (sFence sF.core.reqs []).core.reqs, r.id < 5 ∧ r.inMask 0 8 = true) ∧
    (∃ e ∈ ((sFence [] [⟨0x20040, 1, 0, 3, 0, 0, 0, [], 0⟩]).core.ctx 0).released, e.phase < 1 ∧ (8 : BitVec 16).getLsbD e.cls.toNat = true) ∧
    Req.isDevice { sM.request (.load 8 false) 3 with id := 5 } = true := by decide

/-- Barriers behind a gather of an earlier bundle that is not translated, and one that waits. -/
theorem witness_barrier_holds : (sF.mapCore fun c => { c with reqs := [{ sM.request (.gather 8) 0 with id := 4, addrs := [(0, 0x10000)] }] }).orderHeld = true ∧
    sM.ctx.barwOnly = false ∧ (sM.mapCtx fun x => { x with barwOnly := true }).ctx.barwOnly = true ∧ sM.orderHeld = false := by decide

/-- R35, R371: the last pending SETEF value is in force after a checkpoint, in the duplicate set too; R31: the retained lines of FA are held again
after a rollback, and those that a FEED of the phase delivered are gone. -/
theorem test_checkpoint_and_rollback :
    (match exec .checkpoint ((sCk .chkpt).mapCore fun c => { c with sh := { c.sh with efmtPend := [(9, 0x18), (10, 0x28)] } }) with
      | .next t => (t.core.sh.efmt, t.core.dupSh.efmt, t.core.sh.efmtPend) | _ => (0, 0, [(0, 0)])) = (0x28, 0x28, []) ∧
    (match exec .rollbackRestore (sRest.mapCore fun c => { c with fa := ⟨[⟨4, 2, 1, false⟩, ⟨4, 3, 0, false⟩], [⟨4, 1, 0, false⟩]⟩ }) with
      | .next t => (t.core.fa.held.map (·.bits), t.core.fa.retained) | _ => ([], [])) = ([1, 3], []) := by decide

/-- A k-step at the start of a block, with scales of A and B. -/
def eScale : MEntry := { eMul with efmt := 0xE9 }
def sScale : State := sA.mapCore fun c => { c with mq := [eScale], fa := ⟨[⟨10, 0x7F, 0, false⟩, lT8], []⟩, fb := ⟨[⟨10, 0x80, 0, false⟩, lT8], []⟩ }

theorem witness_matrix_scales : (here sScale).dueEntry = some eScale ∧ eScale.efmt.extractLsb' 4 2 ≠ 0 ∧ eScale.efmt.getLsbD 6 = true ∧ eScale.efmt.getLsbD 7 = true ∧
    eScale.af ≠ 2 ∧ eScale.af ≠ 3 ∧ eScale.steps % 32 = 0 ∧ lT8.tag = mTag eScale.af ∧ lT8.tag = mTag eScale.bf ∧
    1 + (dataLines (eScale.aSteps eScale.steps) 128 (mWidth eScale.af) - eScale.aLines.length) = 2 ∧
    1 + (dataLines (eScale.steps + 1) 256 (mWidth eScale.bf) - eScale.bLines.length) = 2 ∧
    (match exec .matrixKStep sScale with | .next t => (t.core.mq.map fun e => (e.aScales, e.bScales), t.core.fa.held.length) | _ => ([], 9)) = ([([0x7F], [0x80])], 0) := by decide

/-- A format change of 1.0 and of a NaN to an integer. -/
def oFp : Acc := ⟨.live, .fp32, 0x7FC000003F800000⟩

theorem witness_commit_saturates : (here (sPend (.fmt .i32 oFp))).readyPend = some ⟨3, 0, .fmt .i32 oFp, 0⟩ ∧ oFp.ty = .fp32 := by decide

/-! ### Replies -/

/-- A vector load of four blocks whose last comes next, on a page with or without RC, with one forwarded byte; and its first step. -/
def rVload (p : Nat) (rc : Bool) : Req :=
  { ask (.vload 5) 0x40 0 0 with
    va := 0x40, dst := 31, pas := [(0, 0x40), (64, 0x80), (128, 0xC0), (192, 0x100)], progress := p, pages := List.replicate 4 ⟨rc, false, 3⟩
    mask := BitVec.ofNat 256 (2 ^ 255), bits := BitVec.ofNat 2048 (0xFF * 2 ^ 2040) }
def sVload (p : Nat) (rc : Bool) : State := (sReq (rVload p rc) [(0x100, 0xC1), (0x13F, 7)]).mapCore fun c =>
  { c with ro := [⟨0, 0x100, 3, 0xEE⟩] }

theorem witness_load : (∀ q ∈ [(3, true), (3, false), (0, false)], let s := sVload q.1 q.2
      let r := rVload q.1 q.2
      (here s).req s.ev.id = some r ∧ r.discard = false ∧ r.result = none ∧ (here s).mayPerform r = true ∧ r.y = 0 ∧ r.kind = .vload 5 ∧
      (at_ s).homeHeld ((at_ s).reqKey r) (0x40 + 64 * q.1) = false ∧ (at_ s).poisoned (0x40 + 64 * q.1) 64 = false ∧ r.page.rc = q.2) ∧
    (rVload 3 true).pas[3]? = some (192, 0x100) ∧ (here (sVload 3 true)).roFind (here (sVload 3 true)).asid 0x100 = some ⟨0, 0x100, 3, 0xEE⟩ ∧
    (rVload 0 false).progress + 1 < (rVload 0 false).pas.length ∧ (rVload 3 true).progress + 1 = (rVload 3 true).pas.length := by decide

/-- R192: the last block arrives, but for its forwarded byte; the codes of T6 keep their low six bits (R193). -/
theorem test_load : (match exec .deviceReplyArrival (sVload 3 false) with
    | .next t => let v := t.core.sh.v.read 31
      (v.tag, byteOf v.bits 192, byteOf v.bits 255, t.core.reqs.length, t.ctx.regs.dc.read 7) | _ => (0, 0, 0, 9, 0)) = (5, 1, 0x3F, 0, 0xFFF) := by decide

/-- A gather of the 16-bit elements 0 and 127, on ordinary pages or, after its first checkpoint, on an SC page. -/
def rGath (c p : Bool) (n : Nat) : Req :=
  { ask (.gather 7) 0x40 0 0 with
    dst := 1, addrs := [(0, 0x40), (127, 0x62)], pas := [(0, 0x40), (127, 0x62)], pages := [⟨false, p, 3⟩, ⟨false, p, 3⟩], sc := c, irrev := c, progress := n }

theorem witness_gather : (∀ q ∈ [(false, 0), (true, 0), (false, 1)], let r := rGath q.1 false q.2
      let s := sReq r []
      (here s).req s.ev.id = some r ∧ r.discard = false ∧ r.result = none ∧ (here s).mayPerform r = true ∧ r.kind = .gather 7 ∧ r.x = 0 ∧ r.y = 0 ∧
      r.pas.map (·.1) = r.addrs.map (·.1) ∧ (r.addrs.map (·.1)).Nodup ∧ (∀ e ∈ r.addrs, e.1 < tagN 7) ∧ (r.sc = true → r.irrev = true) ∧ (∀ p ∈ r.pages, p.rc = false) ∧
      r.progress < r.pas.length ∧ r.cellRun = 1 ∧ (∀ p ∈ r.pas, (at_ s).homeHeld ((at_ s).reqKey r) p.2.toNat = false ∧ (at_ s).poisoned p.2.toNat 2 = false)) ∧
    tagW 7 / 8 = 2 := by decide

/-- R356: two elements of one cell come from one home step. -/
theorem test_gather : ({ rGath false true 0 with addrs := [(0, 0x40), (127, 0x42)], pas := [(0, 0x40), (127, 0x42)] }).cellRun = 2 ∧
    (match exec .deviceReplyArrival (sReq (rGath false false 1) [(0x63, 0x12)]) with
      | .next t => (field (t.core.sh.v.read 1).bits (16 * 127) 16, t.core.reqs.length) | _ => (0, 9)) = (0x1200, 0) := by decide

def rVatom : Req := { ask (.vatom 0 8) 0x40 0 0 with bits := 5, result := some (0, 0) }
def rDigb (x : Word) : Req := { ask (.digb 23) 0x40 x 0 with va := 0x40 }
def rDigrs : Req := { ask (.digrs 2) 0x40 0 0 with va := 0x40 }
/-- Region 255 holds the block at 0 with bounds 2.0 to 3.0 of FP32, and nothing else. -/
def sDig (r : Req) (m : List Host.Cell) : State :=
  let s := sReq r m
  { s with regions := s.regions.write 255 (regionBits 2), digests := [⟨255, 0, 0, 0, BitVec.ofNat 512 (0x4008000000000000 * 2 ^ 128 + 0x4000000000000000 * 2 ^ 64 + 0x10)⟩] }

theorem witness_query :
    (∀ r ∈ [rVatom, rDigb 0x4008000000000000, rDigrs], (here (sDig r [])).req (sDig r []).ev.id = some r ∧ r.discard = false) ∧
    (rVatom.result = some (0, 0) ∧ rVatom.mask = 0) ∧
    (∀ r ∈ [rDigb 0x4008000000000000, rDigrs], r.result = none ∧ (here (sDig r [])).mayPerform r = true ∧ (here (sDig r [])).asid = 0 ∧ r.va = 0x40) ∧
    ((at_ (sDig rDigrs [])).regionOf 0 0x40).isSome = true ∧ ((at_ (sDig rDigrs [])).regionOf 0 0x1000) = none ∧
    ((at_ (sDig rDigrs [])).queryBlocks 0 0x40 2) = [0, 0x1000] ∧ ((at_ (sDig rDigrs [])).queryBlock 0 0).1 = 0 ∧ ((at_ (sDig rDigrs [])).queryBlock 0 0x1000).1 = 0x1000 ∧
    (let e := (at_ (sDig rDigrs [])).entryAt 0 0x40
     isIntFmt (field e 4 4) = false ∧ field e 8 3 = 0 ∧ e.getLsbD 13 = false ∧ field e 192 3 = 0) ∧ (fmtFP64.decode 0x4008000000000000).isNaN = false := by decide

/-- R241: at 3.0 a block with bounds 2.0 to 3.0 lies below, and none above; R196: the old values of a VATOM. -/
theorem test_query : (match exec .deviceReplyArrival (sDig (rDigb 0x4008000000000000) []) with
      | .next t => (t.ctx.regs.preg 46, t.ctx.regs.preg 47, t.core.reqs.length) | _ => (false, true, 9)) = (true, false, 0) ∧
    (match exec .deviceReplyArrival (sDig rVatom []) with | .next t => (t.core.sh.v.read 30).bits | _ => 0) = 5 := by decide

theorem witness_query_blocks :
    (let s := at_ (sDig rDigrs [])
     let g := Region.ofBits (regionBits 2)
     s.regionOf 0 0 = some (255, g) ∧ g.base = 0 ∧ g.block = 4096 ∧ s.poisoned 0 4096 = false ∧ (s.digEntry 255 0).isSome = true ∧
     (match s.blockNow (s.reqKey rDigrs) 255 0 with | .ok (some pa) => decide (pa = 0) | _ => false) = true ∧
     s.blockHeld (s.reqKey rDigrs) 255 (s.blockNow (s.reqKey rDigrs) 255 0) = none ∧ s.blockHeld (s.reqKey rDigrs) 255 (s.blockBase (s.reqKey rDigrs) 255 0) = none) ∧
    rDigrs.progress + 1 < 2 ∧ ({ rDigrs with progress := 1 } : Req).progress + 1 = 2 := by decide

/-- In package 0, WSTAT of tile 0 reads the map of tile 1, its lowest-numbered live neighbour. -/
theorem witness_wstat (h : Config.pkgId = 0) : let r := ask .wstat 0 0 0
    (here (sReq r [])).req 5 = some r ∧ r.result = none ∧ r.discard = false ∧ r.x.toNat / 128 = Config.pkgId.toNat ∧ neighbour 0 0 = 1 ∧ (at_ (sReq r [])).cutOff 1 = false ∧
    (∀ w : BitVec 7, (∃ d, neighbour 0 d = w) → w = 1 ∨ w = 15 ∨ w = 16 ∨ w = 112) := by
  rw [h]
  refine ⟨by decide, by decide, by decide, by decide, by decide, by decide, ?_⟩
  rintro w ⟨d, rfl⟩
  revert d
  decide

/-! ### Work queues and KVAPP -/

def rPushC : Req := ask (.push true) 0x200 5 0

theorem witness_work_queue_close :
    (∀ m ∈ [mItem, mEmpty, mClosed], Performs (sReq rPushC m) rPushC) ∧ rPushC.pas ≠ [] ∧ (rPop true).pas ≠ [] ∧ rPush.pas ≠ [] ∧ rPushC.waiting = false ∧ rPushC.discard = false ∧
    ((at_ (sReq rPushC mItem)).workQ 0x200).held = ((at_ (sReq rPushC mItem)).workQ 0x200).cap ∧ ((at_ (sReq rPushC mItem)).workQ 0x200).closed = false ∧
    ((at_ (sReq rPushC mClosed)).workQ 0x200).closed = true := by
  have hr : ∀ m ∈ [mItem, mEmpty, mClosed], Memory.wf m = true ∧
      ((here (sReq rPushC m)).req 5 = some rPushC ∧ rPushC.result = none ∧ (here (sReq rPushC m)).mayPerform rPushC = true ∧ Memory.wf (at_ (sReq rPushC m)).mem = true) := by decide
  exact ⟨fun m hm => let x := (hr m hm).2; performs_of _ _ x.1 x.2.1 x.2.2.1 x.2.2.2, by decide, by decide, by decide, by decide, by decide, by decide, by decide, by decide⟩

/-- R332: a PUSHW.c into a full queue closes it and is answered 1. -/
theorem test_push_close : (match exec .workQueueHomeStep (sReq rPushC mItem) with
    | .next t => ((t.core.req 5).bind (·.result), Memory.read t.mem 0x20C, Memory.read t.mem 0x210) | _ => (none, 0, 0)) = (some (0, 1), 1, 1) := by decide

/-- A store of the KVAPP's context from before its release is still on its way to its own scratchpad. -/
def sKvLate : State := (sKv 32 1).mapCore fun c => { c with reqs := [rKv, { ask .winStore 0 0 0 with id := 4 }] }

theorem witness_kvapp_waits : (here sKvLate).req 5 = some rKv ∧ (here sKvLate).kvReleased rKv = true ∧ (here sKvLate).kvRuns = true ∧ (at_ sKvLate).kvWaits rKv = true ∧
    (∀ s ∈ [sKv 0 1, sKv 32 0, sKv 32 1, sKv 224 255], (at_ s).kvWaits rKv = false) := by decide

/-! ### Launch -/

/-- The head of queue 62 is found at 0x4000 where the tables and the queue's cell are those of the memories above. -/
theorem head_at (h : Config.stackPresent 0 0 = true) (s : State) (a : tabled s 0xE000000000000000 = true) (t : s.cap 62 = 2 ∧ s.headSeq 62 = 0 ∧ s.queueAsid 62 = 0 ∧
    s.slotVa 62 0 = 0x4000 ∧ s.homeRead (0x4000 + 120) 8 = 0) : s.head 62 = some 0x4000 := by
  have r : s.ringSlot 62 0 = .ok 0x4000 0xE000000000000000 := by
    simp only [State.ringSlot, State.ctlHeld, tabled_calm _ _ a, t.1, t.2.2.1, t.2.2.2.1, walk_writable h s (.outside 0) 0x4000 (by decide) a, Bool.false_eq_true, if_false,
      if_neg (show ¬ (2 : Nat) = 0 by decide)]
  simp only [State.head, t.2.1, r, t.2.2.2.2, if_true]

theorem bad_head_here (h : Config.stackPresent 0 0 = true) : (sHead mHeadBad noFlags).head 62 = some 0x4000 ∧ (sHead mHeadBad noFlags).headNew 62 = true ∧
    (sHead mHeadBad noFlags).headBad 62 0x4000 = true := by
  have a : tabled (sHead mHeadBad noFlags) 0xE000000000000000 = true := by decide
  have k := tabled_calm _ _ a
  have e := head_at h (sHead mHeadBad noFlags) a (by decide)
  have u : (sHead mHeadBad noFlags).usable (.outside 0) 0 0x6000 false = .ok 0x6000 0xE000000000000000 := by
    have c : (leafCMP (0xE000000000000000 : BitVec 64) || false && !leafW (0xE000000000000000 : BitVec 64)) = false := by decide
    simp only [State.usable, walk_writable h _ _ 0x6000 (by decide) a, c, k, Bool.false_eq_true, if_false]
  have d : (decide ((62 : BitVec 6) ≠ 63) && !(sHead mHeadBad noFlags).headChecked 62) = true ∧ (sHead mHeadBad noFlags).completionHeld 62 ((sHead mHeadBad noFlags).queueAsid 62)
      ((sHead mHeadBad noFlags).homeRead (0x4000 + 72) 8) = false ∧ (sHead mHeadBad noFlags).homeRead 0x4000 8 = 0x6000 := by decide
  have q : (sHead mHeadBad noFlags).queueAsid 62 = 0 := by decide
  refine ⟨e, ?_, by decide⟩
  simp only [State.headNew, State.headHeld, e, d, q, u]; rfl

/-- One tile is fused off, so the head's team of 128 does not fit. -/
def sFew : State := { sHead mHead { noFlags with checked := some 0 } with map := State.reset.map.write 5 ⟨true, false, false, []⟩ }

theorem witness_head_fails (h : Config.stackPresent 0 0 = true) : sFew.headDue 62 = true ∧ sFew.head 62 = some 0x4000 ∧ sFew.teamSize 62 0x4000 = .error 3 := by
  have b : sFew.head 62 = some 0x4000 := head_at h _ (by decide) (by decide)
  have l : (decide ((62 : BitVec 6) ≠ 63) && sFew.queueOpen 62 && decide (sFew.queueRank 62 < 15) && sFew.headChecked 62 && (sFew.queues.read 62).eligible.isNone) = true ∧
      ((sFew.deps 0x4000).all sFew.depMet && !sFew.sizeHeld 62 0x4000) = true := by decide
  have n : sFew.homeRead (0x4000 + 12) 2 = 0 ∧ sFew.homeRead (0x4000 + 14) 2 = 128 ∧ sFew.tiles = 127 := by decide
  refine ⟨?_, b, ?_⟩
  · simp only [State.headDue, b]
    exact Bool.and_eq_true_iff.mpr l
  · simp only [State.teamSize, n]
    rfl

/-- What a completion needs of the state in which it writes. -/
theorem witness_record_done : (sHead mHead noFlags).quiesces = [] ∧ (∀ a, (sHead mHead noFlags).stalls a = false) ∧ Memory.wf (sHead mHead noFlags).mem = true ∧
    sOfferHeld.slotHeld 62 = true := ⟨rfl, unstalled _ rfl (by decide), by decide, by decide⟩

/-! ### Links, Trellises, the power page and dumps -/

/-- A store of an earlier bundle is on its way to the sending tile's scratchpad. -/
theorem witness_link_store : let s := (sLink (.lsend .always 1 2 0) true).mapCore fun c => { c with q0 := c.q0.map fun k => { k with id := 7 }, reqs := [ask .winStore 0 0 0] }
    (s.focus 0).storeOnWay { kLink (.lsend .always 1 2 0) with id := 7 } 0 = true ∧ (sLink (.lsend .always 1 2 0) true).storeOnWay (kLink (.lsend .always 1 2 0)) 0 = false := by decide

/-- Tile 1, about which tile 0 decides, is on probation, or is not. -/
def onProbation (s : State) (p : Option Nat) : State := { s with trellis := s.trellis ++ [(1, { Trellis.fresh with probation := p })] }

theorem witness_probation : (∀ p ∈ [none, some 0],
      ((onProbation (sVote { Vote.fresh with linkFenced := true, good := 15, beatsValid := 1 } 2000 []) p).trellisAt 1).probation = p ∧
      ((onProbation (sVote { Vote.fresh with linkFenced := true, good := 15, beatsValid := 1 } 2000 []) p).vote 0 0).good = 15 ∧
      ((onProbation (sAdmit [⟨1, 2, 0⟩, ⟨1, 113, 0⟩] 4) p).trellisAt 1).probation = p ∧ ((onProbation (sAdmit [] 4) p).trellisAt (flit 4).subject).probation = p) ∧
    (let s := onProbation sReadmit (some 0)
     s.votes 0 0 = true ∧ s.votes 0 1 = false ∧ s.voters 0 0 ≠ 0 ∧ (s.vote 0 0).linkFenced = true ∧ (s.trellisAt 1).probation ≠ none ∧
       ((s.trellisAt 1).admits.filter fun h => h.subject = 1 && s.votes 0 h.by_).length = 0 ∧ ((s.trellisAt 0).admits.filter fun h => h.subject = 1 && s.votes 0 h.by_).length = 3) ∧
    (let s := { sAppeal 1 200000 none (some 0) false with mring := [⟨2, 0, 0, 0⟩] }
     ∃ n ∈ s.mring, n.kind = 2 ∧ n.subject = 0) ∧ (∀ n ∈ (sAppeal 1 200000 none (some 0) false).mring, ¬ (n.kind = 2 ∧ n.subject = 0)) := by decide

/-- A write of the service core is held; a kill record waits for room, or none does. -/
theorem witness_held_accesses : ({ sPage mPage 10000 with stalled := [.write (some 4) 0 [1]] } : State).ctlPending 4 = true ∧ (sPage mPage 10000).ctlPending 4 = false ∧
    (sPage [] 10000).ctlPending 4 = false ∧ ({ sReport with stalled := [.write (some 4) 0 [1]] } : State).ctlPending 4 = true ∧ sReport.ctlPending 4 = false ∧
    (sReport.dumps.read 0).copied % 64 = 0 ∧ sKill.killWaits 0 = false ∧ bindState (sKill.bind 0) = 2 := by decide

/-- Where no region is being scanned, only the blocks of the region itself are asked for. -/
theorem witness_region_held : (∀ s ∈ [sRegion 0 false [], { sRegion 0 false [] with kvts := State.reset.kvts.write 0 0x8000000000000010 }],
    s.liveRegions.filter (fun p => p.2.state = 1) = []) ∧ ((sRegion 1 false []).liveRegions.filter fun p => p.2.state = 1).length = 1 := by decide

end Sys2Proof.Tests
end

section
/-!
PROOFS. What the integer operations of the S slot compute, in the terms of the library's bit vectors (R107 to R112).
-/
namespace Sys2Proof.Machine

/-! ## Products and quotients (R107, R108) -/

/-- The signed high half is the upper half of the product at twice the width. -/
theorem mulHighS_eq (x y : Word) : mulHighS x y = (x.signExtend 128 * y.signExtend 128).extractLsb' 64 64 := by
  have product : x.signExtend 128 * y.signExtend 128 = BitVec.ofInt 128 (x.toInt * y.toInt) := (BitVec.ofInt_mul _ _).symm
  apply BitVec.eq_of_toNat_eq
  rw [product, mulHighS, BitVec.extractLsb'_toNat, BitVec.toNat_ofInt, BitVec.toNat_ofInt, Nat.shiftRight_eq_div_pow]
  omega

/-- The unsigned high half is the upper half of the product at twice the width. -/
theorem mulHighU_eq (x y : Word) : mulHighU x y = (x.zeroExtend 128 * y.zeroExtend 128).extractLsb' 64 64 := by
  have bound : x.toNat * y.toNat < 2 ^ 128 := by
    rw [Nat.pow_add 2 64 64]
    exact Nat.mul_lt_mul'' x.isLt y.isLt
  apply BitVec.eq_of_toNat_eq
  rw [mulHighU, BitVec.extractLsb'_toNat, BitVec.toNat_ofNat, BitVec.toNat_mul, BitVec.toNat_setWidth_of_le (by decide),
    BitVec.toNat_setWidth_of_le (by decide), Nat.mod_eq_of_lt bound, Nat.shiftRight_eq_div_pow]

/-- DIV is the library's quotient, which wraps at -2^63 by -1, but for a zero divisor. -/
theorem divS_eq (x y : Word) : divS x y = if y = 0 then -1 else x.sdiv y := by
  unfold divS
  split
  · rfl
  · exact BitVec.eq_of_toInt_eq (by rw [BitVec.toInt_ofInt, BitVec.toInt_sdiv])

theorem divU_eq (x y : Word) : divU x y = if y = 0 then -1 else x / y := by
  unfold divU
  split
  · rfl
  · exact BitVec.udiv_def.symm

theorem remS_eq (x y : Word) : remS x y = if y = 0 then x else x.srem y := by
  unfold remS
  split
  · rfl
  · rw [← BitVec.toInt_srem, BitVec.ofInt_toInt]

theorem remU_eq (x y : Word) : remU x y = if y = 0 then x else x % y := by
  unfold remU
  split
  · rfl
  · exact BitVec.umod_def.symm

/-! ## Shifts, minima and maxima (R107) -/

/-- The six low bits of a register are its value modulo 64. -/
theorem toNat_low_six (y : Word) : (y.extractLsb' 0 6).toNat = y.toNat % 64 := by
  rw [BitVec.extractLsb'_toNat, Nat.shiftRight_zero]

/-- An arithmetic shift divides by a power of two, rounding down. -/
theorem sshiftRight_eq_div (x : Word) (n : Nat) : x.sshiftRight n = BitVec.ofInt 64 (x.toInt / 2 ^ n) := by
  rw [BitVec.sshiftRight_eq, Int.shiftRight_eq_div_pow]
  norm_cast

/-- A shift by a register takes its six low bits. -/
theorem shiftLeft_low_six (x y : Word) : x <<< (y.toNat % 64) = x <<< y.extractLsb' 0 6 := by
  rw [BitVec.shiftLeft_eq', toNat_low_six]

theorem ushiftRight_low_six (x y : Word) : x >>> (y.toNat % 64) = x >>> y.extractLsb' 0 6 := by
  rw [BitVec.ushiftRight_eq', toNat_low_six]

theorem sshiftRight_low_six (x y : Word) :
    x.sshiftRight (y.toNat % 64) = BitVec.ofInt 64 (x.toInt / 2 ^ (y.extractLsb' 0 6).toNat) := by
  rw [sshiftRight_eq_div, toNat_low_six]

theorem rotateRight_low_six (x y : Word) : x.rotateRight (y.toNat % 64) = x.rotateRight (y.extractLsb' 0 6).toNat := by
  rw [toNat_low_six]

/-- Choosing by a signed comparison and by the strict one the other way round. -/
theorem ite_toInt_le {α : Type} (x y : Word) (p q : α) : (if x.toInt ≤ y.toInt then p else q) = if y.slt x then q else p := by
  simp only [BitVec.slt_iff_toInt_lt, ← Int.not_le, ite_not]

theorem ite_toNat_le {α : Type} (x y : Word) (p q : α) : (if x.toNat ≤ y.toNat then p else q) = if y.ult x then q else p := by
  simp only [BitVec.ult_eq_decide, decide_eq_true_eq, ← Nat.not_le, ite_not]

/-! ## Counts of bits (R107) -/

/-- The leading zeros of a word other than 0 are what its top set bit leaves above it. -/
theorem leadZeros_eq (x : Word) : leadZeros x = x.clz := by
  by_cases hx : x = 0
  · subst hx
    decide
  · have clz_lt : x.clz.toNat < 64 := by simpa [BitVec.lt_def] using BitVec.clz_lt_iff_ne_zero.mpr hx
    have low : 2 ^ (63 - x.clz.toNat) ≤ x.toNat := BitVec.two_pow_sub_clz_le_toNat_of_ne_zero (by decide) hx
    have high : x.toNat < 2 ^ (63 - x.clz.toNat + 1) := by
      have := BitVec.toNat_lt_two_pow_sub_clz (x := x)
      rwa [show 63 - x.clz.toNat + 1 = 64 - x.clz.toNat by omega]
    have nonzero : x.toNat ≠ 0 := fun h => hx (BitVec.eq_of_toNat_eq h)
    have top : x.toNat.log2 = 63 - x.clz.toNat := (Nat.log2_eq_iff nonzero).mpr ⟨low, high⟩
    rw [leadZeros, bitLen, if_neg nonzero, top, show 64 - (63 - x.clz.toNat + 1) = x.clz.toNat by omega, BitVec.ofNat_toNat,
      BitVec.setWidth_eq]

/-- The trailing zeros of a word other than 0 are the place of its lowest set bit. -/
theorem trailZeros_eq (x : Word) : trailZeros x = x.ctz := by
  by_cases hx : x = 0
  · have none_set : (List.range 64).find? (fun i => x.getLsbD i) = none := by simp [hx]
    rw [trailZeros, none_set, BitVec.ctz_eq_reverse_clz, BitVec.reverse_eq_zero_iff.mpr hx]
    decide
  · have ctz_lt : x.ctz.toNat < 64 := by simpa [BitVec.lt_def] using BitVec.ctz_lt_iff_ne_zero.mpr hx
    have lowest : (List.range 64).find? (fun i => x.getLsbD i) = some x.ctz.toNat := by
      rw [List.find?_range_eq_some]
      exact ⟨BitVec.getLsbD_true_ctz_of_ne_zero hx, List.mem_range.mpr ctz_lt,
        fun j hj => by simp [BitVec.getLsbD_false_of_lt_ctz hj]⟩
    rw [trailZeros, lowest, Option.getD_some, BitVec.ofNat_toNat, BitVec.setWidth_eq]

/-- Set bits counted by a filter and by the library's recursion. -/
theorem popCount_eq {w : Nat} (x : BitVec w) (n : Nat) : popCount x n = x.cpopNatRec n 0 := by
  induction n with
  | zero => rfl
  | succ n ih =>
    rw [BitVec.cpopNatRec_succ, BitVec.cpopNatRec_eq, ← ih, popCount, popCount, List.range_succ, List.filter_append, List.length_append]
    cases h : x.getLsbD n <;> simp [h]

/-! ## Bit fields (R109) -/

/-- One bit of a field replacement. -/
theorem getLsbD_setField {w : Nat} (x : BitVec w) (lo n v j : Nat) (hj : j < w) :
    (setField x lo n v).getLsbD j = if lo ≤ j ∧ j < lo + n then v.testBit (j - lo) else x.getLsbD j := by
  unfold setField
  rw [BitVec.getLsbD_or, BitVec.getLsbD_and, BitVec.getLsbD_not, BitVec.getLsbD_shiftLeft, BitVec.getLsbD_shiftLeft,
    BitVec.getLsbD_ofNat, BitVec.getLsbD_ofNat, Nat.testBit_two_pow_sub_one, Nat.testBit_mod_two_pow]
  have hs : j - lo < w := by omega
  by_cases hlo : lo ≤ j
  · by_cases hn : j < lo + n
    · have : j - lo < n := by omega
      simp [hj, hs, hlo, hn, this, Nat.not_lt.mpr hlo]
    · have : ¬ j - lo < n := by omega
      simp [hj, hs, hlo, hn, this]
  · simp [hj, hlo, Nat.not_le.mp hlo]

/-- A field read as a number is the library's field of the word. -/
theorem field_eq {w : Nat} (x : BitVec w) (lo n : Nat) : field x lo n = (x.extractLsb' lo n).toNat := by
  rw [field, BitVec.extractLsb'_toNat, Nat.shiftRight_eq_div_pow]

/-- The model's signed reading of a pattern is the library's. -/
theorem intOf_toNat {w : Nat} (x : BitVec w) (hw : w ≠ 0) : intOf w true x.toNat = x.toInt := by
  have half : 2 ^ w = 2 * 2 ^ (w - 1) := by rw [← Nat.pow_succ', Nat.succ_eq_add_one, Nat.sub_add_cancel (Nat.pos_of_ne_zero hw)]
  rw [intOf, BitVec.toInt_eq_toNat_cond]
  by_cases h : 2 ^ (w - 1) ≤ x.toNat
  · rw [if_pos (by simpa using h), if_neg (by omega)]
    norm_cast
  · rw [if_neg (by simpa using h), if_pos (by omega)]

theorem bfExtractU_eq (x y : Word) : bfExtractU x y = (x.extractLsb' (bfPos y) (bfWid y)).setWidth 64 := by
  rw [bfExtractU, field_eq, BitVec.ofNat_toNat]

theorem bfExtractS_eq (x y : Word) : bfExtractS x y = (x.extractLsb' (bfPos y) (bfWid y)).signExtend 64 := by
  unfold bfExtractS
  split
  · next h =>
    rw [h, BitVec.of_length_zero (x := x.extractLsb' (bfPos y) 0)]
    rfl
  · next h => rw [field_eq, intOf_toNat _ h, BitVec.signExtend]

/-- A bit of BFX: the field's own bits, and its top bit repeated above them. -/
theorem getLsbD_bfExtractS (x y : Word) (j : Nat) (hj : j < 64) :
    (bfExtractS x y).getLsbD j = (decide (bfWid y ≠ 0) && x.getLsbD (bfPos y + min j (bfWid y - 1))) := by
  rw [bfExtractS_eq, BitVec.getLsbD_signExtend, BitVec.msb_eq_getLsbD_last, BitVec.getLsbD_extractLsb', BitVec.getLsbD_extractLsb',
    decide_eq_true hj, Bool.true_and]
  by_cases h : j < bfWid y
  · rw [if_pos h, Nat.min_eq_left (by omega), decide_eq_true h, decide_eq_true (show bfWid y ≠ 0 by omega)]
  · rw [if_neg h, Nat.min_eq_right (by omega), decide_eq_decide.mpr (show bfWid y - 1 < bfWid y ↔ bfWid y ≠ 0 by omega)]

/-- A bit of BFXZ: the field's own bits, and zeros above them. -/
theorem getLsbD_bfExtractU (x y : Word) (j : Nat) (hj : j < 64) :
    (bfExtractU x y).getLsbD j = (decide (j < bfWid y) && x.getLsbD (bfPos y + j)) := by
  rw [bfExtractU_eq, BitVec.getLsbD_setWidth, BitVec.getLsbD_extractLsb', decide_eq_true hj, Bool.true_and]

/-- A bit of BFI: the low bits of `x` in the field, and the old bits outside it. -/
theorem getLsbD_bfInsert (old x y : Word) (j : Nat) (hj : j < 64) :
    (bfInsert old x y).getLsbD j =
      if bfPos y ≤ j ∧ j < bfPos y + bfWid y then x.getLsbD (j - bfPos y) else old.getLsbD j := by
  rw [bfInsert, getLsbD_setField _ _ _ _ _ hj, Nat.testBit_mod_two_pow, BitVec.testBit_toNat]
  split
  · next h => rw [decide_eq_true (show j - bfPos y < bfWid y by omega), Bool.true_and]
  · rfl

/-! ## Immediates (R111, R112) -/

/-- 256 bytes per step are a shift by eight. -/
theorem mul_256_eq (x : Word) : x * 256 = x <<< 8 := (BitVec.shiftLeft_eq_mul_twoPow x 8).symm

/-- MOVHI puts its immediate below the 51 low bits of the register. -/
theorem shiftLeft_or_zext_eq (x : Word) (i : BitVec 13) : x <<< 13 ||| zext i = x.extractLsb' 0 51 ++ i := by
  have shift : x <<< 13 = x.extractLsb' 0 51 ++ 0#13 := BitVec.shiftLeft_eq_concat_of_lt (by decide)
  have below : zext i = 0#51 ++ i := BitVec.setWidth_eq_append (by decide)
  rw [shift, below, BitVec.or_append, BitVec.or_zero, BitVec.zero_or]

/-! ## The guarded register writes -/

/-- Only the value that a guarded write computes matters. -/
theorem State.writeS_eq {s : State} {g : Guard} {d : BitVec 6} {f : State → Word} {v : Word} (h : f s = v) :
    s.writeS g d f = s.writeS g d fun _ => v := by
  subst h
  rfl

theorem State.alu_eq {s : State} {g : Guard} {d a b : BitVec 6} {f : Word → Word → Word} {v : Word}
    (h : f (s.sreg a) (s.sreg b) = v) : s.alu g d a b f = s.writeS g d fun _ => v := State.writeS_eq h

end Sys2Proof.Machine
end

section
/-!
PROOFS. The scalar instructions that write one register: their frame once, their results by the tables of R107 to R112, and the
obligations about them.
-/
namespace Sys2Proof.Claims

open Sys2Proof.Machine

/-! ## The frame of a register write -/

/-- A change of the issuing context's own registers changes nothing else. -/
theorem onlyRegs_mapRegs (s : State) (f : Priv → Priv) : OnlyRegs s (s.mapRegs f) where
  rest := by
    rw [State.mapRegs_ctx]
    rfl
  mem _ := rfl
  spad _ := by rw [State.mapRegs_core, Core.mapCtx_spad]

/-- A write of a scalar register is what a one-register statement describes (R23). -/
theorem oneScalar_setS (s : State) (d : BitVec 6) (v : Word) : OneScalar s (s.setS d v) d v where
  value := by rw [State.setS, State.mapRegs_ctx, Priv.sreg_setS, if_pos rfl]
  others j hj := by rw [State.setS, State.mapRegs_ctx, Priv.sreg_setS, if_neg hj]
  preds := by rw [State.setS, State.mapRegs_ctx, Priv.setS_p]
  targets := by rw [State.setS, State.mapRegs_ctx, Priv.setS_b]
  counters := by rw [State.setS, State.mapRegs_ctx, Priv.setS_dc]
  frame := onlyRegs_mapRegs s _

/-- An instruction that writes `v` to `d` under its guard does so, and nothing else, when the guard is true (R69). -/
theorem oneScalar_of_exec {s : State} {i : Instr} {g : Guard} {d : BitVec 6} {v : Word}
    (meaning : exec i s = s.writeS g d fun _ => v) (hg : s.guard g = true) : ∃ t, exec i s = .next t ∧ OneScalar s t d v :=
  ⟨s.setS d v, meaning.trans (State.guarded_true hg _), oneScalar_setS s d v⟩

/-! ## The tables -/

/-- Each integer form but the divisions writes the value of its table under its guard (R107). -/
theorem exec_of_intResult {s : State} {i : Instr} {g : Guard} {d : BitVec 6} {v : Word} (h : intResult s i = some (g, d, v)) :
    exec i s = s.writeS g d fun _ => v := by
  unfold intResult at h
  split at h <;> cases h <;> rw [exec]
  -- ADD, SUB, MUL, AND, ANDN, OR and XOR
  case h_1 | h_2 | h_3 | h_6 | h_7 | h_8 | h_9 => exact State.alu_eq rfl
  -- MULH and MULHZ
  case h_4 => exact State.alu_eq (mulHighS_eq _ _)
  case h_5 => exact State.alu_eq (mulHighU_eq _ _)
  -- SHL, SHR, SAR and ROTR by a register
  case h_10 => exact State.alu_eq (shiftLeft_low_six _ _)
  case h_12 => exact State.alu_eq (ushiftRight_low_six _ _)
  case h_14 => exact State.alu_eq (sshiftRight_low_six _ _)
  case h_16 => exact State.alu_eq (rotateRight_low_six _ _)
  -- SHLI, SHRI and ROTR by a count, and SARI
  case h_11 | h_13 | h_17 => exact State.writeS_eq rfl
  case h_15 => exact State.writeS_eq (sshiftRight_eq_div _ _)
  -- MIN and MAX, MINZ and MAXZ
  case h_18 | h_20 => exact State.alu_eq (ite_toInt_le _ _ _ _)
  case h_19 | h_21 => exact State.alu_eq (ite_toNat_le _ _ _ _)
  -- CLZ, CTZ and POPC
  case h_22 => exact State.writeS_eq (leadZeros_eq _)
  case h_23 => exact State.writeS_eq (trailZeros_eq _)
  case h_24 => exact State.writeS_eq (congrArg (BitVec.ofNat 64) (popCount_eq _ 64))

/-- Each division writes its quotient or remainder under its guard (R107, R108). -/
theorem exec_of_divResult {s : State} {i : Instr} {g : Guard} {d : BitVec 6} {v : Word} (h : divResult s i = some (g, d, v)) :
    exec i s = s.writeS g d fun _ => v := by
  unfold divResult at h
  split at h <;> cases h <;> rw [exec]
  · exact State.alu_eq (divS_eq _ _)
  · exact State.alu_eq (divU_eq _ _)
  · exact State.alu_eq (remS_eq _ _)
  · exact State.alu_eq (remU_eq _ _)

/-- Each immediate form writes its value under its guard (R111, R112). -/
theorem exec_of_immResult {s : State} {i : Instr} {g : Guard} {d : BitVec 6} {v : Word} (h : immResult s i = some (g, d, v)) :
    exec i s = s.writeS g d fun _ => v := by
  unfold immResult at h
  split at h <;> cases h <;> rw [exec]
  -- ADDI, ANDI, ORI, XORI and MOVI
  case h_1 | h_2 | h_3 | h_4 | h_6 => exact State.writeS_eq rfl
  -- LEA and MOVHI
  case h_5 => exact State.writeS_eq (congrArg (_ + ·) (mul_256_eq _))
  case h_7 => exact State.writeS_eq (shiftLeft_or_zext_eq _ _)

/-- The model and the statements read the same field out of `sb` (R109). -/
theorem fieldPos_eq (b : Word) : fieldPos b = bfPos b := toNat_low_six b

theorem fieldWid_eq (b : Word) : fieldWid b = bfWid b := by
  rw [fieldWid, fieldPos_eq, BitVec.extractLsb'_toNat, Nat.shiftRight_eq_div_pow]
  rfl

/-- Each bit-field form writes, under its guard, a word with the bits of its table (R109). -/
theorem exec_of_fieldDest {s : State} {i : Instr} {g : Guard} {d : BitVec 6} (h : fieldDest i = some (g, d)) :
    ∃ v, (exec i s = s.writeS g d fun _ => v) ∧ ∀ j, j < 64 → fieldBit s (s.sreg d) i j = some (v.getLsbD j) := by
  unfold fieldDest at h
  split at h <;> cases h <;> rw [exec]
  · refine ⟨_, State.alu_eq rfl, fun j hj => ?_⟩
    rw [getLsbD_bfExtractS _ _ _ hj, ← fieldPos_eq, ← fieldWid_eq, fieldBit]
  · refine ⟨_, State.alu_eq rfl, fun j hj => ?_⟩
    rw [getLsbD_bfExtractU _ _ _ hj, ← fieldPos_eq, ← fieldWid_eq, fieldBit]
  · refine ⟨_, State.writeS_eq rfl, fun j hj => ?_⟩
    rw [getLsbD_bfInsert _ _ _ _ hj, ← fieldPos_eq, ← fieldWid_eq, fieldBit]

/-! ## The parts of the obligations -/

theorem integerResult : IntegerResult := fun _ _ _ _ _ h hg => oneScalar_of_exec (exec_of_intResult h) hg

theorem divisionResult : DivisionResult := fun _ _ _ _ _ h hg => oneScalar_of_exec (exec_of_divResult h) hg

theorem immediateResult : ImmediateResult := fun _ _ _ _ _ h hg => oneScalar_of_exec (exec_of_immResult h) hg

theorem bitFieldResult : BitFieldResult := by
  intro s i g d h hg
  obtain ⟨v, meaning, bits⟩ := exec_of_fieldDest h
  obtain ⟨t, next, one⟩ := oneScalar_of_exec meaning hg
  exact ⟨t, v, next, one, bits⟩

/-- SEL writes under either guard: the guard chooses only the value (R110). -/
theorem selectResult : SelectResult := fun s _ d _ _ => ⟨_, rfl, oneScalar_setS s d _⟩

/-- Settles O15: every integer form is a guarded write of one register, of the value that its table gives. -/
theorem integerAndDivision : Obligations.IntegerAndDivision := ⟨integerResult, divisionResult⟩

/-- Settles O16: bit fields and immediate forms are guarded writes of one register, and SEL is a write of one. -/
theorem fieldsImmediatesSelect : Obligations.FieldsImmediatesSelect := ⟨bitFieldResult, immediateResult, selectResult⟩

end Sys2Proof.Claims
end
